-- ==== Sys2Proof/Word.lean ====
section
/-! DEFINITION. Words, bytes and the sparse tables that State is built from (00_scope.md R5, R6, R8). -/

namespace Sys2Proof

/-- A byte. -/
abbrev Byte := BitVec 8

/-- A 32-bit word (Burin registers, ring indices, 32-bit registers). -/
abbrev Word := BitVec 32

/-- A 64-bit value: time-stamps (R7), 64-bit registers, addresses on the fabric. -/
abbrev DWord := BitVec 64

/-- A sparse table: entries by rising number, none equal to the table's default.
`Tab.get` and `Tab.set` (Machine/Tab.lean) read and write it. -/
abbrev Tab (α : Type) := List (Nat × α)

end Sys2Proof
end

