-- ==== Sys2Proof/Syntax.lean ====
section
/-! DEFINITION. The commands of the block: one constructor per row of spec/opcode_table.json, with the operands
that the rules give the row (log 1: what comes from outside the block is an operand). -/

namespace Sys2Proof

/-- One register-port request without its address and direction (Table 16.9, R406): the initiator and world it
carries, its byte enables, its write data, its tag and whether its parity is right. -/
structure PortReq where
  initiator : BitVec 16
  world : Bool
  be : BitVec 8
  wdata : BitVec 64
  tag : BitVec 5
  parityOk : Bool
  deriving DecidableEq, Repr

/-- How the host answered the data accesses of a running link (R185, R403): all of them well, or the first that
failed, by the offset of the transaction in its area and whether it failed by TIMEOUT_US rather than by its answer. -/
inductive AccessResult where
  | ok
  | paramFailed (offset : BitVec 32) (timedOut : Bool)
  | inputFailed (offset : BitVec 32) (timedOut : Bool)
  | outputFailed (offset : BitVec 32) (timedOut : Bool)
  deriving DecidableEq, Repr

/-- What a link's reads of host memory returned (R76): the parameter block, the input, and the input of the
second pass of R159. Ignored where the link takes parameters inline or its input from the chain buffer.
`checkFails` is how many of a result's checks before release failed (R206). -/
structure LinkData where
  param : List Byte
  input : List Byte
  again : List Byte
  access : AccessResult
  checkFails : Nat
  deriving DecidableEq, Repr

/-- The reads of R85. -/
inductive FetchKind where
  | header
  | entry
  | linkTable
  deriving DecidableEq, Repr

/-- A message offered again on the function port (R410). -/
inductive Offer where
  | interrupt (vec : BitVec 14)
  | resetComplete (fn : BitVec 10)
  deriving DecidableEq, Repr

/-- How far a port's readers have come while a frame arrives (R122): before its beat `beat`, `read` beats of frame `seq` have
been absorbed. -/
structure Move where
  beat : Nat
  seq : Word
  read : Nat
  deriving DecidableEq, Repr

/-- A frame as the MAC presents it (R116): its bytes from the destination address on, the abort bit of the eof
beat, whether it was closed by a new sof, the `tm_` times of its first and last beat, and what the port's readers absorb
meanwhile. -/
structure FrameIn where
  bytes : List Byte
  abort : Bool
  cutBySof : Bool
  first : DWord
  last : DWord
  moves : List Move := []
  deriving DecidableEq, Repr

/-- A digest context by its owner (Table 7.7): the suspended link holding a tag, or a function's session. -/
inductive CtxRef where
  | link (tag : BitVec 14)
  | session (fn : BitVec 10) (ctx : BitVec 6)
  deriving DecidableEq, Repr

/-- What the vault engine's reads of host memory returned (R254): the record, the nodes of the path from L0 to L5,
and the blob, each as bytes. `failed` is true when a read failed after its retries. -/
structure VaultRead where
  record : List Byte
  nodes : List (List Byte)
  blob : List Byte
  image : List Byte
  failed : Bool
  deriving DecidableEq, Repr

/-- The mailbox paths of Table 12.2, by sender and receiver. -/
inductive MailBox where
  | fnToBurin (fn : BitVec 10)
  | burinToFn (fn : BitVec 10)
  | senToBurin
  | burinToSen
  | vsToBurin
  | burinToVs
  deriving DecidableEq, Repr

/-- The identity inputs (Table 16.13, R415). -/
structure Identity where
  lot : BitVec 32
  wafer : BitVec 8
  diex : BitVec 8
  diey : BitVec 8
  inst : BitVec 4
  lcs : BitVec 3
  mfr : BitVec 11
  fiMode : Bool
  valid : Bool
  deriving DecidableEq, Repr

/-- TS_STATUS.CELL (R369). -/
inductive Cell where
  | good
  | low
  | critical
  deriving DecidableEq, Repr

/-- The credit channels of Table 16.3. -/
inductive Channel where
  | fpaReq | fpbReq | fpaWd | fpbWd | fpaRd | fpbRd | fpaRsp | fpbRsp
  | rpReq | rpRsp | fiMsg | fiMacc | fiEvt
  deriving DecidableEq, Repr

/-- Burin operands that exist in a short and a long form (Tables 11.4, 11.6): rd = rd op rb, or rd = ra op rb. -/
inductive Alu3 where
  | short (rd rb : BitVec 5)
  | long (rd ra rb : BitVec 5)
  deriving DecidableEq, Repr

/-- ADDI: short rd += imm5, long rd = ra + simm14 (Tables 11.5, 11.7). -/
inductive AddImm where
  | short (rd : BitVec 5) (imm : BitVec 5)
  | long (rd ra : BitVec 5) (imm : BitVec 14)
  deriving DecidableEq, Repr

/-- SHLI, SHRI, SARI: short rd shifted by imm5, long ra shifted by imm14[4:0] (Tables 11.5, 11.7). -/
inductive ShImm where
  | short (rd : BitVec 5) (imm : BitVec 5)
  | long (rd ra : BitVec 5) (imm : BitVec 5)
  deriving DecidableEq, Repr

/-- MUL, MULU: short rd × rb, long ra × rb (Tables 11.5, 11.8). -/
inductive Mul2 where
  | short (rd rb : BitVec 5)
  | long (ra rb : BitVec 5)
  deriving DecidableEq, Repr

/-- J: short imm10, long simm24 (Tables 11.5, 11.7). -/
inductive JImm where
  | short (imm : BitVec 10)
  | long (imm : BitVec 24)
  deriving DecidableEq, Repr

/-- The commands. -/
inductive Instr where
  /-- REGISTER_WRITE (R10): A register-port write to a register or offset that has no row of its own sets its fields by their access codes, or is ignored under R8 and R9. -/
  | registerWrite (addr : BitVec 22) (q : PortReq)
  /-- FT_LOAD (R29): FT_CMD LOAD copies the selected function's table entry into the staging registers. -/
  | ftLoad (q : PortReq)
  /-- FT_COMMIT (R31): FT_CMD COMMIT checks the staged entry in order and writes it into the function table, leaving the function READY or ENABLED. -/
  | ftCommit (q : PortReq)
  /-- FT_ENABLE (R35): FT_CMD ENABLE moves a READY virtual function to ENABLED and restarts its poll timers. -/
  | ftEnable (q : PortReq)
  /-- FT_RESET_DRAIN (R41): FT_CMD RESET_DRAIN puts the function into RESETTING in drain mode at its reset point. -/
  | ftResetDrain (q : PortReq)
  /-- FT_RESET_SQUASH (R42): FT_CMD RESET_SQUASH puts the function into RESETTING and abandons every operation at the reset point. -/
  | ftResetSquash (q : PortReq)
  /-- FT_UNBIND (R35): FT_CMD UNBIND returns a READY function to UNBOUND and releases its ranges. -/
  | ftUnbind (q : PortReq)
  /-- FT_CMD_UNDEFINED (R30): An FT_CMD write of an undefined OP clears ERR, sets ERR to 4 and carries out nothing. -/
  | ftCmdUndefined (q : PortReq)
  /-- FT_NUMVF_WRITE (R34): A write to FT_NUMVF sets NUM_VF unless it is below a function not in UNBOUND, and the value is presented on fi_numvf_o. -/
  | ftNumvfWrite (q : PortReq)
  /-- FLR_REQ (R36): A write of 1 to FN_CTRL.FLR_REQ requests a reset of the function in its FLR_MODE. -/
  | flrReq (fn : BitVec 10) (q : PortReq)
  /-- FLR_REQUEST (R411): An FLR_REQUEST event on fi_evt starts a function reset, or is answered at once by RESET_COMPLETE for an idle function. -/
  | flrRequest (fn : BitVec 10) (parityOk : Bool)
  /-- DRAIN_TIMEOUT (R41): DRAIN_US elapsing during a drain abandons the remaining operations as in squash mode and writes SQUASHED records for their links. -/
  | drainTimeout (fn : BitVec 10)
  /-- RESET_COMPLETE (R43): When no tag is held and every write has its response, the function enters READY, RESET_DONE is written and the reset-complete message is sent. -/
  | resetComplete (fn : BitVec 10)
  /-- PSTATE_NOTICE (R48): A write to FN_PSTATE.STATE clears ACCEPTED and flushes the function's unmasked pending vectors. -/
  | pstateNotice (fn : BitVec 10) (q : PortReq)
  /-- EQ_CTRL_WRITE (R49): A write to FN_EQ_CTRL enables or disables the event queue, resetting indices and phase on enable. -/
  | eqCtrlWrite (fn : BitVec 10) (q : PortReq)
  /-- EQ_BASE_WRITE (R49): A write to FN_EQ_BASE changes the queue address only while EN is 0. -/
  | eqBaseWrite (fn : BitVec 10) (q : PortReq)
  /-- EQ_CONS_WRITE (R51): A write to FN_EQ_CONS that returns space to a full queue writes one EQ_OVERFLOW record. -/
  | eqConsWrite (fn : BitVec 10) (q : PortReq)
  /-- EQ_LOST_READ (R407): A read of FN_EQ_LOST returns the lost count and clears it. -/
  | eqLostRead (fn : BitVec 10) (q : PortReq)
  /-- KICK (R62): FN_DOORBELL KICK starts a header read of the ring, or one further read after the read in progress. -/
  | kick (fn : BitVec 10) (q : PortReq)
  /-- DOORBELL_ENABLE (R56): FN_DOORBELL ENABLE makes the ring enabling and issues the read of its header. -/
  | doorbellEnable (fn : BitVec 10) (q : PortReq)
  /-- DOORBELL_DISABLE (R86): FN_DOORBELL DISABLE puts the ring into STOPPING, stops fetching and discards unissued entries. -/
  | doorbellDisable (fn : BitVec 10) (q : PortReq)
  /-- RT_ENABLE (R59): RT_CMD ENABLE enables the selected pool ring with the header at RT_HDR, as the doorbell ENABLE does. -/
  | rtEnable (q : PortReq)
  /-- RT_DISABLE (R59): RT_CMD DISABLE disables the selected pool ring, as the doorbell DISABLE does. -/
  | rtDisable (q : PortReq)
  /-- RT_CMD_UNDEFINED (R59): An RT_CMD write with an undefined OP sets ERR to 3 and does nothing. -/
  | rtCmdUndefined (q : PortReq)
  /-- ENABLE_CHECK (R56): The return of the enable header read checks the header and accepts the ring as ENABLED or refuses it with CONFIG or BUS_ERROR. -/
  | enableCheck (ring : BitVec 14) (data : List Byte)
  /-- HEADER_READ_RETURN (R60): The return of a header read checks the indices and issues the entry reads it makes visible. -/
  | headerReadReturn (ring : BitVec 14) (data : List Byte)
  /-- POLL_TIMER (R62): POLL_US after the previous header read, the block issues a header read of the ring. -/
  | pollTimer (ring : BitVec 14)
  /-- ENTRY_READ_RETURN (R74): Returned entries are checked for form, and a malformed packet stops, halts or halts the block as R75 states. -/
  | entryReadReturn (ring : BitVec 14) (data : List Byte)
  /-- LINK_TABLE_READ_RETURN (R71): The return of an INDIRECT packet's link table lets the whole packet be checked for form. -/
  | linkTableReadReturn (ring : BitVec 14) (data : List Byte)
  /-- FETCH_ERROR (R85): A failed header, entry or link-table read stops the ring fetching until its issued operations end. -/
  | fetchError (ring : BitVec 14) (what : FetchKind)
  /-- PACKET_ISSUE (R64): A well-formed packet with tags, quota and completion room is issued atomically, admitted or refused for class D, and SQ_CONS published. -/
  | packetIssue (ring : BitVec 14)
  /-- LINK_END (R91): When a link ends, the next link is queued or the chain fails, and at the packet's end its completion records are written and tags released. -/
  | linkEnd (tag : BitVec 14)
  /-- CQ_PROD_UPDATE (R81): After the write responses of the records it covers, the block writes CQ_PROD to the ring header. -/
  | cqProdUpdate (ring : BitVec 14) (upTo : Word)
  /-- COMPLETION_WRITE_FAIL (R82): A failed completion record write stops further records on the ring, which enters STOPPED once its operations end. -/
  | completionWriteFail (ring : BitVec 14)
  /-- RING_STOP_COMPLETE (R86): When a STOPPING ring has no issued operation left, SQ_CONS, CQ_PROD and STATE are written and RING_STOPPED is recorded. -/
  | ringStopComplete (ring : BitVec 14)
  /-- NOP (R73): The NOP opcode completes with OK after every earlier packet of the ring, using no engine. -/
  | nop (tag : BitVec 14)
  /-- UNSUPPORTED_OPCODE (R72): An undefined opcode in an implemented range, or an unregistered etched opcode, completes with UNSUPPORTED. -/
  | unsupportedOpcode (tag : BitVec 14)
  /-- AGE_TIMER (R99): A class P or B link that has waited AGE_US without starting is raised one priority step. -/
  | ageTimer (tag : BitVec 14)
  /-- SUSPEND_POINT (R100): At its next segment, block boundary, impression or mark, a borrowed or lower-class link is suspended and the waiting class D link takes the unit. -/
  | suspendPoint (tag : BitVec 14) (consumed : BitVec 33) (d : LinkData)
  /-- SC_SPILL_WRITE (R96): A write to SC_SPILL changes the chain spill area only under the rules of R96. -/
  | scSpillWrite (q : PortReq)
  /-- ADMIT_READ (R407): A read of SC_ADMIT returns and clears the admitted and refused counts. -/
  | admitRead (q : PortReq)
  /-- PROFILE_REQUEST (R109): A write of GC_PROFILE.REQUEST differing from CURRENT starts a profile change, or is kept while one is pending. -/
  | profileRequest (q : PortReq)
  /-- PROFILE_CHANGE_DONE (R109): A profile change completes, updating CURRENT, clearing PENDING and writing a PROFILE record. -/
  | profileChangeDone
  /-- OVERRIDE_WRITE (R110): A write to GC_OVERRIDE changes the reserve, class caps and demotion for packets issued after it. -/
  | overrideWrite (q : PortReq)
  /-- POWER_CAP_WRITE (R108): A write to GC_POWER_CAP sets LEAN's power cap, or is ignored outside 4–16. -/
  | powerCapWrite (q : PortReq)
  /-- IDLE_GATE (R384): In LEAN a working lane outside the reserve idle for 100 µs is gated off. -/
  | idleGate (unit : BitVec 12)
  /-- SPARE_PROOF_WAKE (R384): A gated spare is woken every 100 ms to run 10 proofing cycles. -/
  | spareProofWake (unit : BitVec 12)
  /-- VEC_CFG_WRITE (R111): A write to FN_VEC_CFG changes moderation and may make the vector DUE or send its message on unmask. -/
  | vecCfgWrite (fn : BitVec 10) (q : PortReq)
  /-- VEC_TIMER (R111): TIMER_US after the first pending signal the vector becomes DUE. -/
  | vecTimer (vec : BitVec 14)
  /-- INTERRUPT_OFFER (R113): A DUE unmasked vector's interrupt message is handed to the function port once its records' writes are issued or answered. -/
  | interruptOffer (vec : BitVec 14)
  /-- OFFER_RETRY (R410): A refused interrupt or RESET_COMPLETE message is offered again 1 µs later, setting BLOCKED after 10 µs. -/
  | offerRetry (what : Offer)
  /-- MESSAGE_ACCEPT (R410): An fi_macc answer accepts or refuses the oldest outstanding function-port message. -/
  | messageAccept (accept parityOk : Bool)
  /-- FRAME_ARRIVAL (R116): A frame's beats on a stream port are numbered and written into the ingress FIFO, or cut or dropped into a gap marker. -/
  | frameArrival (port : Fin 4) (f : FrameIn)
  /-- FRAME_PARSE (R126): The parser reaches a frame, recognises its kind, reads its authentication extension and looks up its key. -/
  | frameParse (port : Fin 4)
  /-- PARSER_GAP_MARKER (R125): The parser reaching a closed gap marker emits NOT_CHECKED_OVERLOAD range words and releases the stages. -/
  | parserGapMarker (port : Fin 4)
  /-- TAG_COMPLETE (R137): A tag unit finishes a frame, the comparator and freshness check decide the verdict, and the verdict word is emitted. -/
  | tagComplete (port : Fin 4) (seq : Word)
  /-- PORT_ENABLE (R120): Setting ST_PCTRL.EN requests the port domain and brings STATE to RUN, or leaves EN 0 while held off. -/
  | portEnable (port : Fin 4) (q : PortReq)
  /-- PORT_DISABLE (R120): Clearing ST_PCTRL.EN puts the port into DRAINING and stops new frames. -/
  | portDisable (port : Fin 4) (q : PortReq)
  /-- PORT_DRAINED (R120): When every numbered frame of a DRAINING port has its verdict, STATE becomes OFF. -/
  | portDrained (port : Fin 4)
  /-- PLOAD_READ (R407): A read of ST_PLOAD returns occupancy and clears its high-water marks. -/
  | ploadRead (port : Fin 4) (q : PortReq)
  /-- KM_LOAD (R132): ST_KM_CMD LOAD copies the selected key map entry into ST_KM_ENTRY. -/
  | kmLoad (q : PortReq)
  /-- KM_COMMIT (R132): ST_KM_CMD COMMIT checks and writes ST_KM_ENTRY into the selected key map entry. -/
  | kmCommit (q : PortReq)
  /-- KM_INVALIDATE (R133): ST_KM_CMD INVALIDATE makes the selected key map entry invalid. -/
  | kmInvalidate (q : PortReq)
  /-- ACTIVATE (R132): ST_KM_CMD ACTIVATE sets PENDING to make the entry active at ACT_TIME. -/
  | activate (q : PortReq)
  /-- KM_CMD_UNDEFINED (R132): An ST_KM_CMD write with an undefined OP sets ERR to 5. -/
  | kmCmdUndefined (q : PortReq)
  /-- ACT_TIME_REACHED (R132): At the first tm_ value at or after ACT_TIME the pending entry becomes active and the others of its APPID inactive. -/
  | actTimeReached (entry : BitVec 12)
  /-- KM_BUSY_CLEAR (R133): After a key map change, BUSY clears once every frame that used the old contents has its verdict, and the old slot is released. -/
  | kmBusyClear
  /-- SS_LOAD (R136): ST_SS_CMD LOAD captures the live state of the selected stream table entry. -/
  | ssLoad (q : PortReq)
  /-- SS_COMMIT (R134): ST_SS_CMD COMMIT writes the staged stream table entry, refusing duplicates. -/
  | ssCommit (q : PortReq)
  /-- SS_INVALIDATE (R134): ST_SS_CMD INVALIDATE makes the selected stream table entry invalid. -/
  | ssInvalidate (q : PortReq)
  /-- SS_CMD_UNDEFINED (R134): An ST_SS_CMD write of OP 0 sets ERR to 5. -/
  | ssCmdUndefined (q : PortReq)
  /-- CBC_ENCRYPT (R147): Opcode 0x110 encrypts its input in AES-CBC on a cipher lane. -/
  | cbcEncrypt (tag : BitVec 14) (d : LinkData)
  /-- CBC_DECRYPT (R147): Opcode 0x111 decrypts its input in AES-CBC on a cipher lane. -/
  | cbcDecrypt (tag : BitVec 14) (d : LinkData)
  /-- CTR_ENCRYPT (R150): Opcode 0x118 encrypts in AES-CTR without counter carry or repeat. -/
  | ctrEncrypt (tag : BitVec 14) (d : LinkData)
  /-- CTR_DECRYPT (R150): Opcode 0x119 decrypts in AES-CTR. -/
  | ctrDecrypt (tag : BitVec 14) (d : LinkData)
  /-- GCM_ENCRYPT (R153): Opcode 0x120 seals AAD and plaintext in AES-GCM with an allocated or supplied IV. -/
  | gcmEncrypt (tag : BitVec 14) (d : LinkData)
  /-- GCM_DECRYPT (R159): Opcode 0x121 checks the GCM tag before releasing plaintext, in one or two passes. -/
  | gcmDecrypt (tag : BitVec 14) (d : LinkData)
  /-- GMAC_GENERATE (R153): Opcode 0x122 generates a GMAC tag with an allocated or supplied IV. -/
  | gmacGenerate (tag : BitVec 14) (d : LinkData)
  /-- GMAC_VERIFY (R158): Opcode 0x123 verifies a GMAC tag and reports AUTH_FAIL on mismatch. -/
  | gmacVerify (tag : BitVec 14) (d : LinkData)
  /-- XTS_ENCRYPT (R151): Opcode 0x128 encrypts data units in AES-XTS. -/
  | xtsEncrypt (tag : BitVec 14) (d : LinkData)
  /-- XTS_DECRYPT (R151): Opcode 0x129 decrypts data units in AES-XTS. -/
  | xtsDecrypt (tag : BitVec 14) (d : LinkData)
  /-- CCM_ENCRYPT (R147): Opcode 0x130 seals in AES-CCM. -/
  | ccmEncrypt (tag : BitVec 14) (d : LinkData)
  /-- CCM_DECRYPT (R158): Opcode 0x131 checks the CCM tag before releasing plaintext. -/
  | ccmDecrypt (tag : BitVec 14) (d : LinkData)
  /-- KW_WRAP (R147): Opcode 0x138 wraps data with AES-KW. -/
  | kwWrap (tag : BitVec 14) (d : LinkData)
  /-- KW_UNWRAP (R158): Opcode 0x139 unwraps AES-KW data, releasing it only on a matching check value. -/
  | kwUnwrap (tag : BitVec 14) (d : LinkData)
  /-- KWP_WRAP (R147): Opcode 0x13A wraps data with AES-KWP. -/
  | kwpWrap (tag : BitVec 14) (d : LinkData)
  /-- KWP_UNWRAP (R149): Opcode 0x13B unwraps AES-KWP data, holding it on-block until the check passes. -/
  | kwpUnwrap (tag : BitVec 14) (d : LinkData)
  /-- CCP_ENCRYPT (R153): Opcode 0x140 seals with ChaCha20-Poly1305. -/
  | ccpEncrypt (tag : BitVec 14) (d : LinkData)
  /-- CCP_DECRYPT (R158): Opcode 0x141 checks the Poly1305 tag before releasing plaintext. -/
  | ccpDecrypt (tag : BitVec 14) (d : LinkData)
  /-- SHA2 (R170): Opcodes 0x200–0x203 compute a SHA-224/256/384/512 digest. -/
  | sha2 (tag : BitVec 14) (d : LinkData)
  /-- SHA3 (R170): Opcodes 0x208–0x20B compute a SHA3 digest. -/
  | sha3 (tag : BitVec 14) (d : LinkData)
  /-- SHAKE (R170): Opcodes 0x20C and 0x20D produce AUX bytes of SHAKE output. -/
  | shake (tag : BitVec 14) (d : LinkData)
  /-- HMAC (R172): Opcode 0x210 computes an HMAC tag under the slot's key or pre-computed states. -/
  | hmac (tag : BitVec 14) (d : LinkData)
  /-- HKDF (R173): Opcode 0x218 derives output or a new slot with RFC 5869 HKDF. -/
  | hkdf (tag : BitVec 14) (d : LinkData)
  /-- HKDF_EXTRACT (R173): Opcode 0x219 extracts a PRK into a new slot. -/
  | hkdfExtract (tag : BitVec 14) (d : LinkData)
  /-- HKDF_EXPAND (R173): Opcode 0x21A expands a PRK slot into output or a new slot. -/
  | hkdfExpand (tag : BitVec 14) (d : LinkData)
  /-- KDF_CTR (R173): Opcode 0x220 runs the SP 800-108 counter-mode KDF. -/
  | kdfCtr (tag : BitVec 14) (d : LinkData)
  /-- SESS_START (R177): Opcode 0x2F0 opens a session context and absorbs its first part. -/
  | sessStart (tag : BitVec 14) (d : LinkData)
  /-- SESS_UPDATE (R177): Opcode 0x2F1 absorbs the next part into an open session. -/
  | sessUpdate (tag : BitVec 14) (d : LinkData)
  /-- SESS_FINISH (R177): Opcode 0x2F2 absorbs the last part, writes the result and closes the context. -/
  | sessFinish (tag : BitVec 14) (d : LinkData)
  /-- SESS_ABORT (R177): Opcode 0x2F3 closes a session context. -/
  | sessAbort (tag : BitVec 14) (d : LinkData)
  /-- SPILL_WRITE_DONE (R182): The write response of a context spill frees the resident entry. -/
  | spillWriteDone (ctx : CtxRef)
  /-- CONTEXT_RESTORE (R183): The return of a spilled context read is authenticated and checked, or ends the context with CONTEXT_LOST. -/
  | contextRestore (ctx : CtxRef) (data : List Byte)
  /-- DL_SPILL_WRITE (R184): A write to DL_SPILL changes the context spill area only under the rules of R184. -/
  | dlSpillWrite (q : PortReq)
  /-- RSA_OAEP_ENCRYPT (R198): Opcode 0x300 encrypts with RSA-OAEP. -/
  | rsaOaepEncrypt (tag : BitVec 14) (d : LinkData)
  /-- RSA_OAEP_DECRYPT (R201): Opcode 0x301 decrypts RSA-OAEP, failing decoding with AUTH_FAIL in constant time. -/
  | rsaOaepDecrypt (tag : BitVec 14) (d : LinkData)
  /-- RSA_PSS_SIGN (R198): Opcode 0x302 signs a hash with RSA-PSS. -/
  | rsaPssSign (tag : BitVec 14) (d : LinkData)
  /-- RSA_PSS_VERIFY (R199): Opcode 0x303 verifies an RSA-PSS signature. -/
  | rsaPssVerify (tag : BitVec 14) (d : LinkData)
  /-- RSA_PKCS1_SIGN (R198): Opcode 0x304 signs a hash with PKCS #1 v1.5. -/
  | rsaPkcs1Sign (tag : BitVec 14) (d : LinkData)
  /-- RSA_PKCS1_VERIFY (R199): Opcode 0x305 verifies a PKCS #1 v1.5 signature. -/
  | rsaPkcs1Verify (tag : BitVec 14) (d : LinkData)
  /-- RSA_PUBLIC_RAW (R198): Opcode 0x308 computes m^e mod n. -/
  | rsaPublicRaw (tag : BitVec 14) (d : LinkData)
  /-- ECDSA_KEYGEN (R202): Opcode 0x310 generates an ECDSA key pair into a new slot. -/
  | ecdsaKeygen (tag : BitVec 14) (d : LinkData)
  /-- ECDSA_SIGN (R204): Opcode 0x311 signs a hash with ECDSA and checks the signature before release. -/
  | ecdsaSign (tag : BitVec 14) (d : LinkData)
  /-- ECDSA_VERIFY (R199): Opcode 0x312 verifies an ECDSA signature. -/
  | ecdsaVerify (tag : BitVec 14) (d : LinkData)
  /-- EDDSA_KEYGEN (R202): Opcode 0x318 generates an EdDSA key into a new slot. -/
  | eddsaKeygen (tag : BitVec 14) (d : LinkData)
  /-- EDDSA_SIGN (R204): Opcode 0x319 signs a message with EdDSA. -/
  | eddsaSign (tag : BitVec 14) (d : LinkData)
  /-- EDDSA_VERIFY (R199): Opcode 0x31A verifies an EdDSA signature with the cofactored equation. -/
  | eddsaVerify (tag : BitVec 14) (d : LinkData)
  /-- EDDSA_VERIFY_BATCH (R211): Opcode 0x31B verifies a batch of EdDSA items by randomised checks and bisection. -/
  | eddsaVerifyBatch (tag : BitVec 14) (d : LinkData)
  /-- XDH_KEYGEN (R202): Opcode 0x320 generates an X25519 or X448 key into a new slot. -/
  | xdhKeygen (tag : BitVec 14) (d : LinkData)
  /-- XDH_AGREE (R204): Opcode 0x321 computes a shared secret twice and compares before release. -/
  | xdhAgree (tag : BitVec 14) (d : LinkData)
  /-- PK_PUBLIC (R198): Opcode 0x3F0 returns the public key of a classical slot. -/
  | pkPublic (tag : BitVec 14) (d : LinkData)
  /-- MLKEM_KEYGEN (R202): Opcode 0x400 generates an ML-KEM key into a new slot. -/
  | mlkemKeygen (tag : BitVec 14) (d : LinkData)
  /-- MLKEM_ENCAPS (R202): Opcode 0x401 encapsulates a shared secret to output or a slot. -/
  | mlkemEncaps (tag : BitVec 14) (d : LinkData)
  /-- MLKEM_DECAPS (R201): Opcode 0x402 decapsulates, yielding the implicit-rejection key on a bad ciphertext. -/
  | mlkemDecaps (tag : BitVec 14) (d : LinkData)
  /-- MLDSA_KEYGEN (R202): Opcode 0x410 generates an ML-DSA key into a new slot. -/
  | mldsaKeygen (tag : BitVec 14) (d : LinkData)
  /-- MLDSA_SIGN (R204): Opcode 0x411 signs with ML-DSA and verifies before release. -/
  | mldsaSign (tag : BitVec 14) (d : LinkData)
  /-- MLDSA_VERIFY (R199): Opcode 0x412 verifies an ML-DSA signature. -/
  | mldsaVerify (tag : BitVec 14) (d : LinkData)
  /-- MLDSA_VERIFY_BATCH (R212): Opcode 0x413 verifies ML-DSA items one by one in item order. -/
  | mldsaVerifyBatch (tag : BitVec 14) (d : LinkData)
  /-- HSS_VERIFY (R198): Opcode 0x420 verifies an HSS signature. -/
  | hssVerify (tag : BitVec 14) (d : LinkData)
  /-- SLHDSA_VERIFY (R198): Opcode 0x428 verifies an SLH-DSA signature. -/
  | slhdsaVerify (tag : BitVec 14) (d : LinkData)
  /-- PK_PUBLIC_PQ (R198): Opcode 0x4F0 returns the public key of a post-quantum slot. -/
  | pkPublicPq (tag : BitVec 14) (d : LinkData)
  /-- RANDOM (R200): Opcode 0x700 returns AUX bytes from the DRBG. -/
  | random (tag : BitVec 14) (d : LinkData)
  /-- IMPRESSION_TIMER (R207): After each 20 µs of execution a core writes an impression at its next safe point. -/
  | impressionTimer (unit : BitVec 12) (d : LinkData)
  /-- RESEED_TIMER (R217): INTERVAL_MS after the last reseed, the DRBG reseeds. -/
  | reseedTimer
  /-- RESEED (R217): A write of 1 to PK_RNG_CTRL.RESEED requests a reseed. -/
  | reseed (q : PortReq)
  /-- HEALTH_TEST_FAIL (R218): A failed health test zeroises the DRBG, sets STATE ERROR and restarts D9. -/
  | healthTestFail (adaptive : Bool)
  /-- RNG_RESTART (R218): A write of 1 to PK_RNG_CTRL.RESTART leaves ERROR and restarts the source. -/
  | rngRestart (q : PortReq)
  /-- RAW_MODE_WRITE (R220): A write to RAW_MODE enters or leaves raw sample access in MANUFACTURE or DEVELOPMENT only. -/
  | rawModeWrite (q : PortReq)
  /-- PK_RNG_CTRL_WRITE (R217): A write of INTERVAL_MS or REQ_LOG2 sets them, or is ignored when out of range. -/
  | pkRngCtrlWrite (q : PortReq)
  /-- RNG_RAW_READ (R220): A read of PK_RNG_RAW returns the next 64 raw samples while STATE is RAW. -/
  | rngRawRead (q : PortReq)
  /-- STIPPLE_PACK (R232): Opcode 0x500 packs rows into frames, an end record and bucket padding. -/
  | stipplePack (tag : BitVec 14) (d : LinkData)
  /-- STIPPLE_UNPACK (R236): Opcode 0x501 decodes frames into rows, ending at the first failure. -/
  | stippleUnpack (tag : BitVec 14) (d : LinkData)
  /-- VAULT_CREATE (R263): Opcode 0x600 fills a slot with a fresh DRBG key. -/
  | vaultCreate (tag : BitVec 14) (d : LinkData)
  /-- VAULT_IMPORT (R265): Opcode 0x601 unwraps a transfer and fills a slot from it. -/
  | vaultImport (tag : BitVec 14) (d : LinkData)
  /-- VAULT_EXPORT (R266): Opcode 0x602 wraps a slot into a KWP transfer. -/
  | vaultExport (tag : BitVec 14) (d : LinkData)
  /-- VAULT_IMPORT_PUBLIC (R263): Opcode 0x603 validates a public key and fills a slot with it. -/
  | vaultImportPublic (tag : BitVec 14) (d : LinkData)
  /-- VAULT_DERIVE (R263): Opcode 0x608 copies a parent's key area into a narrowed new slot. -/
  | vaultDerive (tag : BitVec 14) (d : LinkData)
  /-- VAULT_SET_ATTR (R263): Opcode 0x610 replaces a slot's attributes with a narrowed template. -/
  | vaultSetAttr (tag : BitVec 14) (d : LinkData)
  /-- VAULT_QUERY (R263): Opcode 0x611 returns a slot's attributes and live counters. -/
  | vaultQuery (tag : BitVec 14) (d : LinkData)
  /-- VAULT_RETIRE (R267): Opcode 0x618 writes a FREE record for the slot. -/
  | vaultRetire (tag : BitVec 14) (d : LinkData)
  /-- VAULT_AUTH_REGISTER (R263): Opcode 0x680 fills a registered authority slot. -/
  | vaultAuthRegister (tag : BitVec 14) (d : LinkData)
  /-- VAULT_AUTH_CLEAR (R263): Opcode 0x681 frees an unlocked registered slot. -/
  | vaultAuthClear (tag : BitVec 14) (d : LinkData)
  /-- VAULT_REKEY_SWEEP (R269): Opcode 0x688 starts a rekey sweep under a new epoch. -/
  | vaultRekeySweep (tag : BitVec 14) (d : LinkData)
  /-- VAULT_ESCROW_EXPORT (R266): Opcode 0x690 exports a slot as an escrow transfer. -/
  | vaultEscrowExport (tag : BitVec 14) (d : LinkData)
  /-- VAULT_ESCROW_IMPORT (R266): Opcode 0x691 restores a slot whole from an escrow transfer. -/
  | vaultEscrowImport (tag : BitVec 14) (d : LinkData)
  /-- SWEEP_STEP (R270): At its pace the sweep rewrites the next record or node, stopping or freeing slots on an authentication failure. -/
  | sweepStep (read : VaultRead)
  /-- MISS_READ_RETURN (R254): On return of a cache-miss read, nodes and record are verified from the top down. -/
  | missReadReturn (slot : BitVec 19) (read : VaultRead)
  /-- BATCH_CLOSE (R255): A batch closes at 8 records or 100 ns, writes its descriptor to D0 and issues its record and node writes. -/
  | batchClose
  /-- BATCH_COMMIT (R255): When every write of a batch has responded, the root counters are incremented and the descriptor cleared. -/
  | batchCommit
  /-- BATCH_FAIL (R256): A failed batch write discards the batch, ends its operations with BUS_ERROR and runs recovery. -/
  | batchFail
  /-- PV_REGION_WRITE (R245): A write to PV_REGION sets or clears the vault region, opening or closing the vault. -/
  | pvRegionWrite (q : PortReq)
  /-- PV_BLOB_WRITE (R245): A write to PV_BLOB sets or clears the blob area. -/
  | pvBlobWrite (q : PortReq)
  /-- PLATE_MARK (R373): Opcode 0x0A0 forms the claims map and returns it signed in a COSE_Sign structure. -/
  | plateMark (tag : BitVec 14) (d : LinkData)
  /-- PLATE_KEYS (R372): Opcode 0x0A1 returns the public keys of authority slots 5 and 6. -/
  | plateKeys (tag : BitVec 14) (d : LinkData)
  /-- ETCH_LOAD (R299): Opcode 0x0E0 verifies a signed bundle and replaces the etch state atomically. -/
  | etchLoad (tag : BitVec 14) (d : LinkData)
  /-- ETCH_CLEAR (R299): Opcode 0x0E1 empties the etch state. -/
  | etchClear (tag : BitVec 14) (d : LinkData)
  /-- ETCHED_COMMAND (R295): An etched opcode 0xE00 + n runs its dispatched routine on Burin and writes its output on OK. -/
  | etchedCommand (tag : BitVec 14) (d : LinkData)
  /-- ROUTINE_BUDGET (R296): A routine exceeding 50 µs traps with BUDGET and its link completes with OVERLOAD. -/
  | routineBudget (tag : BitVec 14)
  /-- ETCH_OPEN (R298): A write of 1 to BU_ETCH_CTRL.OPEN asks for direct etch writing, refused outside DEVELOPMENT or when locked. -/
  | etchOpen (q : PortReq)
  /-- ETCH_OPEN_DONE (R298): When no etched link runs, OPEN takes effect and BUSY clears. -/
  | etchOpenDone
  /-- ETCH_CLOSE (R298): Clearing OPEN validates the etch state, empties it if invalid and recomputes the measurement. -/
  | etchClose (q : PortReq)
  /-- ETCH_CTRL_CLEAR (R299): A write of 1 to BU_ETCH_CTRL.CLEAR empties the etch state as ETCH_CLEAR does. -/
  | etchCtrlClear (q : PortReq)
  /-- ETCH_LOCK (R297): A write of 1 to BU_ETCH_CTRL.LOCK closes every way of loading the etch state until block reset. -/
  | etchLock (q : PortReq)
  /-- ETCH_DATA_WRITE (R298): A write to BU_ETCH_DATA writes the unit at ADDR while OPEN is 1, advancing ADDR with AUTOINC. -/
  | etchDataWrite (q : PortReq)
  /-- ETCH_DATA_READ (R298): A read of BU_ETCH_DATA returns the unit at ADDR and advances ADDR when AUTOINC is set. -/
  | etchDataRead (q : PortReq)
  /-- BOOT_PTR_WRITE (R288): A write of BU_BOOT_PTR with VALID 1 lets the boot ROM read the firmware image. -/
  | bootPtrWrite (q : PortReq)
  /-- BOOT_VERIFY (R288): When the image has been read, the boot ROM checks and verifies it and starts Burin or enters BOOT_FAIL. -/
  | bootVerify (image : List Byte) (busError : Bool)
  /-- MOV (R286): rd = rb. -/
  | mov (rd rb : BitVec 5)
  /-- ADD (R286): rd = sum of the operands. -/
  | add (a : Alu3)
  /-- SUB (R286): rd = difference of the operands. -/
  | sub (a : Alu3)
  /-- AND (R286): rd = bitwise AND. -/
  | andOp (a : Alu3)
  /-- OR (R286): rd = bitwise OR. -/
  | orOp (a : Alu3)
  /-- XOR (R286): rd = bitwise XOR. -/
  | xorOp (a : Alu3)
  /-- ANDN (R286): rd = ra AND NOT rb. -/
  | andn (rd ra rb : BitVec 5)
  /-- SHL (R286): rd = shift left by a register. -/
  | shl (a : Alu3)
  /-- SHR (R286): rd = logical shift right by a register. -/
  | shr (a : Alu3)
  /-- SAR (R286): rd = arithmetic shift right by a register. -/
  | sar (a : Alu3)
  /-- ROR (R286): rd = ra rotated right by rb. -/
  | ror (rd ra rb : BitVec 5)
  /-- SLT (R286): rd = 1 when signed less than. -/
  | slt (a : Alu3)
  /-- SLTU (R286): rd = 1 when unsigned less than. -/
  | sltu (a : Alu3)
  /-- MIN (R286): rd = signed minimum. -/
  | minOp (rd ra rb : BitVec 5)
  /-- MAX (R286): rd = signed maximum. -/
  | maxOp (rd ra rb : BitVec 5)
  /-- MINU (R286): rd = unsigned minimum. -/
  | minu (rd ra rb : BitVec 5)
  /-- MAXU (R286): rd = unsigned maximum. -/
  | maxu (rd ra rb : BitVec 5)
  /-- CLZ (R286): rd = leading zeros of ra. -/
  | clz (rd ra : BitVec 5)
  /-- POPC (R286): rd = population count of ra. -/
  | popc (rd ra : BitVec 5)
  /-- BSWAP (R286): rd = ra with bytes reversed. -/
  | bswap (rd ra : BitVec 5)
  /-- NEG (R286): rd = −rb. -/
  | neg (rd rb : BitVec 5)
  /-- ADDI (R286): rd = register plus sign-extended immediate. -/
  | addi (a : AddImm)
  /-- ANDI (R286): rd = ra AND zero-extended immediate. -/
  | andi (rd ra : BitVec 5) (imm : BitVec 14)
  /-- ORI (R286): rd = ra OR zero-extended immediate. -/
  | ori (rd ra : BitVec 5) (imm : BitVec 14)
  /-- XORI (R286): rd = ra XOR zero-extended immediate. -/
  | xori (rd ra : BitVec 5) (imm : BitVec 14)
  /-- LI (R286): rd = sign-extended 5-bit immediate. -/
  | li (rd : BitVec 5) (imm : BitVec 5)
  /-- LUI (R286): rd = imm18 shifted left 14. -/
  | lui (rd : BitVec 5) (imm : BitVec 18)
  /-- SHLI (R286): rd = shift left by an immediate. -/
  | shli (a : ShImm)
  /-- SHRI (R286): rd = logical shift right by an immediate. -/
  | shri (a : ShImm)
  /-- SARI (R286): rd = arithmetic shift right by an immediate. -/
  | sari (a : ShImm)
  /-- SLTI (R286): rd = 1 when ra is less than the signed immediate. -/
  | slti (rd ra : BitVec 5) (imm : BitVec 14)
  /-- LWS (R284): Loads a word from the data stack at DSP plus offset, with load delay. -/
  | lws (rd : BitVec 5) (imm : BitVec 5)
  /-- SWS (R284): Stores a word to the data stack at DSP plus offset. -/
  | sws (rd : BitVec 5) (imm : BitVec 5)
  /-- LW (R281): Loads a word, writing rd after the delay slot. -/
  | lw (r base : BitVec 5) (imm : BitVec 14)
  /-- LH (R281): Loads a sign-extended halfword. -/
  | lh (r base : BitVec 5) (imm : BitVec 14)
  /-- LHU (R281): Loads a zero-extended halfword. -/
  | lhu (r base : BitVec 5) (imm : BitVec 14)
  /-- LB (R281): Loads a sign-extended byte. -/
  | lb (r base : BitVec 5) (imm : BitVec 14)
  /-- LBU (R281): Loads a zero-extended byte. -/
  | lbu (r base : BitVec 5) (imm : BitVec 14)
  /-- LOAD_WRITEBACK (R281): A load's value lands in its register after the delay-slot instruction, or when slow register data returns. -/
  | loadWriteback
  /-- SW (R276): Stores a word; register-window stores go to the outbound buffer. -/
  | sw (r base : BitVec 5) (imm : BitVec 14)
  /-- SH (R286): Stores a halfword. -/
  | sh (r base : BitVec 5) (imm : BitVec 14)
  /-- SB (R286): Stores a byte. -/
  | sb (r base : BitVec 5) (imm : BitVec 14)
  /-- BEQZ (R286): Branches when rd is zero. -/
  | beqz (rd : BitVec 5) (imm : BitVec 5)
  /-- BNEZ (R286): Branches when rd is not zero. -/
  | bnez (rd : BitVec 5) (imm : BitVec 5)
  /-- BEQ (R286): Branches when ra equals rb. -/
  | beq (ra rb : BitVec 5) (imm : BitVec 14)
  /-- BNE (R286): Branches when ra differs from rb. -/
  | bne (ra rb : BitVec 5) (imm : BitVec 14)
  /-- BLT (R286): Branches when ra is signed less than rb. -/
  | blt (ra rb : BitVec 5) (imm : BitVec 14)
  /-- BGE (R286): Branches when ra is signed at least rb. -/
  | bge (ra rb : BitVec 5) (imm : BitVec 14)
  /-- BLTU (R286): Branches when ra is unsigned less than rb. -/
  | bltu (ra rb : BitVec 5) (imm : BitVec 14)
  /-- BGEU (R286): Branches when ra is unsigned at least rb. -/
  | bgeu (ra rb : BitVec 5) (imm : BitVec 14)
  /-- J (R286): Jumps relative to the instruction. -/
  | jump (a : JImm)
  /-- CALL (R283): Pushes the return address and jumps relative. -/
  | call (imm : BitVec 24)
  /-- CALLR (R283): Pushes the return address and jumps to rb. -/
  | callr (rb : BitVec 5)
  /-- JR (R286): Jumps to rb. -/
  | jr (rb : BitVec 5)
  /-- RET (R283): Pops the return stack into PC. -/
  | ret
  /-- MUL (R282): Starts a signed multiply whose product lands in MHI:MLO after 3 cycles. -/
  | mul (a : Mul2)
  /-- MULU (R282): Starts an unsigned multiply whose product lands in MHI:MLO after 3 cycles. -/
  | mulu (a : Mul2)
  /-- PRODUCT_LANDS (R282): At the end of cycle t + 3 the product is written to MHI:MLO. -/
  | productLands
  /-- MFS (R279): Reads a special register into rd. -/
  | mfs (rd : BitVec 5) (idx : BitVec 5)
  /-- MTS (R279): Writes rd to a special register. -/
  | mts (rd : BitVec 5) (idx : BitVec 5)
  /-- ADJ (R284): Adds a scaled 10-bit immediate to DSP. -/
  | adj (imm : BitVec 10)
  /-- ADJL (R284): Adds a scaled 14-bit immediate to DSP. -/
  | adjl (imm : BitVec 14)
  /-- SYS_NOP (R286): Does nothing. -/
  | sysNop
  /-- WFE (R280): Takes a commit point and waits until EVT & EVT_MASK is non-zero. -/
  | wfe
  /-- WFE_WAKE (R280): An event in EVT & EVT_MASK ends WFE. -/
  | wfeWake
  /-- COMMIT (R275): Takes a commit point, saving state, releasing the outbound buffer and clearing the logs. -/
  | commit
  /-- COMMIT_TIMER (R275): 10 µs after the last commit point Burin takes a commit point at the next allowed boundary. -/
  | commitTimer
  /-- TRET (R285): Returns from a trap to EPC and clears INTRAP. -/
  | tret
  /-- BRK (R285): Traps with cause BRK. -/
  | brk
  /-- ETCH (R291): Executes the micro-words of etch table entry INDEX as one instruction. -/
  | etch (rd ra rb : BitVec 5) (index : BitVec 6)
  /-- LOCKSTEP_MISMATCH (R277): A lockstep mismatch rolls Burin back to its last commit point and re-executes. -/
  | lockstepMismatch
  /-- MAILBOX_GO (R303): A write of GO copies the send block into the receiver's buffer, or discards, refuses or ignores it. -/
  | mailboxGo (box : MailBox) (q : PortReq)
  /-- MAILBOX_RELEASE (R305): A write of 1 to MB_RX_CTRL.FULL releases the receive buffer. -/
  | mailboxRelease (box : MailBox) (q : PortReq)
  /-- MB_STAT_WRITE (R308): A write to FN_MB_STAT sets VEC_EN and VECTOR, leaving VEC_EN 0 for a vector out of range. -/
  | mbStatWrite (fn : BitVec 10) (q : PortReq)
  /-- PING (R310): Mailbox request 0x01 is answered with its words unchanged. -/
  | mbPing (fn : BitVec 10)
  /-- VERSION (R310): Mailbox request 0x02 is answered with ID_VERSION, firmware version and boot count. -/
  | mbVersion (fn : BitVec 10)
  /-- CAPACITY (R310): Mailbox request 0x03 is answered with the pool, profile and port status registers. -/
  | mbCapacity (fn : BitVec 10)
  /-- WINDOW (R310): Mailbox request 0x04 is answered with the requester's vault window. -/
  | mbWindow (fn : BitVec 10)
  /-- FUNCTION (R310): Mailbox request 0x05 is answered with the requester's function table entry. -/
  | mbFunction (fn : BitVec 10)
  /-- UNKNOWN_CODE (R310): A mailbox request with an unlisted CODE is answered with RESULT UNKNOWN_CODE. -/
  | mbUnknownCode (fn : BitVec 10)
  /-- DMA_START (R314): DM_CTRL START starts or resumes a channel, or halts it with ERR CONFIG. -/
  | dmaStart (ch : BitVec 5) (q : PortReq)
  /-- DMA_PAUSE (R317): DM_CTRL PAUSE stops issuing reads and drains the channel to PAUSED. -/
  | dmaPause (ch : BitVec 5) (q : PortReq)
  /-- DMA_ABORT (R318): DM_CTRL ABORT stops the channel and ends it in HALTED with ERR ABORTED. -/
  | dmaAbort (ch : BitVec 5) (q : PortReq)
  /-- DMA_BURST_DONE (R316): Write responses advance the channel registers over the completed prefix, ending in DONE, PAUSED or HALTED. -/
  | dmaBurstDone (ch : BitVec 5) (burst : Nat)
  /-- DMA_BURST_FAIL (R318): A failed burst is scheduled for retry or, with retries used up or denied, halts the channel. -/
  | dmaBurstFail (ch : BitVec 5) (burst : Nat) (denied : Bool)
  /-- DMA_RETRY_TIMER (R318): After 2^(n−1) µs the failed burst is issued again. -/
  | dmaRetryTimer (ch : BitVec 5) (burst : Nat)
  /-- DMA_CRC_WRITTEN (R316): The response to the stored CRC write puts the channel into DONE. -/
  | dmaCrcWritten (ch : BitVec 5)
  /-- CHECKER_REPORT (R320): A checker detects a fault, sends a fault message and, for a fencing kind at L3 or above, signals its unit's fence. -/
  | checkerReport (source : BitVec 12) (kind : Byte) (address : BitVec 44)
  /-- FAULT_CLASSIFY (R328): The collector accepts a fault message, classifies it, holds records and acts at its level. -/
  | faultClassify (source : BitVec 12)
  /-- COLLECTOR_CE (R329): A single-copy disagreement in the collector is voted away and reported as COLLECTOR_CE. -/
  | collectorCe (address : BitVec 44)
  /-- COLLECTOR_UE (R329): An uncorrectable collector error sets the lockdown latch directly. -/
  | collectorUe (address : BitVec 44)
  /-- FC_ACK (R331): A write to FC_ACK acknowledges one or all held records, clearing those whose condition has ended. -/
  | fcAck (q : PortReq)
  /-- FC_CTRL_WRITE (R333): A write to FC_CTRL sets event, capture and rejoin settings or is ignored for a reserved encoding. -/
  | fcCtrlWrite (q : PortReq)
  /-- SRC_CFG_WRITE (R328): A write to FC_SRC_CFG sets a source's count, window and level, or raises LOCK_VIOLATION when locked. -/
  | srcCfgWrite (q : PortReq)
  /-- CAPTURE_REARM (R333): A write of 1 to FC_FIRST_INFO.VALID clears the capture and rearms it. -/
  | captureRearm (q : PortReq)
  /-- INJECTION_GO (R334): A write of GO to FC_INJ arms inverted checks on the target, or sets DENIED. -/
  | injectionGo (q : PortReq)
  /-- RETURN (R342): FC_UNIT_CMD RETURN restarts an out-of-service unit and returns it after its known-answer test. -/
  | unitReturn (q : PortReq)
  /-- FC_UNIT_CMD_UNDEFINED (R342): An FC_UNIT_CMD write with another OP sets ERR. -/
  | fcUnitCmdUndefined (q : PortReq)
  /-- PROOFING_CYCLE (R338): A proofing cycle ends clean or failed, rejoining the unit after 1,000 clean cycles or retiring it. -/
  | proofingCycle (unit : BitVec 12) (clean : Bool)
  /-- PWR_ACK (R377): pwr_ack_i following a request advances the domain's switch, restart or wake. -/
  | pwrAck (dom : BitVec 6) (level : Bool)
  /-- DOMAIN_RESTART_DONE (R378): A restarted domain finishes restore and lock, releases isolation and reaches ON. -/
  | domainRestartDone (dom : BitVec 6) (pass : Bool)
  /-- DOMAIN_ACK_TIMEOUT (R380): A power acknowledgement missing 15 µs after its request raises DOMAIN_FAIL. -/
  | domainAckTimeout (dom : BitVec 6)
  /-- DOMAIN_FAIL_1MS (R343): 1 ms after an unanswered request the domain's unit is retired or taken out of service. -/
  | domainFail1ms (dom : BitVec 6)
  /-- HOLD_OFF (R382): A write of PW_DOM_CTRL.HOLD_OFF holds a domain off or releases it to restart and proof. -/
  | holdOff (q : PortReq)
  /-- BLOCK_RESET (R391): A write of 1 to PW_CTRL.BLOCK_RESET requests a block reset. -/
  | blockReset (q : PortReq)
  /-- BLOCK_RESET_INPUT (R392): Assertion of rst_blk_i quiesces the block, powers off switched domains and runs start-up on release. -/
  | blockResetInput (level : Bool)
  /-- POWER_ON_RESET (R385): Deassertion of rst_por_i runs the start-up sequence from step 1. -/
  | powerOnReset (ids : Identity)
  /-- STARTUP_READY (R388): When the unseal step completes the block reaches READY and writes its start-up records. -/
  | startupReady (uk : BitVec 256)
  /-- MAIN_POWER_LOSS (R393): D0 detects main power out of range, latches TS_LOSS_TIME and runs on the backup cell. -/
  | mainPowerLoss
  /-- MAIN_POWER_RETURN (R394): On main power's return D0 switches back to main supply before start-up. -/
  | mainPowerReturn
  /-- REF_LOST (R14): The 100 MHz reference absent for over 10 µs makes the generators hold frequency and raises REF_LOST. -/
  | refLost
  /-- HOLDOVER (R383): After 1 ms without the reference the generators step down to 90% and HOLDOVER is set. -/
  | holdover
  /-- REF_RETURN (R383): On the reference's return the generators relock island by island and REF_LOST's condition ends. -/
  | refReturn
  /-- ALARM_EVENT (R363): An alarm line rising on an enabled line carries out its response and writes its tamper records. -/
  | alarmEvent (levels : BitVec 16)
  /-- CELL_CRITICAL (R369): The backup cell falling below 1.80 V on cell power burnishes at once with cause PREEMPT. -/
  | cellCritical
  /-- SOFTWARE_BURNISH (R371): A write of 1 to TS_CTRL.BURNISH carries out ERASE_ALL with cause SOFTWARE_ALL. -/
  | softwareBurnish (q : PortReq)
  /-- SOFTWARE_SESSION (R371): A write of 1 to TS_CTRL.SESSION carries out ERASE_SESSION with cause SOFTWARE_SESSION. -/
  | softwareSession (q : PortReq)
  /-- MONITOR_TEST (R366): A GO to TS_TEST drives the stimulus and suppression of a line, or gives REFUSED. -/
  | monitorTest (q : PortReq)
  /-- MONITOR_TEST_END (R366): 10 µs after the window the test result is set, raising TAMPER or an alarm on FAIL. -/
  | monitorTestEnd (seenActive stillActive : Bool)
  /-- LINE_CFG_WRITE (R362): A write to TS_LINE_CFG sets a line's EN and RESPONSE in D0 unless locked. -/
  | lineCfgWrite (line : BitVec 4) (q : PortReq)
  /-- TAMPER_RECORD_CLEAR (R370): A write of 1 to TS_REC_STAT.CLEAR clears every tamper record and LOST. -/
  | tamperRecordClear (q : PortReq)
  /-- AR_LOAD (R349): AR_CMD LOAD copies the selected region table entry into the staging registers. -/
  | arLoad (q : PortReq)
  /-- AR_COMMIT (R349): AR_CMD COMMIT writes the staged region table entry and increments the epoch. -/
  | arCommit (q : PortReq)
  /-- AR_INVALIDATE (R351): AR_CMD INVALIDATE invalidates the selected entry and increments the epoch, unless locked. -/
  | arInvalidate (q : PortReq)
  /-- AR_CMD_UNDEFINED (R349): An AR_CMD write of OP 0 sets ERR to 3. -/
  | arCmdUndefined (q : PortReq)
  /-- AR_SYNC_DONE (R350): DONE returns to 1 once no access checked under an older epoch remains. -/
  | arSyncDone
  /-- PO_ENTRY_WRITE (R353): A write to AR_PO_ENTRY sets the selected page-owner entry unless locked. -/
  | poEntryWrite (q : PortReq)
  /-- DG_CTRL_WRITE (R356): A write to DG_CTRL sets the debug function and tracing, TRACE_EN only in MANUFACTURE or DEVELOPMENT. -/
  | dgCtrlWrite (q : PortReq)
  /-- JN_CTRL_WRITE (R359): A write to JN_CTRL enables the journal ring, resets its indices or locks it. -/
  | jnCtrlWrite (q : PortReq)
  /-- JN_CONS_WRITE (R359): A write to JN_CONS frees ring space so that shadow entries drain to the ring. -/
  | jnConsWrite (q : PortReq)
  /-- JN_LOST_READ (R407): A read of JN_LOST returns and clears the lost-event count. -/
  | jnLostRead (q : PortReq)
  /-- FABRIC_RESPONSE_FAIL (R403): A fabric answer of RETRY schedules a retry, and one of ERROR fails the transaction. -/
  | fabricResponseFail (txn : Nat) (retry : Bool)
  /-- FABRIC_RETRY_TIMER (R403): After 2^(n−1) µs a retried fabric transaction is sent again. -/
  | fabricRetryTimer (txn : Nat)
  /-- FABRIC_TIMEOUT (R403): A transaction unanswered after TIMEOUT_US fails and raises RESP_TIMEOUT. -/
  | fabricTimeout (txn : Nat)
  /-- FABRIC_PARITY_ERROR (R404): A parity error on an incoming fabric transfer, or fpx_perr_i, is a DATAPATH fault that fences the port. -/
  | fabricParityError (portB : Bool)
  /-- GC_FABRIC_WRITE (R403): A write to GC_FABRIC sets retries and timeout, ignoring a TIMEOUT_US of 0. -/
  | gcFabricWrite (q : PortReq)
  /-- CREDIT_RETURN (R397): A four-phase credit return adds X_ccnt credits to the sender. -/
  | creditReturn (ch : Channel) (n : BitVec 4)
  /-- TIME_UPDATE (R418): A toggle of tm_tog_i presents a new time-of-day value to the block. -/
  | timeUpdate (tm : DWord)
  /-- IDCODE (R420): TAP instruction IDCODE selects the 32-bit identification register. -/
  | tapIdcode
  /-- DBG_ENABLE (R420): TAP instruction DBG_ENABLE writes DG_CTRL.MASTER_ACTIVE at Update-DR. -/
  | dbgEnable (bit : Bool)
  /-- DBG_ACCESS (R420): TAP instruction DBG_ACCESS starts a debug register or fabric access at Update-DR. -/
  | dbgAccess (dr : BitVec 128) (answer : DWord)
  /-- BYPASS (R420): TAP instruction BYPASS selects the one-bit bypass register. -/
  | tapBypass
  /-- TAP_RESET (R420): dbg_trst_i or the TAP reset state resets the TAP controller and selects IDCODE. -/
  | tapReset
  /-- REGISTER_READ (R408): A register-port read is checked for parity, page owner and byte enables, and a refused read returns 0 with an error response, a denied one raising PAGE_DENIED. -/
  | registerRead (addr : BitVec 22) (q : PortReq)
  /-- RESEED_DONE (R217): A DRBG reseed finishes once the pool holds 512 bits, clearing RESEED and releasing the requests that waited. -/
  | reseedDone
  /-- DMA_READ_RETURN (R317): The read data of a DMA burst arrives and the channel issues the burst's write, or discards it under ABORT. -/
  | dmaReadReturn (ch : BitVec 5) (burst : Nat) (data : List Byte)
  /-- CELL_LOW (R369): The backup cell voltage crosses the 2.10 V or 1.80 V threshold and TS_STATUS.CELL changes between GOOD, LOW and CRITICAL. -/
  | cellLow (level : Cell)
  /-- BACKUP_CELL_DEPLETED (R369): The cell falls below the level at which D0 retains its state, and the vault state, line configuration and tamper records are lost. -/
  | backupCellDepleted
  /-- POWER_ON_RESET_ASSERTED (R419): Assertion of rst_por_i puts every output to its reset value and resets the block's state except D0 and the collector's kept items. -/
  | powerOnResetAsserted
  /-- IDENTITY_VALID (R415): id_valid_i rising lets start-up step 1 latch the identity and life-cycle code and continue. -/
  | identityValid (ids : Identity)
  /-- ILLEGAL (R286): An instruction with a reserved encoding or non-zero zero field traps with cause ILLEGAL. -/
  | illegal (h0 h1 : BitVec 16)
  deriving DecidableEq, Repr

end Sys2Proof
end

