-- ==== Sys2Proof/Machine/Tab.lean ====
section
/-! DEFINITION. Sparse tables in one canonical form (rising numbers, no entry equal to its default), and the
small bit, byte-order and saturation helpers every other file uses (R5, R6, R8, R428). -/

namespace Sys2Proof

/-- Entry `k` of a table whose unlisted entries read `d`. -/
def Tab.get {α : Type} (t : Tab α) (d : α) (k : Nat) : α :=
  match t with
  | [] => d
  | (i, v) :: r => if i = k then v else Tab.get r d k

/-- Removes entry `k`. -/
def Tab.erase {α : Type} (t : Tab α) (k : Nat) : Tab α :=
  match t with
  | [] => []
  | (i, v) :: r => if i = k then Tab.erase r k else (i, v) :: Tab.erase r k

/-- Puts entry `k` at its place in the rising order; an entry of the same number is replaced. -/
def Tab.insert {α : Type} (t : Tab α) (k : Nat) (v : α) : Tab α :=
  match t with
  | [] => [(k, v)]
  | (i, u) :: r =>
    if k < i then (k, v) :: (i, u) :: r
    else if i = k then (k, v) :: r
    else (i, u) :: Tab.insert r k v

/-- Writes entry `k`: an entry equal to the default is not listed. -/
def Tab.set {α : Type} [DecidableEq α] (t : Tab α) (d : α) (k : Nat) (v : α) : Tab α :=
  if v = d then Tab.erase t k else Tab.insert t k v

/-- The numbers rise strictly from one above `lo`. -/
def Tab.risesFrom {α : Type} (lo : Nat) (t : Tab α) : Bool :=
  match t with
  | [] => true
  | (i, _) :: r => decide (lo ≤ i) && Tab.risesFrom (i + 1) r

/-- No entry equals the default of its number. -/
def Tab.noDefault {α : Type} [DecidableEq α] (d : Nat → α) (t : Tab α) : Bool :=
  match t with
  | [] => true
  | (i, v) :: r => decide (v ≠ d i) && Tab.noDefault d r

/-- The canonical form. -/
def Tab.wf {α : Type} [DecidableEq α] (d : Nat → α) (t : Tab α) : Bool :=
  Tab.risesFrom 0 t && Tab.noDefault d t

/-- Changes entry `k`. -/
def Tab.modify {α : Type} [DecidableEq α] (t : Tab α) (d : α) (k : Nat) (f : α → α) : Tab α :=
  Tab.set t d k (f (Tab.get t d k))

/-- Every byte is 0. -/
def allZero (l : List Byte) : Bool := l.all (fun b => decide (b = 0))

/-- A flag as a number. -/
def b2n (b : Bool) : Nat := if b then 1 else 0

/-- Packs fields, each a bit position and a value, into a 64-bit register word. -/
def pk (fs : List (Nat × Nat)) : DWord :=
  BitVec.ofNat 64 (fs.foldl (fun a f => a + f.2 * 2 ^ f.1) 0)

/-- Bits [lo + n − 1 : lo] of a register word. -/
def fld (x : DWord) (lo n : Nat) : BitVec n := x.extractLsb' lo n

/-- Bit `i` of a register word. -/
def bit (x : DWord) (i : Nat) : Bool := x.getLsbD i

/-- The low 32-bit half of a register word. -/
def loHalf (x : DWord) : Word := x.extractLsb' 0 32

/-- The high 32-bit half of a register word. -/
def hiHalf (x : DWord) : Word := x.extractLsb' 32 32

/-- Two halves as one register word. -/
def halves (lo hi : Word) : DWord := hi ++ lo

/-- Adds `n`, stopping at all ones (saturating counters). -/
def satAdd {w : Nat} (x : BitVec w) (n : Nat) : BitVec w :=
  BitVec.ofNat w (min (x.toNat + n) (2 ^ w - 1))

/-- The `n` little-endian bytes of a number (R5). -/
def leBytes (n : Nat) (x : Nat) : List Byte :=
  match n with
  | 0 => []
  | k + 1 => BitVec.ofNat 8 x :: leBytes k (x / 256)

/-- The number that little-endian bytes hold (R5). -/
def leNat (l : List Byte) : Nat :=
  match l with
  | [] => 0
  | b :: r => b.toNat + 256 * leNat r

/-- The number that big-endian bytes hold. -/
def beNat (l : List Byte) : Nat := l.foldl (fun a b => a * 256 + b.toNat) 0

/-- The `n` big-endian bytes of a number. -/
def beBytes (n : Nat) (x : Nat) : List Byte := (leBytes n x).reverse

/-- `n` zero bytes. -/
def zeros (n : Nat) : List Byte := List.replicate n 0

/-- The `n` bytes of `l` from offset `o`, zero beyond its end. -/
def slice (l : List Byte) (o n : Nat) : List Byte :=
  let p := (l.drop o).take n
  p ++ zeros (n - p.length)

/-- The little-endian field of `n` bytes at offset `o`. -/
def fieldAt (l : List Byte) (o n : Nat) : Nat := leNat ((l.drop o).take n)

/-- Cuts or pads with zeros to `n` bytes. -/
def fit (n : Nat) (l : List Byte) : List Byte := slice l 0 n

/-- Bytewise exclusive or, as long as the shorter. -/
def xorBytes (a b : List Byte) : List Byte := List.zipWith (· ^^^ ·) a b

/-- Cuts a list into pieces of `n`, the last possibly shorter; `fuel` bounds the pieces. -/
def chunksF {α : Type} (n : Nat) (fuel : Nat) (l : List α) : List (List α) :=
  match fuel with
  | 0 => []
  | f + 1 => if l.isEmpty then [] else l.take n :: chunksF n f (l.drop n)

/-- Cuts a list into pieces of `n`. -/
def chunks {α : Type} (n : Nat) (l : List α) : List (List α) := chunksF n (l.length + 1) l

/-- Adds an element to a set kept as a list without repeats. -/
def addSet (l : List Nat) (x : Nat) : List Nat := if l.contains x then l else l ++ [x]

end Sys2Proof
end

