-- ==== Sys2Proof/Machine/Aes.lean ====
section
/-! DEFINITION. AES (FIPS 197) and the modes of the cipher lanes (06_cipher_lanes.md R147–R153; SP 800-38A to 38F).
The algorithms are those of the standards the manual names (PRESUMED, log 24). -/

namespace Sys2Proof.Machine

/-- Doubling in GF(2^8). -/
def xtime (a : Byte) : Byte := (a <<< 1) ^^^ (if a.msb then 0x1B else 0)

/-- Product in GF(2^8). -/
def gmul (a b : Byte) : Byte :=
  ((List.range 8).foldl (fun (acc : Byte × Byte) i =>
    (if b.getLsbD i then acc.1 ^^^ acc.2 else acc.1, xtime acc.2)) (0, a)).1

/-- Inverse in GF(2^8): the 254th power, 0 for 0. -/
def ginv (a : Byte) : Byte :=
  ((List.range 7).foldl (fun (acc : Byte × Byte) _ =>
    let sq := gmul acc.2 acc.2
    (gmul acc.1 sq, sq)) (1, a)).1

/-- SubBytes of one byte. -/
def sboxOf (a : Byte) : Byte :=
  let b := ginv a
  b ^^^ b.rotateLeft 1 ^^^ b.rotateLeft 2 ^^^ b.rotateLeft 3 ^^^ b.rotateLeft 4 ^^^ 0x63

/-- The S-box. -/
def sboxTable : Array Byte := ((List.range 256).map (fun i => sboxOf (BitVec.ofNat 8 i))).toArray

/-- SubBytes of one byte, by the table. -/
def sbox (a : Byte) : Byte := sboxTable.getD a.toNat 0

/-- The inverse S-box. -/
def invSboxTable : Array Byte :=
  (List.range 256).foldl (fun t i => t.setIfInBounds (sbox (BitVec.ofNat 8 i)).toNat (BitVec.ofNat 8 i))
    (Array.replicate 256 0)

/-- The round keys as words of 4 bytes, newest first; `i` is the number of the next word. -/
def expandKey (nk : Nat) (fuel i : Nat) (rcon : Byte) (ws : List (List Byte)) : List (List Byte) :=
  match fuel with
  | 0 => ws
  | f + 1 =>
    let prev := ws.headD []
    let old := ws.getD (nk - 1) []
    if i % nk = 0 then
      let t := (prev.drop 1 ++ prev.take 1).map sbox
      let t := xorBytes t [rcon, 0, 0, 0]
      expandKey nk f (i + 1) (xtime rcon) (xorBytes old t :: ws)
    else if 6 < nk ∧ i % nk = 4 then expandKey nk f (i + 1) rcon (xorBytes old (prev.map sbox) :: ws)
    else expandKey nk f (i + 1) rcon (xorBytes old prev :: ws)

/-- The round keys of a key of 16, 24 or 32 bytes, first first. -/
def roundKeys (key : List Byte) : List (List Byte) :=
  let nk := key.length / 4
  let ws := expandKey nk (4 * (nk + 7) - nk) nk 1 (chunks 4 key).reverse
  (chunks 4 ws.reverse).map List.flatten

/-- ShiftRows, or its inverse, by the row step. -/
def shiftRows (k : Nat) (s : List Byte) : List Byte :=
  (List.range 16).map (fun i => s.getD ((i + k * (i % 4)) % 16) 0)

/-- MixColumns with the coefficients of one row. -/
def mixCols (c : List Byte) (s : List Byte) : List Byte :=
  ((chunks 4 s).map (fun col => (List.range 4).map (fun r =>
    (List.range 4).foldl (fun acc j => acc ^^^ gmul (c.getD ((j + 4 - r) % 4) 0) (col.getD j 0)) 0))).flatten

/-- The rounds after the first key addition. -/
def encRounds (ks : List (List Byte)) (s : List Byte) : List Byte :=
  match ks with
  | [] => s
  | [k] => xorBytes (shiftRows 4 (s.map sbox)) k
  | k :: r => encRounds r (xorBytes (mixCols [2, 3, 1, 1] (shiftRows 4 (s.map sbox))) k)

/-- One block under expanded keys. -/
def aesEncK (ks : List (List Byte)) (b : List Byte) : List Byte := encRounds (ks.drop 1) (xorBytes b (ks.headD []))

/-- The inverse rounds; the keys come last first. -/
def decRounds (ks : List (List Byte)) (s : List Byte) : List Byte :=
  match ks with
  | [] => s
  | [k] => xorBytes ((shiftRows 12 s).map (fun x => invSboxTable.getD x.toNat 0)) k
  | k :: r =>
    decRounds r (mixCols [14, 11, 13, 9] (xorBytes ((shiftRows 12 s).map (fun x => invSboxTable.getD x.toNat 0)) k))

/-- One block under expanded keys, deciphered. -/
def aesDecK (ks : List (List Byte)) (b : List Byte) : List Byte :=
  decRounds (ks.reverse.drop 1) (xorBytes b (ks.reverse.headD []))

/-- AES on one block. -/
def aesEnc (key b : List Byte) : List Byte := aesEncK (roundKeys key) b

/-! CBC and CTR (Table 6.3, R150) -/

/-- CBC encryption of whole blocks. -/
def cbcEnc (ks : List (List Byte)) (iv : List Byte) (bs : List (List Byte)) : List Byte :=
  match bs with
  | [] => []
  | b :: r =>
    let c := aesEncK ks (xorBytes b iv)
    c ++ cbcEnc ks c r

/-- CBC decryption of whole blocks. -/
def cbcDec (ks : List (List Byte)) (iv : List Byte) (bs : List (List Byte)) : List Byte :=
  match bs with
  | [] => []
  | b :: r => xorBytes (aesDecK ks b) iv ++ cbcDec ks b r

/-- Increments the low `bits` bits of a big-endian counter block, never carrying beyond them (R150). -/
def incCounter (bits : Nat) (c : List Byte) : List Byte :=
  let n := beNat c
  let m := 2 ^ bits
  beBytes c.length (n / m * m + (n + 1) % m)

/-- CTR: the output and the next counter block (R150). -/
def ctrXor (ks : List (List Byte)) (bits : Nat) (c : List Byte) (bs : List (List Byte)) : List Byte × List Byte :=
  match bs with
  | [] => ([], c)
  | b :: r =>
    let (o, c') := ctrXor ks bits (incCounter bits c) r
    (xorBytes b (aesEncK ks c) ++ o, c')

/-! GCM (SP 800-38D) -/

/-- Product in the field of GHASH; bit 127 is the first. -/
def ghMul (x y : BitVec 128) : BitVec 128 :=
  ((List.range 128).foldl (fun (acc : BitVec 128 × BitVec 128) i =>
    (if x.getLsbD (127 - i) then acc.1 ^^^ acc.2 else acc.1,
     (acc.2 >>> 1) ^^^ (if acc.2.getLsbD 0 then 0xE1#128 <<< 120 else 0))) (0, y)).1

/-- Pads to whole blocks of 16 with zeros. -/
def pad16 (l : List Byte) : List Byte := l ++ zeros ((16 - l.length % 16) % 16)

/-- GHASH over whole blocks. -/
def ghash (h : BitVec 128) (l : List Byte) : BitVec 128 :=
  (chunks 16 l).foldl (fun y b => ghMul (y ^^^ BitVec.ofNat 128 (beNat b)) h) 0

/-- The 16-byte GCM tag of additional data and ciphertext under a 12-byte IV. -/
def gcmTag (ks : List (List Byte)) (iv aad c : List Byte) : List Byte :=
  let h := BitVec.ofNat 128 (beNat (aesEncK ks (zeros 16)))
  let s := ghash h (pad16 aad ++ pad16 c ++ beBytes 8 (aad.length * 8) ++ beBytes 8 (c.length * 8))
  xorBytes (aesEncK ks (iv ++ [0, 0, 0, 1])) (beBytes 16 s.toNat)

/-- GCM's counter mode under a 12-byte IV. -/
def gcmCrypt (ks : List (List Byte)) (iv p : List Byte) : List Byte :=
  (ctrXor ks 32 (iv ++ [0, 0, 0, 2]) (chunks 16 p)).1

/-- Seals: ciphertext and 16-byte tag. -/
def gcmSeal (key iv aad p : List Byte) : List Byte × List Byte :=
  let ks := roundKeys key
  let c := gcmCrypt ks iv p
  (c, gcmTag ks iv aad c)

/-- Opens: the plaintext if the tag matches. -/
def gcmOpen (key iv aad c tag : List Byte) : Option (List Byte) :=
  let ks := roundKeys key
  if (gcmTag ks iv aad c).take tag.length = tag then some (gcmCrypt ks iv c) else none

/-! XTS (SP 800-38E, R151) -/

/-- Multiplies a tweak by α; little-endian. -/
def xtsDouble (t : List Byte) : List Byte :=
  let n := leNat t
  leBytes 16 (2 * n % 2 ^ 128 ^^^ (if 2 ^ 127 ≤ n then 0x87 else 0))

/-- One XTS block. -/
def xtsBlock (f : List Byte → List Byte) (t b : List Byte) : List Byte := xorBytes (f (xorBytes b t)) t

/-- A data unit with ciphertext stealing at its end: `f` enciphers or deciphers a block, `dec` says which. -/
def xtsUnit (f : List Byte → List Byte) (dec : Bool) (t : List Byte) (bs : List (List Byte)) : List Byte :=
  match bs with
  | [] => []
  | [b] => xtsBlock f t b
  | [b, r] =>
    if r.length = 16 then xtsBlock f t b ++ xtsBlock f (xtsDouble t) r
    else
      let t' := xtsDouble t
      let cc := xtsBlock f (if dec then t' else t) b
      let last := xtsBlock f (if dec then t else t') (r ++ cc.drop r.length)
      last ++ cc.take r.length
  | b :: r => xtsBlock f t b ++ xtsUnit f dec (xtsDouble t) r

/-- The data units in order, with their tweaks (R151). -/
def xtsUnits (ks1 ks2 : List (List Byte)) (dec : Bool) (tweak : Nat) (us : List (List Byte)) : List Byte :=
  match us with
  | [] => []
  | u :: r =>
    xtsUnit (if dec then aesDecK ks1 else aesEncK ks1) dec (aesEncK ks2 (leBytes 16 tweak)) (chunks 16 u) ++
    xtsUnits ks1 ks2 dec ((tweak + 1) % 2 ^ 128) r

/-! CCM (SP 800-38C) -/

/-- The length prefix of CCM's additional data. -/
def ccmAadLen (n : Nat) : List Byte :=
  if n = 0 then [] else if n < 0xFF00 then beBytes 2 n else [0xFF, 0xFE] ++ beBytes 4 n

/-- CBC-MAC of whole blocks. -/
def cbcMac (ks : List (List Byte)) (bs : List (List Byte)) : List Byte :=
  bs.foldl (fun x b => aesEncK ks (xorBytes x b)) (zeros 16)

/-- The CCM tag of a message, before it is cut, enciphered with counter 0. -/
def ccmTag (ks : List (List Byte)) (nonce : List Byte) (tagLen : Nat) (aad p : List Byte) : List Byte :=
  let q := 15 - nonce.length
  let flags := (if aad.isEmpty then 0 else 64) + (tagLen - 2) / 2 * 8 + (q - 1)
  let b0 := [BitVec.ofNat 8 flags] ++ nonce ++ beBytes q p.length
  let a := if aad.isEmpty then [] else pad16 (ccmAadLen aad.length ++ aad)
  let mac := cbcMac ks (chunks 16 (b0 ++ a ++ pad16 p))
  xorBytes mac (aesEncK ks ([BitVec.ofNat 8 (q - 1)] ++ nonce ++ zeros q))

/-- CCM's counter mode. -/
def ccmCrypt (ks : List (List Byte)) (nonce p : List Byte) : List Byte :=
  let q := 15 - nonce.length
  (ctrXor ks (8 * q) ([BitVec.ofNat 8 (q - 1)] ++ nonce ++ beBytes q 1) (chunks 16 p)).1

/-! KW and KWP (SP 800-38F) -/

/-- One pass of the wrapping over the semiblocks. -/
def kwPass (ks : List (List Byte)) (t : Nat) (a : List Byte) (rs : List (List Byte)) : List Byte × List (List Byte) :=
  match rs with
  | [] => (a, [])
  | r :: rest =>
    let b := aesEncK ks (a ++ r)
    let a' := xorBytes (b.take 8) (beBytes 8 t)
    let (a'', out) := kwPass ks (t + 1) a' rest
    (a'', b.drop 8 :: out)

/-- The wrapping function W of at least two semiblocks after the first. -/
def kwWrapF (ks : List (List Byte)) (iv : List Byte) (rs : List (List Byte)) : List Byte :=
  let (a, out) := (List.range 6).foldl (fun (st : List Byte × List (List Byte)) j =>
    kwPass ks (j * rs.length + 1) st.1 st.2) (iv, rs)
  a ++ out.flatten

/-- One pass of the unwrapping; the semiblocks come last first. -/
def kwUnpass (ks : List (List Byte)) (t : Nat) (a : List Byte) (rs : List (List Byte)) : List Byte × List (List Byte) :=
  match rs with
  | [] => (a, [])
  | r :: rest =>
    let b := aesDecK ks (xorBytes a (beBytes 8 t) ++ r)
    let (a', out) := kwUnpass ks (t - 1) (b.take 8) rest
    (a', b.drop 8 :: out)

/-- The unwrapping function: the recovered check value and semiblocks. -/
def kwUnwrapF (ks : List (List Byte)) (c : List Byte) : List Byte × List Byte :=
  let rs := (chunks 8 (c.drop 8)).reverse
  let n := rs.length
  let (a, out) := (List.range 6).foldl (fun (st : List Byte × List (List Byte)) j =>
    kwUnpass ks ((6 - j) * n) st.1 st.2) (c.take 8, rs)
  (a, out.reverse.flatten)

/-- The default initial value of KW. -/
def kwIv : List Byte := List.replicate 8 0xA6

/-- KW wrap. -/
def kwWrapAll (key p : List Byte) : List Byte := kwWrapF (roundKeys key) kwIv (chunks 8 p)

/-- KW unwrap: the data if the check value matches. -/
def kwUnwrapAll (key c : List Byte) : Option (List Byte) :=
  let (a, p) := kwUnwrapF (roundKeys key) c
  if a = kwIv then some p else none

/-- KWP wrap. -/
def kwpWrapAll (key p : List Byte) : List Byte :=
  let ks := roundKeys key
  let iv := [0xA6, 0x59, 0x59, 0xA6] ++ beBytes 4 p.length
  let q := p ++ zeros ((8 - p.length % 8) % 8)
  if q.length ≤ 8 then aesEncK ks (iv ++ q) else kwWrapF ks iv (chunks 8 q)

/-- KWP unwrap: the data if the check value, the length and the padding match. -/
def kwpUnwrapAll (key c : List Byte) : Option (List Byte) :=
  let ks := roundKeys key
  let (a, q) :=
    if c.length = 16 then
      let b := aesDecK ks c
      (b.take 8, b.drop 8)
    else kwUnwrapF ks c
  let n := beNat (a.drop 4)
  if a.take 4 = [0xA6, 0x59, 0x59, 0xA6] ∧ q.length < n + 8 ∧ n ≤ q.length ∧ (q.drop n).all (fun b => b = 0) then
    some (q.take n)
  else none

end Sys2Proof.Machine
end

