-- ==== Sys2Proof/Config.lean ====
section
/-! DEFINITION. What an implementation fixes and what the manual leaves open: opaque constants without a body,
so that no proof can rest on a value of theirs. -/

namespace Sys2Proof.Config

/-- The next byte of entropy that the source of R216 delivers, by the number drawn so far (`State.freeCount`).
FREE VALUE, log 3. -/
opaque entropyByte : Nat → BitVec 8

/-- The raw samples of R220, 64 at a time, by the number drawn so far. FREE VALUE, log 3. -/
opaque rawSamples : Nat → BitVec 64

/-- The boot ROM's HSS public key FIRMWARE_VERIFY (Table 10.11, slot 7), 60 bytes: the manual gives no value.
FREE VALUE, log 21. -/
opaque firmwareKey : Nat → BitVec 8

/-- PW_POWER.EST (R108, PW_POWER): the manual gives no formula of the estimate. FREE VALUE, log 22. -/
opaque powerEstimate : Nat → BitVec 8

/-- Which free tag a link receives (R97, "any free tag"): chooses among the free tags by their count and
the number of choices made. FREE VALUE, log 23. -/
opaque tagChoice : Nat → Nat

/-- How many nanoseconds a command of FT_CMD takes, by number of draw: R30 bounds it by 1 µs (log 76). -/
opaque commandNs : Nat → Nat

/-- Where a routine stood when its budget ran out (R296, ROUTINE_BUDGET): the address in the fault message. FREE VALUE,
log 25. -/
opaque routinePc : Nat → BitVec 32

/-- Whether a context entry of a fenced digest lane fails its ECC (R190, R191), by number of draw: the manual gives
the clearing, not which entries fail. FREE VALUE, log 142. -/
opaque entryFails : Nat → Bool

/-- Which entry of the slot and node caches an uncorrectable ECC error discards (R259), by number of draw, modulo the
entries held. FREE VALUE, log 147. -/
opaque cacheEntry : Nat → Nat

end Sys2Proof.Config
end

