-- ==== Sys2Proof/Machine/PartsBurin.lean ====
section
/-! DEFINITION. The parts of the state that belong to Burin and the etch state (11_burin.md). A field's default is its
value after reset; where the manual gives none it is 0 (log 8). -/

namespace Sys2Proof.Machine

/-- An addressed memory of the block: its cells that are not 0, by rising address (log 9). -/
abbrev Memory := List Host.Cell

/-- The canonical form of a memory. -/
def Memory.wf (m : Memory) : Bool := Tab.wf (fun _ => (0 : Byte)) m

/-- One byte. -/
def Memory.read (m : Memory) (a : Nat) : Byte := Tab.get m 0 a

/-- Writes one byte. -/
def Memory.write (m : Memory) (a : Nat) (b : Byte) : Memory := Tab.set m 0 a b

/-- `n` bytes from `a`. -/
def Memory.readBytes (m : Memory) (a n : Nat) : List Byte := (List.range n).map (fun i => m.read (a + i))

/-- Writes bytes from `a` on. -/
def Memory.writeBytes (m : Memory) (a : Nat) (l : List Byte) : Memory :=
  match l with
  | [] => m
  | b :: r => Memory.writeBytes (m.write a b) (a + 1) r

/-- BU_STATUS.STATE. -/
inductive BuState where
  | off | boot | run | rollback | halted | bootFail
  deriving DecidableEq, Repr

/-- The encoding of BU_STATUS.STATE. -/
def BuState.code : BuState → Nat
  | .off => 0 | .boot => 1 | .run => 2 | .rollback => 3 | .halted => 4 | .bootFail => 5

/-- What a commit point saves: general and special registers and the return stack (R276, R279). -/
structure BuCtx where
  regs : Tab Word := []
  dsp : Word := 0
  mlo : Word := 0
  mhi : Word := 0
  epc : Word := 0
  cause : BitVec 4 := 0
  tvec : Word := 0
  inTrap : Bool := false
  inRoutine : Bool := false
  evtMask : BitVec 6 := 0
  stack : List Word := []
  pc : Word := 0
  deriving DecidableEq, Repr

/-- A load whose value has not landed (R281). -/
structure PendLoad where
  rd : Nat
  val : Word
  /-- The delay-slot instruction has been executed. -/
  slotDone : Bool := false
  deriving DecidableEq, Repr

/-- A product in flight: the cycle it was issued in (R282). -/
structure Product where
  issued : Nat
  hi : Word
  lo : Word
  deriving DecidableEq, Repr

/-- The etch state and its registers (R290–R300). -/
structure Etch where
  entries : Tab (BitVec 64) := []
  words : Tab (BitVec 64) := []
  dispatch : Tab Word := []
  isOpen : Bool := false
  lock : Bool := false
  /-- OPEN waits for the running etched link (R298). -/
  waits : Bool := false
  err : BitVec 4 := 0
  addr : BitVec 14 := 0
  autoInc : Bool := false
  meas : List Byte := []
  deriving DecidableEq, Repr

/-- Burin (R272–R289). -/
structure Burin where
  state : BuState := .off
  waiting : Bool := false
  unsigned : Bool := false
  bootErr : BitVec 4 := 0
  rollbacks : Word := 0
  memCe : Word := 0
  ctx : BuCtx := {}
  saved : BuCtx := {}
  cycle : Nat := 0
  evt : BitVec 6 := 0
  /-- EVT at the last commit point (R276). -/
  savedEvt : BitVec 6 := 0
  /-- Events that have come since the last commit point: a rollback does not lose them (log 80). -/
  evtNew : BitVec 6 := 0
  loads : List PendLoad := []
  products : List Product := []
  imem : Memory := []
  dmem : Memory := []
  /-- Old values of data SRAM words written since the commit point, newest first (R276). -/
  undo : List (Nat × Word) := []
  /-- Writes to the register window view, oldest first: offset, data, and whether a pair of halves (R274, R276). -/
  outb : List (Nat × DWord × Bool) := []
  /-- Loads from the register window view since the commit point, oldest first: address, value, and the upper half that
  the load left held (R274, R276). -/
  readLog : List (Nat × Word × Option (Nat × Word)) := []
  /-- Logged loads that the re-execution still has to meet (R277). -/
  replay : List (Nat × Word × Option (Nat × Word)) := []
  /-- A mismatch has occurred since the last commit point (R278). -/
  mismatched : Bool := false
  commitDue : Bool := false
  /-- The lower half of a pair being stored (R274). -/
  lowHalf : Option (Nat × Word) := none
  /-- The halves of the 64-bit register last loaded from its lower word (R274). -/
  loadHalf : Option (Nat × Word) := none
  /-- `lowHalf` and `loadHalf` at the last commit point. -/
  savedLow : Option (Nat × Word) := none
  savedHalf : Option (Nat × Word) := none
  ptrValid : Bool := false
  unsignedOk : Bool := false
  ptrAddr : BitVec 45 := 0
  ptrLock : Bool := false
  fwVer : Word := 0
  fwMeas : List Byte := []
  etch : Etch := {}
  deriving DecidableEq, Repr

/-- Events come: bits of EVT are set (R279). -/
def Burin.arrive (b : Burin) (m : BitVec 6) : Burin := { b with evt := b.evt ||| m, evtNew := b.evtNew ||| m }

end Sys2Proof.Machine
end

