-- ==== Sys2Proof/Machine/PartsSlot.lean ====
section
/-! DEFINITION. A vault slot as the block holds it (10_plate_vault.md R246, R247). -/

namespace Sys2Proof.Machine

/-- The attribute words (Table 10.3). -/
structure Attr where
  owner : Nat := 0
  share : Byte := 0
  world : BitVec 2 := 0
  lcMask : BitVec 5 := 0
  binding : Byte := 0
  alg : Byte := 0
  hmacStates : Bool := false
  publicOnly : Bool := false
  blob : Bool := false
  keyKept : Bool := false
  encRetired : Bool := false
  perms : BitVec 7 := 0
  keyLen : Nat := 0
  parent : Nat := 0
  hasParent : Bool := false
  usageLimit : Nat := 0
  usageCount : Nat := 0
  notAfter : DWord := 0
  created : DWord := 0
  ivFixed : Word := 0
  deriving DecidableEq, Repr

/-- A slot in the slot cache: attributes with the live usage count, key area with the live invocation counters, leaf
counter, blob body, the lease ends that the stored record carries, and the family of the open lease (R154, R252, R258). -/
structure SlotEnt where
  attr : Attr := {}
  area : List Byte := []
  leaf : Nat := 0
  body : List Byte := []
  usageEnd : Nat := 0
  builtEnd : Nat := 0
  otherEnd : Nat := 0
  fam : Nat := 0
  used : Nat := 0
  deriving DecidableEq, Repr

end Sys2Proof.Machine
end

