-- ==== Sys2Proof/Machine/PartsCore.lean ====
section
/-! DEFINITION. The parts of the state that belong to functions, rings, chains, tags, vectors and units
(02_functions.md, 03_rings.md, 04_chains.md). A field's default is its value after reset. -/

namespace Sys2Proof.Machine

/-- FT_STATE.STATE (R35). -/
inductive FnState where
  | unbound | ready | enabled | halted | resetting
  deriving DecidableEq, Repr

/-- The encoding of FT_STATE.STATE. -/
def FnState.code : FnState → Nat
  | .unbound => 0 | .ready => 1 | .enabled => 2 | .halted => 3 | .resetting => 4

/-- A function table entry (FT_RINGS, FT_VECS, FT_ATTR, FT_LIMITS; R31, R32). -/
structure FnEntry where
  ringBase : BitVec 14 := 0
  ringCount : BitVec 15 := 0
  vecBase : BitVec 14 := 0
  vecCount : BitVec 15 := 0
  shareGroup : BitVec 8 := 0
  world : BitVec 2 := 0
  flrMode : Bool := false
  tagQuota : BitVec 15 := 0
  drainUs : BitVec 20 := 10000
  deriving DecidableEq, Repr

/-- Function 0's entry after block reset (R32). -/
def FnEntry.fn0 : FnEntry := { ringCount := 64, vecCount := 64, world := 1 }

/-- The event queue of a function (R49–R51). -/
structure EvQueue where
  base : BitVec 45 := 0
  en : Bool := false
  size : BitVec 4 := 0
  vecEn : Bool := false
  vector : BitVec 14 := 0
  typeEn : Word := 0
  prod : Word := 0
  cons : Word := 0
  lost : Word := 0
  /-- Records lost since the last EQ_OVERFLOW record, with the first and the last of their times (R51). -/
  since : Word := 0
  firstLost : DWord := 0
  lastLost : DWord := 0
  deriving DecidableEq, Repr

/-- One function (R24–R53). -/
structure Fn where
  state : FnState := .unbound
  squash : Bool := false
  entry : FnEntry := {}
  flrReq : Bool := false
  /-- From reset-complete until the function is next enabled: no write carries its ID (R43). -/
  quiet : Bool := false
  /-- An FLR_REQUEST arrived between the reset point and reset-complete (R44). -/
  byPort : Bool := false
  resetPoint : DWord := 0
  nCompleted : Word := 0
  nSquashed : Word := 0
  pstate : BitVec 2 := 0
  accepted : Bool := true
  /-- Pool vectors whose flushed messages ACCEPTED waits for (R48). -/
  flush : List Nat := []
  haltRing : BitVec 14 := 0
  eq : EvQueue := {}
  vecSel : BitVec 14 := 0
  deriving DecidableEq, Repr

/-- Function 0 after block reset: ENABLED (R32). -/
def Fn.fn0 : Fn := { state := .enabled, entry := FnEntry.fn0 }

/-- The function table, its staging registers and command register (R29–R34). -/
structure FnTable where
  sel : BitVec 10 := 0
  err : BitVec 4 := 0
  /-- When the last command began, and for how many nanoseconds BUSY reads 1 from then on (R30, log 76). -/
  busyFrom : DWord := 0
  busyNs : Nat := 0
  stage : FnEntry := FnEntry.fn0
  numVf : BitVec 10 := 0
  fns : Tab Fn := [(0, Fn.fn0)]
  /-- A RESET_COMPLETE for function 0 is due at the end of start-up step 1 (R39). -/
  fn0Due : Bool := false
  /-- That message has been offered and not yet accepted (R39, R410). -/
  fn0Offered : Bool := false
  deriving DecidableEq, Repr

/-- RT_STATUS.STATE (Table 3.1). -/
inductive RingState where
  | disabled | enabled | stopping | stopped
  deriving DecidableEq, Repr

/-- The encoding of the ring state. -/
def RingState.code : RingState → Nat
  | .disabled => 0 | .enabled => 1 | .stopping => 2 | .stopped => 3

/-- A link descriptor (Table 3.3) with its inline parameters (R70). -/
structure Desc where
  opcode : BitVec 12 := 0
  inChain : Bool := false
  outChain : Bool := false
  paramInline : Bool := false
  opt : BitVec 5 := 0
  slot : BitVec 19 := 0
  inAddr : DWord := 0
  inLen : Word := 0
  outLen : Word := 0
  outAddr : DWord := 0
  paramAddr : DWord := 0
  paramLen : Word := 0
  aux : Word := 0
  inlined : List Byte := []
  deriving DecidableEq, Repr

/-- The scheduling classes (Table 3.2). -/
inductive Cls where
  | p | d | b
  deriving DecidableEq, Repr

/-- The encoding of CLASS. -/
def Cls.code : Cls → Nat
  | .p => 0 | .d => 1 | .b => 2

/-- A well-formed packet (R68–R71). -/
structure Packet where
  head : Word := 0
  entries : Nat := 1
  links : List Desc := []
  cls : Cls := .p
  prio : BitVec 3 := 0
  sched : Byte := 0
  deadline : BitVec 24 := 0
  user : DWord := 0
  event : Bool := false
  indirect : Bool := false
  deriving DecidableEq, Repr

/-- A ring context (R54–R89, R434). -/
structure Ring where
  state : RingState := .disabled
  reason : Byte := 0
  hdr : BitVec 48 := 0
  /-- Header that the enable under check named (R434). -/
  newHdr : BitVec 48 := 0
  enabling : Bool := false
  heldKick : Bool := false
  heldDisable : Bool := false
  sqBase : DWord := 0
  cqBase : DWord := 0
  sqSize : BitVec 4 := 0
  cqSize : BitVec 4 := 0
  vector : BitVec 16 := 0
  pollUs : BitVec 16 := 0
  sqProd : Word := 0
  cqCons : Word := 0
  /-- Position of the next entry to fetch. -/
  fetchPos : Word := 0
  /-- Position of the first entry not yet issued (R66). -/
  issuePos : Word := 0
  /-- The block's own completion producer position (R63). -/
  cqPos : Word := 0
  /-- CQ_PROD as last written to the header (R81). -/
  cqProd : Word := 0
  hdrBusy : Bool := false
  hdrOwed : Bool := false
  lastHdr : DWord := 0
  /-- Entry reads in flight, oldest first: position and number of entries (R60). -/
  reads : List (Word × Nat) := []
  /-- Returned entries not yet formed into a packet, oldest first. -/
  raw : List (List Byte) := []
  /-- The INDIRECT packet whose link table is being read (R71). -/
  table : Option Packet := none
  /-- Packets that passed the form check and wait for issue (R64). -/
  ready : List Packet := []
  /-- Reason code of a malformed packet behind the packets that wait for issue; 0 none (R75). -/
  bad : Byte := 0
  /-- Fetching has stopped, and the ring stops with this reason once its operations have ended (R82, R85, R86);
  0 none. -/
  stopWith : Byte := 0
  /-- A completion record write failed: no further record is written (R82). -/
  noRecords : Bool := false
  /-- A malformed packet on an authority ring has raised its fault: the ring does nothing more (R75). -/
  dead : Bool := false
  /-- Completion records reserved by packets issued and not yet completed (R64). -/
  reserved : Nat := 0
  deriving DecidableEq, Repr

/-- The operations of FN_DOORBELL. -/
inductive RingOp where
  | kick | enable | disable
  deriving DecidableEq, Repr

/-- An accepted operation on a ring: its function, the pool ring and, for ENABLE, the header. -/
structure RingReq where
  fn : Nat
  ring : Nat
  op : RingOp
  hdr : BitVec 48
  deriving DecidableEq, Repr

/-- The ring table and its registers (R59). -/
structure RingTable where
  sel : BitVec 14 := 0
  err : BitVec 4 := 0
  hdr : BitVec 48 := 0
  rings : Tab Ring := []
  /-- Operations that came while the ring manager was fenced, oldest first (R19, log 129). -/
  held : List RingReq := []
  deriving DecidableEq, Repr

/-- The statuses of Table 3.9 that a completion record may carry. -/
inductive Status where
  | ok | authFail | keyDenied | keyLimit | lenMismatch | busError | contextLost | unsupported
  | chainAbort | deadlineMissed | verifyFail | entropyFail | vaultIntegrity | overload
  deriving DecidableEq, Repr

/-- Table 3.9. -/
def Status.code : Status → Nat
  | .ok => 0x00 | .authFail => 0x01 | .keyDenied => 0x02 | .keyLimit => 0x03 | .lenMismatch => 0x04
  | .busError => 0x05 | .contextLost => 0x07 | .unsupported => 0x08 | .chainAbort => 0x09
  | .deadlineMissed => 0x0A | .verifyFail => 0x0B | .entropyFail => 0x0C | .vaultIntegrity => 0x0D
  | .overload => 0x0E

/-- Where a link stands between issue and its completion record. -/
inductive Phase where
  /-- Waits for its predecessor. -/
  | waiting
  /-- In the queue of its unit kind (R98). -/
  | queued
  /-- Running on the unit with this source number. -/
  | running (unit : Nat)
  /-- Queued again at its suspension point (R100, R101). -/
  | suspended
  /-- Running; its slot is being read (R254). -/
  | missWait (unit : Nat)
  /-- Done but for the commit of the batch it depends on (R255). -/
  | commitWait
  /-- Ended with the entry's status. -/
  | ended
  deriving DecidableEq, Repr

/-- The mark of a link, saved at a segment, block boundary, impression or Stipple mark and at a suspension (R146, R159,
R161, R180, R189, R207, R238). It holds what the link has taken once and for all, and the bytes it has consumed, from
which its chaining value, accumulator, partial block and output position follow (log 130). -/
structure Mark where
  /-- The slot and the second slot as the pre-start checks found them. -/
  slot : SlotEnt := {}
  wrap : SlotEnt := {}
  /-- The IV that R155 allocated and its invocation field (R165), and the fact that the counts have been taken (R207,
  R209). -/
  iv : List Byte := []
  ivField : Nat := 0
  counted : Bool := false
  /-- Randomness drawn so far (R207). -/
  drawn : List Byte := []
  /-- The pass, 1 or 2 (R159), the bytes of the current pass already consumed, and those of the finished first pass. -/
  pass : Nat := 1
  read : List Byte := []
  first : List Byte := []
  /-- The parameter block as read at the start (R76). -/
  param : List Byte := []
  /-- Bytes of output already written (R236, R238). -/
  wrote : Nat := 0
  /-- A check before release has failed once (R206). -/
  failed : Bool := false
  deriving DecidableEq, Repr

/-- Bytes of input a link has consumed at its mark. -/
def Mark.pos (m : Mark) : Nat := m.first.length + m.read.length

/-- A tag table entry (R97). -/
structure TagEnt where
  fn : Nat := 0
  ring : Nat := 0
  pkt : Nat := 0
  link : Nat := 0
  desc : Desc := {}
  phase : Phase := .waiting
  status : Status := .ok
  outBytes : Nat := 0
  result : DWord := 0
  replayed : Bool := false
  /-- Steps by which aging raised the link (R99). -/
  aged : Nat := 0
  /-- Queue entry time (R99). -/
  since : DWord := 0
  /-- Output kept for the next link (R93), and the storage reserved for it: on-block blocks, or units of 64 KiB of
  the spill area with the nonce counter of the first 4 KiB written there (R94). -/
  chainOut : List Byte := []
  blocks : Nat := 0
  spillUnits : List Nat := []
  spillCtr : Nat := 0
  /-- A unit or etched routine has started the link, and the source number of the unit that ran it last. -/
  started : Bool := false
  lastUnit : Nat := 0
  /-- The slot this link fills, when its batch commits (R255, R264). -/
  fills : Option Nat := none
  /-- The slot's contents when the link's pre-start checks passed (R167). -/
  passed : Option SlotEnt := none
  /-- The committed mark that a resumed or replayed link goes on from. -/
  mark : Option Mark := none
  /-- A repair interrupted the link on a unit without a spare: it runs before every other link when the unit is back
  (R239). -/
  first : Bool := false
  deriving DecidableEq, Repr

/-- A packet between issue and its completion records (R90–R92, R102, R105). -/
structure Flight where
  fn : Nat := 0
  ring : Nat := 0
  head : Word := 0
  user : DWord := 0
  event : Bool := false
  cls : Cls := .p
  prio : BitVec 3 := 0
  deadline : DWord := 0
  dated : Bool := false
  admitted : Bool := false
  tags : List Nat := []
  cur : Nat := 0
  /-- The profile and the reserves of cipher and digest lanes in force at its issue (R109, R110). -/
  profile : BitVec 2 := 0
  resCipher : Nat := 0
  resDigest : Nat := 0
  deriving DecidableEq, Repr

/-- The chain sequencer's registers and tables (R90–R106). -/
structure Seq where
  ageUs : BitVec 16 := 1000
  admitted : Word := 0
  refused : Word := 0
  spillEn : Bool := false
  spillSize : BitVec 8 := 0
  spillAddr : BitVec 36 := 0
  chUsed : Nat := 0
  highWater : BitVec 15 := 0
  tags : Tab TagEnt := []
  flights : Tab Flight := []
  nextFlight : Nat := 0
  /-- Rings whose next packet waits for free tags, in the order in which they began to wait (R97). -/
  tagWait : List Nat := []
  /-- Function last served by unit kind and level, and ring last served by kind, level and function, each plus 1 (R98;
  log 20). -/
  served : Tab Nat := []
  /-- The chain spill key, empty when erased, and its nonce counter (R94). -/
  spillKey : List Byte := []
  spillNonce : Nat := 0
  deriving DecidableEq, Repr

/-- Global control: profile, caps, overrides (R107–R110, R113). -/
structure Profile where
  request : BitVec 2 := 0
  current : BitVec 2 := 0
  pending : Bool := false
  /-- The change under way, and the last write kept meanwhile (R109). -/
  target : BitVec 2 := 0
  kept : Option (BitVec 2) := none
  cap : BitVec 5 := 16
  dCipher : BitVec 4 := 0
  dDigest : BitVec 3 := 0
  dEn : Bool := false
  bShare : BitVec 4 := 0
  auditClasses : BitVec 3 := 7
  dDemote : Bool := false
  irqAfterResp : Bool := false
  deriving DecidableEq, Repr

/-- One vector of the pool (R111–R115). -/
structure Vec where
  timerUs : BitVec 10 := 0
  count : BitVec 12 := 1
  mask : Bool := true
  pending : BitVec 12 := 0
  due : Bool := false
  blocked : Bool := false
  wake : Bool := false
  firstAt : DWord := 0
  /-- A message of the vector has been handed over and is not answered yet (R115). -/
  offered : Bool := false
  /-- Time of the offer that is not answered yet, and of the first refusal of the message on offer (R115). -/
  offeredAt : DWord := 0
  refusedAt : Option DWord := none
  deriving DecidableEq, Repr

/-- ROLE of a lane, core or tag unit (CL_LANE_STAT). -/
inductive Role where
  | off | working | reserved | spare | fenced | proofing | retired | gated
  deriving DecidableEq, Repr

/-- The encoding of ROLE. -/
def Role.code : Role → Nat
  | .off => 0 | .working => 1 | .reserved => 2 | .spare => 3 | .fenced => 4 | .proofing => 5
  | .retired => 6 | .gated => 7

/-- A lane, core, tag unit, fabric port or unit without a spare, by its source number (Table 13.2). -/
structure Lane where
  role : Role := .off
  busy : Option Nat := none
  faults : Byte := 0
  /-- Consecutive clean proofing cycles (R338). -/
  clean : Nat := 0
  /-- Clean cycles after which it enters service (R337, R384, R385). -/
  need : Nat := 1000
  /-- GATED as a spare between proofing rounds (R384). -/
  gatedSpare : Bool := false
  /-- Time of the last rejoin or restart (R339, R341). -/
  rejoined : Option DWord := none
  idleSince : DWord := 0
  /-- Out of service under R341 or R343. -/
  outOfService : Bool := false
  deriving DecidableEq, Repr

end Sys2Proof.Machine
end

