-- ==== Sys2Proof/Machine/Drbg.lean ====
section
/-! DEFINITION. CTR_DRBG with AES-256 and derivation function (SP 800-90A; 08_public_key.md R217). The algorithm is that
of the standard the manual names (PRESUMED, log 24). -/

namespace Sys2Proof.Machine

/-- The working state of the DRBG. -/
structure DrbgState where
  key : List Byte := []
  v : List Byte := []
  deriving DecidableEq, Repr

/-- Counter plus `i`, as 16 bytes. -/
def addV (v : List Byte) (i : Nat) : List Byte := beBytes 16 ((beNat v + i) % 2 ^ 128)

/-- CTR_DRBG_Update with 48 bytes. -/
def DrbgState.update (s : DrbgState) (d : List Byte) : DrbgState :=
  let ks := roundKeys s.key
  let t := xorBytes (((List.range 3).map (fun i => aesEncK ks (addV s.v (i + 1)))).flatten) d
  { key := t.take 32, v := t.drop 32 }

/-- Block_Cipher_df to 48 bytes. -/
def drbgDf (input : List Byte) : List Byte :=
  let body := beBytes 4 input.length ++ beBytes 4 48 ++ input ++ [0x80]
  let body := pad16 body
  let ks := roundKeys ((List.range 32).map (BitVec.ofNat 8))
  let t := ((List.range 3).map (fun i => cbcMac ks (chunks 16 (beBytes 4 i ++ zeros 12 ++ body)))).flatten
  let kk := roundKeys (t.take 32)
  let x1 := aesEncK kk (t.drop 32)
  let x2 := aesEncK kk x1
  x1 ++ x2 ++ aesEncK kk x2

/-- Instantiation from the entropy input with its nonce and a personalization string. -/
def drbgInstantiate (entropy perso : List Byte) : DrbgState :=
  ({ key := zeros 32, v := zeros 16 } : DrbgState).update (drbgDf (entropy ++ perso))

/-- Reseed. -/
def DrbgState.reseed (s : DrbgState) (entropy : List Byte) : DrbgState := s.update (drbgDf entropy)

/-- Generates `n` bytes. -/
def DrbgState.generate (s : DrbgState) (n : Nat) : List Byte × DrbgState :=
  let ks := roundKeys s.key
  let k := (n + 15) / 16
  let out := (((List.range k).map (fun i => aesEncK ks (addV s.v (i + 1)))).flatten).take n
  (out, ({ s with v := addV s.v k } : DrbgState).update (zeros 48))

end Sys2Proof.Machine
end

