-- ==== Sys2Proof/Machine/Hash.lean ====
section
/-! DEFINITION. SHA-2 (FIPS 180-4), SHA-3 and SHAKE (FIPS 202), HMAC, HKDF (RFC 5869), the counter-mode KDF (SP 800-108)
and the CRCs (07_digest.md, 12_mailboxes_dma.md R316). The algorithms are those of the standards the manual names
(PRESUMED, log 24). -/

namespace Sys2Proof.Machine

/-! SHA-2 -/

/-- Largest `x` below `2^n` with `p x`, for a `p` that holds up to some number and not above it. -/
def maxBits (p : Nat → Bool) (n acc : Nat) : Nat :=
  match n with
  | 0 => acc
  | k + 1 => maxBits p k (if p (acc + 2 ^ k) then acc + 2 ^ k else acc)

/-- The first 80 primes. -/
def primes80 : List Nat := ((List.range 410).filter (fun n => decide (2 ≤ n) && (List.range 20).all (fun d =>
  decide (d < 2) || decide (n ≤ d) || decide (n % d ≠ 0)))) |>.take 80

/-- The first 64 bits of the fraction of a cube root. -/
def cubeFrac (p : Nat) : DWord := BitVec.ofNat 64 (maxBits (fun x => decide (x ^ 3 ≤ p * 2 ^ 192)) 68 0)

/-- The first 64 bits of the fraction of a square root. -/
def sqrtFrac (p : Nat) : DWord := BitVec.ofNat 64 (maxBits (fun x => decide (x ^ 2 ≤ p * 2 ^ 128)) 69 0)

/-- The round constants of SHA-512; their upper halves are those of SHA-256. -/
def sha512K : List DWord := primes80.map cubeFrac

/-- The rotations of SHA-256 and SHA-512: Σ0, Σ1, σ0, σ1 (the third of σ a shift). -/
structure Sha2Rot where
  s0 : Nat × Nat × Nat
  s1 : Nat × Nat × Nat
  g0 : Nat × Nat × Nat
  g1 : Nat × Nat × Nat

/-- SHA-256. -/
def rot256 : Sha2Rot := { s0 := (2, 13, 22), s1 := (6, 11, 25), g0 := (7, 18, 3), g1 := (17, 19, 10) }

/-- SHA-512. -/
def rot512 : Sha2Rot := { s0 := (28, 34, 39), s1 := (14, 18, 41), g0 := (1, 8, 7), g1 := (19, 61, 6) }

/-- Three rotations. -/
def bigSigma {w : Nat} (r : Nat × Nat × Nat) (x : BitVec w) : BitVec w :=
  x.rotateRight r.1 ^^^ x.rotateRight r.2.1 ^^^ x.rotateRight r.2.2

/-- Two rotations and a shift. -/
def smallSigma {w : Nat} (r : Nat × Nat × Nat) (x : BitVec w) : BitVec w :=
  x.rotateRight r.1 ^^^ x.rotateRight r.2.1 ^^^ (x >>> r.2.2)

/-- Extends the message schedule (newest first) by `n` words. -/
def schedule2 {w : Nat} (rot : Sha2Rot) (n : Nat) (ws : List (BitVec w)) : List (BitVec w) :=
  match n with
  | 0 => ws
  | k + 1 =>
    schedule2 rot k ((smallSigma rot.g1 (ws.getD 1 0) + ws.getD 6 0 + smallSigma rot.g0 (ws.getD 14 0) + ws.getD 15 0) :: ws)

/-- One round. -/
def round2 {w : Nat} (rot : Sha2Rot) (h : List (BitVec w)) (kw : BitVec w) : List (BitVec w) :=
  match h with
  | [a, b, c, d, e, f, g, hh] =>
    let t1 := hh + bigSigma rot.s1 e + ((e &&& f) ^^^ (~~~e &&& g)) + kw
    let t2 := bigSigma rot.s0 a + ((a &&& b) ^^^ (a &&& c) ^^^ (b &&& c))
    [t1 + t2, a, b, c, d + t1, e, f, g]
  | l => l

/-- The compression function on one block. -/
def compress2 {w : Nat} (rot : Sha2Rot) (ks : List (BitVec w)) (h : List (BitVec w)) (block : List Byte) : List (BitVec w) :=
  let ws := (schedule2 rot (ks.length - 16) ((chunks (w / 8) block).map (fun b => BitVec.ofNat w (beNat b))).reverse).reverse
  List.zipWith (· + ·) h ((List.zipWith (· + ·) ks ws).foldl (round2 rot) h)

/-! Keccak -/

/-- The next content of the register that the round constants are read from: multiplication by x in GF(2)[x] modulo
x^8 + x^6 + x^5 + x^4 + 1. -/
def rcShift (r : Nat) : Nat := if r < 128 then 2 * r else (2 * r - 256) ^^^ 0x71

/-- The register's low bit at `n` successive steps. -/
def rcStream (n r : Nat) : List Nat :=
  match n with
  | 0 => []
  | k + 1 => r % 2 :: rcStream k (rcShift r)

/-- The constants of the 24 rounds: each takes seven bits of the stream, the j-th at bit 2^j − 1. -/
def keccakConsts : List DWord :=
  (chunks 7 (rcStream 168 1)).map (fun bits => BitVec.ofNat 64 ((bits.zipIdx.map (fun p => p.1 * 2 ^ (2 ^ p.2 - 1))).sum))

/-- The lanes in the order in which the rotation offsets grow, from (x, y) on. -/
def keccakPath (n x y : Nat) : List Nat :=
  match n with
  | 0 => []
  | k + 1 => (x + 5 * y) :: keccakPath k y ((2 * x + 3 * y) % 5)

/-- Each lane takes the parities of two neighbouring columns. -/
def keccakMix (rows : List (List DWord)) : List (List DWord) :=
  let parity := rows.foldl (List.zipWith (· ^^^ ·)) (List.replicate 5 0)
  let both := List.zipWith (fun before after => before ^^^ after.rotateLeft 1) (parity.rotateRight 1) (parity.rotateLeft 1)
  rows.map (List.zipWith (· ^^^ ·) both)

/-- Each lane moves to the next place of the path, turned by the next triangular number. -/
def keccakMove (lanes : List DWord) : List DWord :=
  let path := keccakPath 25 1 0
  (path.zip path.tail).zipIdx.foldl (fun out step =>
    out.set step.1.2 ((lanes.getD step.1.1 0).rotateLeft ((step.2 + 1) * (step.2 + 2) / 2 % 64))) lanes

/-- Each lane of a row takes the next two. -/
def keccakRow (row : List DWord) : List DWord :=
  List.zipWith (fun v next => v ^^^ (~~~next.1 &&& next.2)) row ((row.rotateLeft 1).zip (row.rotateLeft 2))

/-- A round with its constant. -/
def keccakStep (lanes : List DWord) (rc : DWord) : List DWord :=
  let moved := keccakMove (keccakMix (chunks 5 lanes)).flatten
  ((chunks 5 moved).map keccakRow).flatten.modify 0 (· ^^^ rc)

/-- Keccak-f[1600] on the 25 lanes, x + 5y (R168). -/
def keccakF (lanes : List DWord) : List DWord := keccakConsts.foldl keccakStep lanes

/-! One interface over both, by the codes of Table 7.6 -/

/-- Block length, or rate, in bytes (Table 7.1). -/
def hashBlock (alg : Nat) : Nat :=
  match alg with
  | 0x01 | 0x02 => 64
  | 0x03 | 0x04 => 128
  | 0x08 => 144
  | 0x09 | 0x0D => 136
  | 0x0A => 104
  | 0x0B => 72
  | _ => 168

/-- Digest length in bytes; 0 for SHAKE. -/
def hashLen (alg : Nat) : Nat :=
  match alg with
  | 0x01 | 0x08 => 28
  | 0x02 | 0x09 => 32
  | 0x03 | 0x0A => 48
  | 0x04 | 0x0B => 64
  | _ => 0

/-- An unfinished hash: its chaining value or Keccak state, the partial block and the byte count (R179). -/
structure HashCtx where
  alg : Byte := 0
  st : List DWord := []
  buf : List Byte := []
  total : Nat := 0
  deriving DecidableEq, Repr

/-- The initial chaining value. -/
def hashInit (alg : Nat) : List DWord :=
  let hi (l : List DWord) : List DWord := l.map (fun x => x.ushiftRight 32)
  let first := (primes80.take 8).map sqrtFrac
  let second := ((primes80.drop 8).take 8).map sqrtFrac
  match alg with
  | 0x01 => second.map (fun x => x &&& 0xFFFFFFFF)
  | 0x02 => hi first
  | 0x03 => second
  | 0x04 => first
  | _ => List.replicate 25 0

/-- A fresh context. -/
def HashCtx.start (alg : Nat) : HashCtx := { alg := BitVec.ofNat 8 alg, st := hashInit alg }

/-- The compression or permutation with one block. -/
def hashBlockStep (alg : Nat) (st : List DWord) (b : List Byte) : List DWord :=
  if alg < 3 then
    (compress2 rot256 ((sha512K.take 64).map (fun k => (k.ushiftRight 32).setWidth 32)) (st.map (fun x => x.setWidth 32)) b).map
      (fun x => x.setWidth 64)
  else if alg < 8 then compress2 rot512 sha512K st b
  else
    let ws := (chunks 8 b).map (fun x => BitVec.ofNat 64 (leNat x))
    keccakF (List.zipWith (· ^^^ ·) st (ws ++ List.replicate (25 - ws.length) 0))

/-- Absorbs whole blocks of the buffer. -/
def absorbLoop (fuel : Nat) (alg : Nat) (st : List DWord) (buf : List Byte) : List DWord × List Byte :=
  match fuel with
  | 0 => (st, buf)
  | n + 1 =>
    let r := hashBlock alg
    if buf.length < r then (st, buf) else absorbLoop n alg (hashBlockStep alg st (buf.take r)) (buf.drop r)

/-- Absorbs bytes. -/
def HashCtx.absorb (c : HashCtx) (l : List Byte) : HashCtx :=
  let buf := c.buf ++ l
  let (st, buf) := absorbLoop (buf.length / hashBlock c.alg.toNat + 1) c.alg.toNat c.st buf
  { c with st := st, buf := buf, total := c.total + l.length }

/-- The padding of a message. -/
def hashPad (alg total n : Nat) : List Byte :=
  let r := hashBlock alg
  if alg < 8 then
    let lenBytes := if alg < 3 then 8 else 16
    [0x80] ++ zeros ((2 * r - 1 - lenBytes - n % r) % r) ++ beBytes lenBytes (total * 8)
  else
    let d : Byte := if alg < 0x0C then 0x06 else 0x1F
    let k := r - n % r
    if k = 1 then [d ||| 0x80] else [d] ++ zeros (k - 2) ++ [0x80]

/-- Squeezes `n` bytes. -/
def squeeze (fuel : Nat) (r n : Nat) (st : List DWord) : List Byte :=
  match fuel with
  | 0 => []
  | f + 1 =>
    let out := ((st.map (fun x => leBytes 8 x.toNat)).flatten).take r
    if n ≤ r then out.take n else out ++ squeeze f r (n - r) (keccakF st)

/-- The digest, or `n` bytes of SHAKE output. -/
def HashCtx.finish (c : HashCtx) (n : Nat) : List Byte :=
  let alg := c.alg.toNat
  let buf := c.buf ++ hashPad alg c.total c.buf.length
  let (st, _) := absorbLoop 4 alg c.st buf
  if alg < 8 then ((st.map (fun x => beBytes (if alg < 3 then 4 else 8) x.toNat)).flatten).take (hashLen alg)
  else squeeze (n / hashBlock alg + 1) (hashBlock alg) (if 0x0C ≤ alg then n else hashLen alg) st

/-- A whole message, `n` bytes of output for SHAKE. -/
def hash (alg : Nat) (m : List Byte) (n : Nat := 0) : List Byte := ((HashCtx.start alg).absorb m).finish n

/-- SHA-256. -/
def sha256 (m : List Byte) : List Byte := hash 0x02 m

/-- SHA-384. -/
def sha384 (m : List Byte) : List Byte := hash 0x03 m

/-- SHA-512. -/
def sha512 (m : List Byte) : List Byte := hash 0x04 m

/-- SHAKE256. -/
def shake256 (m : List Byte) (n : Nat) : List Byte := hash 0x0D m n

/-- SHAKE128. -/
def shake128 (m : List Byte) (n : Nat) : List Byte := hash 0x0C m n

/-! HMAC, HKDF, KDF -/

/-- The contexts after the key block XORed with ipad and with opad (R172). -/
def hmacStates (alg : Nat) (key : List Byte) : HashCtx × HashCtx :=
  let r := hashBlock alg
  let k := fit r (if r < key.length then hash alg key else key)
  ((HashCtx.start alg).absorb (k.map (· ^^^ 0x36)), (HashCtx.start alg).absorb (k.map (· ^^^ 0x5C)))

/-- A chaining value as bytes, for the slot record (Table 10.5). -/
def stateBytes (c : HashCtx) : List Byte :=
  (c.st.map (fun x => beBytes (if c.alg.toNat < 3 then 4 else 8) x.toNat)).flatten

/-- A context after one block, from its chaining value as bytes. -/
def stateOf (alg : Nat) (b : List Byte) : HashCtx :=
  { alg := BitVec.ofNat 8 alg, st := (chunks (if alg < 3 then 4 else 8) b).map (fun x => BitVec.ofNat 64 (beNat x)),
    total := hashBlock alg }

/-- HMAC's end: the inner digest through the outer context. -/
def hmacFinish (inner outer : HashCtx) : List Byte := (outer.absorb (inner.finish 0)).finish 0

/-- HMAC. -/
def hmac (alg : Nat) (key m : List Byte) : List Byte :=
  let (i, o) := hmacStates alg key
  hmacFinish (i.absorb m) o

/-- HKDF-Extract. -/
def hkdfExtract (alg : Nat) (salt ikm : List Byte) : List Byte :=
  hmac alg (if salt.isEmpty then zeros (hashLen alg) else salt) ikm

/-- The blocks of HKDF-Expand under the PRK's contexts. -/
def expandLoop (st : HashCtx × HashCtx) (info : List Byte) (fuel i : Nat) (prev : List Byte) : List Byte :=
  match fuel with
  | 0 => []
  | n + 1 =>
    let t := hmacFinish (st.1.absorb (prev ++ info ++ [BitVec.ofNat 8 i])) st.2
    t ++ expandLoop st info n (i + 1) t

/-- HKDF-Expand to `n` bytes. -/
def hkdfExpand (st : HashCtx × HashCtx) (info : List Byte) (n : Nat) : List Byte :=
  let h := hashLen st.1.alg.toNat
  (expandLoop st info ((n + h - 1) / h) 1 []).take n

/-- The counter-mode KDF: a counter of `bits` bits before the fixed data (R173). -/
def kdfCtr (st : HashCtx × HashCtx) (bits : Nat) (fixed : List Byte) (n : Nat) : List Byte :=
  let h := hashLen st.1.alg.toNat
  (((List.range ((n + h - 1) / h)).map (fun i =>
    hmacFinish (st.1.absorb (beBytes (bits / 8) (i + 1) ++ fixed)) st.2)).flatten).take n

/-! CRCs -/

/-- One byte into a running CRC-32C register, reflected. -/
def crc32cByte (c : Word) (b : Byte) : Word :=
  (List.range 8).foldl (fun c _ => (c >>> 1) ^^^ (if c.getLsbD 0 then 0x82F63B78 else 0)) (c ^^^ b.setWidth 32)

/-- The running CRC-32C register over bytes. -/
def crc32cRun (c : Word) (l : List Byte) : Word := l.foldl crc32cByte c

/-- CRC-32C. -/
def crc32c (l : List Byte) : Word := ~~~(crc32cRun 0xFFFFFFFF l)

/-- The running CRC-64 register over bytes, not reflected. -/
def crc64Run (c : DWord) (l : List Byte) : DWord :=
  l.foldl (fun c b => (List.range 8).foldl (fun c _ =>
    (c <<< 1) ^^^ (if c.msb then 0x42F0E1EBA9EA3693 else 0)) (c ^^^ (b.setWidth 64).shiftLeft 56)) c

end Sys2Proof.Machine
end

