-- ==== Sys2Proof/Machine/PartsEngine.lean ====
section
/-! DEFINITION. The parts of the state that belong to the cipher lanes, digest lanes, public-key engine, random number
generator and Stipple (06_cipher_lanes.md to 09_stipple.md). A field's default is its value after reset. -/

namespace Sys2Proof.Machine

/-- Counters of the cipher lanes (CL_REPLAYS, CL_AUTH_FAIL). -/
structure CipherSt where
  replays : DWord := 0
  authFail : DWord := 0
  deriving DecidableEq, Repr

/-- Where a digest context is (R179): on a lane, on a lane while its spill is written, in the spill area with the
SPILL_CTR kept for it, or there while it is read back. -/
inductive CtxPlace where
  | lane (u : Nat)
  | spilling (u : Nat) (ctr : Nat)
  | spilled (ctr : Nat)
  | restoring (ctr : Nat)
  deriving DecidableEq, Repr

/-- A digest context (R178, R179): the unfinished hash, the outer context of HMAC, and the order of its last use. -/
structure DCtx where
  hash : HashCtx := {}
  outer : Option HashCtx := none
  place : CtxPlace := .lane 0
  used : Nat := 0
  deriving DecidableEq, Repr

/-- The digest control (R168–R191). Contexts of suspended links by tag, of sessions by 16384 + 64 f + c. -/
structure DigestSt where
  replays : DWord := 0
  ctxLost : DWord := 0
  spillEn : Bool := false
  spillAddr : BitVec 36 := 0
  spills : Word := 0
  restores : Word := 0
  spillKey : List Byte := []
  spillCtr : Nat := 0
  ctxs : List (Nat × DCtx) := []
  /-- Orders the uses of contexts (R182). -/
  useNo : Nat := 0
  deriving DecidableEq, Repr

/-- PK_RNG_STATUS.STATE. -/
inductive RngState where
  | off | startup | ready | error | repair | raw
  deriving DecidableEq, Repr

/-- The encoding of STATE. -/
def RngState.code : RngState → Nat
  | .off => 0 | .startup => 1 | .ready => 2 | .error => 3 | .repair => 4 | .raw => 5

/-- The random number generator (R216–R220). -/
structure Rng where
  intervalMs : BitVec 10 := 1000
  reqLog2 : BitVec 5 := 20
  reseed : Bool := false
  /-- A reseed is under way: requests wait (R217). -/
  reseeding : Bool := false
  restart : Bool := false
  rawMode : Bool := false
  state : RngState := .off
  /-- The STATE that RAW covers while RAW_MODE is set (R220). -/
  under : RngState := .off
  pool : Nat := 0
  lastFail : Bool := false
  reserve : List Byte := []
  reseeds : Word := 0
  healthFails : Word := 0
  drbg : DrbgState := {}
  /-- Requests since the last reseed, and its time (R217). -/
  requests : Nat := 0
  reseedAt : DWord := 0
  /-- Times of the last health failures, newest first (R218). -/
  failTimes : List DWord := []
  /-- Three failures within 1 s: STATE stays ERROR until RESTART (R218). -/
  stuck : Bool := false
  /-- Samples that have passed the start-up tests since D9 came up, up to the 1,024 of R216. -/
  passed : Nat := 0
  /-- Tags of the links whose request waits, in order of arrival (R217). -/
  waiting : List Nat := []
  /-- The model's own, empty between commands: bytes that the running link's mark gives it in place of new requests, bytes
  it has drawn, and whether other links' requests go first (R165, R207, R217). -/
  give : List Byte := []
  taken : List Byte := []
  hold : Bool := false
  deriving DecidableEq, Repr

/-- The public-key engine (R192–R215). -/
structure PkSt where
  replays : DWord := 0
  checkFail : DWord := 0
  /-- Tags of the links that hold an impression entry (R207). -/
  imps : List Nat := []
  hwm : Byte := 0
  rng : Rng := {}
  deriving DecidableEq, Repr

/-- Stipple (R237–R240). -/
structure StippleSt where
  inBytes : DWord := 0
  outBytes : DWord := 0
  verifyFails : Word := 0
  lengthFails : Word := 0
  deriving DecidableEq, Repr

end Sys2Proof.Machine
end

