-- ==== Sys2Proof/Machine/PartsFault.lean ====
section
/-! DEFINITION. The parts of the state that belong to faults, access rules, journal, tamper response, D0, power and
the ports (13_faults_repair.md, 14_protection.md, 15_power_startup.md, 16_ports.md). A field's default is its value
after reset. -/

namespace Sys2Proof.Machine

/-- A fault message waiting for the collector (Table 13.1, R320), with the access that caused it (R333). -/
structure FMsg where
  source : BitVec 12 := 0
  kind : Byte := 0
  addr : BitVec 44 := 0
  /-- Messages merged into this one (R320). -/
  merged : Nat := 0
  access : BitVec 3 := 0
  initiator : BitVec 16 := 0
  full : BitVec 57 := 0
  deriving DecidableEq, Repr

/-- One source of the collector (FC_SRC_CFG, FC_SRC_STAT, R328). -/
structure Src where
  n : Byte := 8
  wcode : BitVec 5 := 20
  sev : BitVec 3 := 0
  lock : Bool := false
  held : Nat := 0
  heldKind : Byte := 0
  acked : Bool := false
  /-- The held message fenced or restarted its unit (R324). -/
  byUnit : Bool := false
  count : Byte := 0
  winStart : DWord := 0
  total : BitVec 16 := 0
  lastKind : Byte := 0
  deriving DecidableEq, Repr

/-- The first-fault capture (R333). -/
structure Capture where
  valid : Bool := false
  overflow : Bool := false
  level : BitVec 3 := 0
  compat : Bool := false
  access : BitVec 3 := 0
  initiator : BitVec 16 := 0
  msg : DWord := 0
  time : DWord := 0
  deriving DecidableEq, Repr

/-- The fault collector (R320–R336). -/
structure Collector where
  waiting : List FMsg := []
  srcs : Tab Src := []
  compatY7 : Bool := false
  injUnlock : Bool := false
  evtMin : BitVec 3 := 1
  captureMin : BitVec 3 := 2
  rejoinMs : BitVec 16 := 1000
  lock : Bool := false
  sel : BitVec 12 := 0
  first : Capture := {}
  injSource : BitVec 12 := 0
  injClass : BitVec 4 := 0
  injCount : Byte := 0
  injLeft : Byte := 0
  injDenied : Bool := false
  unitSource : BitVec 12 := 0
  unitBusy : Bool := false
  unitErr : Bool := false
  halted : Bool := false
  /-- The L5 latch (R327, R329). -/
  lockdown : Bool := false
  /-- Stream ports that give NOT_CHECKED_REPAIR because they halted the block (R326). -/
  haltPorts : List Nat := []
  /-- The set of retired units by source number; block reset keeps it (R330). -/
  retired : List Nat := []
  deriving DecidableEq, Repr

/-- A region table entry (R347). -/
structure Region where
  valid : Bool := false
  start : BitVec 51 := 0
  last : BitVec 51 := 0
  fnMatch : BitVec 10 := 0
  fnMask : BitVec 10 := 0
  read : Bool := false
  write : Bool := false
  lock : Bool := false
  deriving DecidableEq, Repr

/-- A page-owner entry (R352, R353). -/
structure PageOwner where
  initiator : BitVec 16 := 0
  mask : BitVec 16 := 0
  world : BitVec 2 := 2
  en : Bool := true
  lock : Bool := false
  deriving DecidableEq, Repr

/-- Page-owner entry `i` after block reset (R353). -/
def PageOwner.reset (i : Nat) : PageOwner := { en := decide (i = 0 ∨ 1024 ≤ i) }

/-- A trace record (R356, R421): the type and the payload. -/
structure TraceRec where
  type : BitVec 4
  stamp : BitVec 12
  payload : DWord
  deriving DecidableEq, Repr

/-- Access rules and debug (R347–R356). -/
structure Prot where
  sel : BitVec 8 := 0
  err : BitVec 4 := 0
  stage : Region := {}
  regions : Tab Region := []
  epoch : Word := 0
  done : Bool := true
  poSel : BitVec 11 := 0
  owners : Tab PageOwner := []
  dgFn : BitVec 10 := 0
  traceEn : Bool := false
  traceWrap : Bool := false
  master : Bool := false
  trace : List TraceRec := []
  traceGap : Nat := 0
  deriving DecidableEq, Repr

/-- A journal entry before it has a PHASE (Table 14.1). -/
structure JEntry where
  seq : Word := 0
  type : Byte := 0
  flags : Byte := 0
  initiator : BitVec 16 := 0
  time : DWord := 0
  detail : List Byte := []
  /-- Events lost, for an OVERFLOW marker. -/
  lost : Nat := 0
  deriving DecidableEq, Repr

/-- The open OVERFLOW marker (R359). -/
structure JMarker where
  count : Nat
  firstSeq : Word
  lastSeq : Word
  firstTime : DWord
  lastTime : DWord
  deriving DecidableEq, Repr

/-- The configuration journal (R357–R359). -/
structure Journal where
  base : BitVec 45 := 0
  en : Bool := false
  size : BitVec 4 := 0
  lock : Bool := false
  prod : Word := 0
  cons : Word := 0
  lost : Word := 0
  seq : Word := 0
  shadow : List JEntry := []
  marker : Option JMarker := none
  deriving DecidableEq, Repr

/-- A tamper record (Table 14.6). -/
structure TamperRec where
  cause : BitVec 5
  response : BitVec 2
  onCell : Bool
  time : DWord
  deriving DecidableEq, Repr

/-- One alarm line's configuration in D0 (R362), with its lock, which is in D1. -/
structure LineCfg where
  en : Bool := false
  response : BitVec 2 := 0
  deriving DecidableEq, Repr

/-- The batch descriptor of Table 10.9: slots and the leaf counters they are written with. -/
structure BatchDesc where
  entries : List (BitVec 19 × BitVec 56)
  deriving DecidableEq, Repr

/-- The descriptor's slots and counters as numbers. -/
def BatchDesc.pairs (d : BatchDesc) : List (Nat × Nat) := d.entries.map (fun p => (p.1.toNat, p.2.toNat))

/-- D0: the always-on vault root domain (Table 10.9, R362, R370, R390, R327). Its values after the first power-up:
log 6. -/
structure D0 where
  /-- The validity check: CRC-32C over the items of Table 10.9. At 0 it does not fit the items of an empty D0 (log 6). -/
  crc : Word := 0
  tamperSecret : BitVec 256 := 0
  burnished : Bool := false
  root : List (BitVec 56) := [0, 0, 0]
  epoch : Word := 0
  sweepPos : BitVec 19 := 0
  sweepActive : Bool := false
  batch : Option BatchDesc := none
  lines : Tab LineCfg := []
  records : List TamperRec := []
  recLost : Byte := 0
  lossTime : DWord := 0
  bootCount : Word := 0
  l5 : Option DWord := none
  /-- Main power is absent and D0 runs from the cell (R393). -/
  onCell : Bool := false
  deriving DecidableEq, Repr

/-- The sentinel's tamper registers (R361–R371). -/
structure Tamper where
  levels : BitVec 16 := 0
  locks : BitVec 16 := 0
  erased : Bool := false
  cell : Cell := .good
  testLine : BitVec 4 := 0
  testWindow : BitVec 10 := 0
  testBusy : Bool := false
  testResult : BitVec 2 := 0
  /-- Time of the last test of each line (R366). -/
  lastTest : Tab (Option DWord) := []
  stim : BitVec 16 := 0
  supp : BitVec 16 := 0
  /-- The latched life-cycle state (R360; log 7). -/
  lcs : BitVec 3 := 0
  deriving DecidableEq, Repr

/-- PW_STATUS.PHASE. -/
inductive BootPhase where
  | sentinel | backup | boot | firmware | kat | unseal | ready | stopped
  deriving DecidableEq, Repr

/-- The encoding of PHASE. -/
def BootPhase.code : BootPhase → Nat
  | .sentinel => 0 | .backup => 1 | .boot => 2 | .firmware => 3 | .kat => 4 | .unseal => 5 | .ready => 6
  | .stopped => 7

/-- PW_DOM_STAT.STATE. -/
inductive DomState where
  | off | ramp | restore | lock | on | heldOff | gated | failed
  deriving DecidableEq, Repr

/-- The encoding of PW_DOM_STAT.STATE. -/
def DomState.code : DomState → Nat
  | .off => 0 | .ramp => 1 | .restore => 2 | .lock => 3 | .on => 4 | .heldOff => 5 | .gated => 6 | .failed => 7

/-- Why a domain was switched (R343, R378, R382, R384). -/
inductive DomWhy where
  | none | startup | restart | holdOff | release | gate | wake | retired
  deriving DecidableEq, Repr

/-- One switched domain (R376–R382). -/
structure Dom where
  state : DomState := .off
  req : Bool := false
  ack : Bool := false
  ret : Bool := false
  holdOff : Bool := false
  restarts : BitVec 16 := 0
  why : DomWhy := .none
  /-- Time of the request that has not been acknowledged (R380, R343). -/
  reqAt : DWord := 0
  /-- The acknowledgement of the request at hand is overdue: DOMAIN_FAIL has been raised and its condition lasts (R323,
  R380). -/
  late : Bool := false
  deriving DecidableEq, Repr

/-- Power, clocks and start-up (R376–R394). -/
structure Power where
  phase : BootPhase := .sentinel
  stopStep : BitVec 3 := 0
  backupLost : Bool := false
  tamperFound : Bool := false
  refOk : Bool := false
  holdover : Bool := false
  readyTime : DWord := 0
  domSel : BitVec 6 := 0
  domErr : Bool := false
  doms : Tab Dom := []
  /-- `rst_por_i`, `rst_blk_i` asserted. -/
  porAsserted : Bool := false
  blkAsserted : Bool := false
  /-- PW_POWER.EST and the number drawn (log 22). -/
  est : Byte := 0
  deriving DecidableEq, Repr

/-- Who asked for a fabric access: it decides the consequence of a failure (R403). -/
inductive Who where
  | ringHeader (ring : Nat)
  | ringEntry (ring : Nat)
  | ringTable (ring : Nat)
  | headerWrite (ring : Nat)
  | completion (ring : Nat)
  | event (fn : Nat)
  | journal
  | link (tag : Nat)
  | chainSpill (tag : Nat)
  | context (fn ctx : Nat)
  | linkContext (tag : Nat)
  | vaultRead (slot : Nat)
  | vaultWrite
  | blobWrite
  | sweep
  | dmaRead (ch burst : Nat)
  | dmaWrite (ch burst : Nat)
  | dmaCrc (ch : Nat)
  | bootImage
  | debug
  deriving DecidableEq, Repr

/-- A fabric request the block has issued (Table 16.4), with its write data. -/
structure FabReq where
  id : Nat
  who : Who
  fn : Nat
  world : Bool
  addr : Nat
  len : Nat
  write : Bool
  data : List Byte := []
  durable : Bool := false
  ctrl : Bool := false
  portB : Bool := false
  retries : Nat := 0
  /-- GC_FABRIC.RETRY as it was when the transaction was issued (R403, GC_FABRIC). -/
  maxRetries : BitVec 3 := 3
  /-- Waits for its retry timer (R403). -/
  backoff : Bool := false
  /-- TID (Table 16.4); none where all 1,024 were in use when the request entered the queue (log 158). -/
  tid : Option (BitVec 10) := none
  deriving DecidableEq, Repr

/-- A transaction that timed out: its TID is not used again until its answer arrives or the port's up signal falls (R403). -/
structure LateTid where
  id : Nat
  portB : Bool
  tid : BitVec 10
  deriving DecidableEq, Repr

/-- A message on `fi_msg` (Table 16.11). -/
structure FiMsg where
  reset : Bool
  fn : Nat
  vector : Nat
  wake : Bool
  /-- Pool vector of an INTERRUPT. -/
  pool : Nat
  deriving DecidableEq, Repr

/-- An answer on `rp_rsp` (Table 16.10). -/
structure RpAns where
  rdata : DWord
  tag : BitVec 5
  error : Bool
  deriving DecidableEq, Repr

/-- A transfer in a channel: whether it is descriptor, completion, event or vault traffic, its function, and whether a
fence had it issued again (R22). -/
structure Xfer where
  ctrl : Bool := true
  fn : Nat := 0
  again : Bool := false
  deriving DecidableEq, Repr

/-- A credit channel (R396–R398): the credits its sender holds, transfers the block has queued, first to leave first, and
transfers sent. -/
structure Chan where
  credits : Nat := 0
  queued : List Xfer := []
  sent : Nat := 0
  deriving DecidableEq, Repr

/-- The ports (16_ports.md). -/
structure Ports where
  fpaUp : Bool := false
  fpbUp : Bool := false
  rpUp : Bool := false
  fiUp : Bool := false
  retry : BitVec 3 := 3
  timeoutUs : BitVec 16 := 100
  nRetries : Word := 0
  nTimeouts : Word := 0
  nextId : Nat := 0
  /-- Outstanding fabric transactions. -/
  txns : List FabReq := []
  /-- Transactions that timed out and whose TIDs are still held (R403). -/
  late : List LateTid := []
  chans : Tab Chan := []
  /-- Messages handed over and not yet answered, oldest first (R410). -/
  fiWait : List FiMsg := []
  /-- RESET_COMPLETE messages that were refused and are to be offered again (R410). -/
  fiAgain : List Nat := []
  /-- Transfers the block has made, newest first: the model's record of what left the block (log 4). -/
  fabOut : List FabReq := []
  fiOut : List FiMsg := []
  rpOut : List RpAns := []
  /-- Beats on the trace output (R421). -/
  trOut : List (BitVec 16) := []
  fiMode : Bool := false
  ukReq : Bool := false
  /-- The identity latched by start-up step 1 (R415; log 7). -/
  ident : Identity := { lot := 0, wafer := 0, diex := 0, diey := 0, inst := 0, lcs := 0, mfr := 0, fiMode := false, valid := false }
  tm : DWord := 0
  tmTog : Bool := false
  /-- TAP instruction register, DBG_ACCESS data register and its status (R420). -/
  tapIr : BitVec 5 := 2
  tapDr : BitVec 128 := 0
  tapStatus : BitVec 2 := 0
  deriving DecidableEq, Repr

end Sys2Proof.Machine
end

