-- ==== Sys2Proof/Machine/PartsMail.lean ====
section
/-! DEFINITION. The parts of the state that belong to mailboxes and the DMA mover (12_mailboxes_dma.md). A field's
default is its value after reset. -/

namespace Sys2Proof.Machine

/-- A message held in a receive buffer (Table 12.1). -/
structure MbMsg where
  words : List Word
  stamp : Word
  initiator : BitVec 16
  deriving DecidableEq, Repr

/-- A one-way mailbox path: its send block, SEQ and ERR, its receive buffer and overrun count (R302–R304). -/
structure MbPath where
  tx : List Word := List.replicate 14 0
  seq : BitVec 16 := 0
  err : Bool := false
  rx : Option MbMsg := none
  ovr : BitVec 16 := 0
  deriving DecidableEq, Repr

/-- FN_MB_STAT's RW fields (R308). -/
structure MbStat where
  vecEn : Bool := false
  vector : BitVec 14 := 0
  deriving DecidableEq, Repr

/-- The mailbox fabric (R302–R309). -/
structure Mailboxes where
  toBurin : Tab MbPath := []
  fromBurin : Tab MbPath := []
  stat : Tab MbStat := []
  senTo : MbPath := {}
  senFrom : MbPath := {}
  vsTo : MbPath := {}
  vsFrom : MbPath := {}
  sel : BitVec 10 := 0
  dropped : BitVec 16 := 0
  deriving DecidableEq, Repr

/-- DM_STAT.STATE. -/
inductive DmaState where
  | idle | run | pausing | paused | done | halted | stopping
  deriving DecidableEq, Repr

/-- The encoding of DM_STAT.STATE. -/
def DmaState.code : DmaState → Nat
  | .idle => 0 | .run => 1 | .pausing => 2 | .paused => 3 | .done => 4 | .halted => 5 | .stopping => 6

/-- Where a burst stands (R315–R318). -/
inductive BurstPhase where
  | reading | readRetry | writing | writeRetry | written
  deriving DecidableEq, Repr

/-- A burst of a channel, from its read to the write response of its prefix. -/
structure Burst where
  no : Nat
  src : Nat
  dst : Nat
  len : Nat
  data : List Byte := []
  phase : BurstPhase := .reading
  tries : Nat := 0
  deriving DecidableEq, Repr

/-- A DMA channel (R313–R319). -/
structure DmaCh where
  prio : BitVec 3 := 0
  retry : BitVec 3 := 0
  crcKind : Bool := false
  crcStore : Bool := false
  srcSpace : BitVec 2 := 0
  dstSpace : BitVec 2 := 0
  src : BitVec 57 := 0
  dst : BitVec 57 := 0
  remain : Word := 0
  crc : DWord := 0
  state : DmaState := .idle
  err : BitVec 4 := 0
  retries : BitVec 3 := 0
  bursts : List Burst := []
  /-- Bytes issued beyond the registers, and the number of the next burst. -/
  ahead : Nat := 0
  nextNo : Nat := 0
  /-- The error the channel halts with once its outstanding writes have ended; 0 none (R318). -/
  ending : Nat := 0
  /-- The CRC has been written and its response is awaited (R316). -/
  crcOut : Bool := false
  /-- Retries made of the CRC's write, and its wait before the next (R318). -/
  crcTries : Nat := 0
  crcWait : Bool := false
  /-- The channel was started by the boot ROM (R313). -/
  byRom : Bool := false
  deriving DecidableEq, Repr

/-- The DMA mover. -/
structure Dma where
  chs : Tab DmaCh := []
  done : Word := 0
  /-- Channel last served, plus 1 (R315; log 20). -/
  last : Nat := 0
  deriving DecidableEq, Repr

end Sys2Proof.Machine
end

