-- ==== Sys2Proof/Machine/PartsStream.lean ====
section
/-! DEFINITION. The parts of the state that belong to the stream ports, their key map and stream table
(05_stream_verifier.md). A field's default is its value after reset. -/

namespace Sys2Proof.Machine

/-- ST_PSTATUS.STATE. -/
inductive PortState where
  | off | run | restart | draining
  deriving DecidableEq, Repr

/-- The encoding of STATE. -/
def PortState.code : PortState → Nat
  | .off => 0 | .run => 1 | .restart => 2 | .draining => 3

/-- The verdict codes (Table 5.3). -/
inductive Verdict where
  | pass | failTag | noKey | keyExpired | replay | malformed | lenMismatch | unprotected | overload | repair | truncated
  deriving DecidableEq, Repr

/-- Table 5.3. -/
def Verdict.code : Verdict → Nat
  | .pass => 0 | .failTag => 1 | .noKey => 2 | .keyExpired => 3 | .replay => 4 | .malformed => 5 | .lenMismatch => 6
  | .unprotected => 7 | .overload => 8 | .repair => 9 | .truncated => 10

/-- A key map entry (ST_KM_ENTRY). -/
structure KmEnt where
  valid : Bool := false
  active : Bool := false
  failed : Bool := false
  replayReq : Bool := false
  pending : Bool := false
  form : BitVec 3 := 0
  ports : BitVec 4 := 0
  appid : BitVec 16 := 0
  keyId : Word := 0
  slot : BitVec 19 := 0
  recMode : BitVec 2 := 0
  fn : BitVec 10 := 0
  failLimit : BitVec 16 := 0
  failCount : BitVec 16 := 0
  /-- ACT_TIME of the pending ACTIVATE (R132). -/
  actTime : DWord := 0
  /-- Its first KEY_EXPIRED verdict has written its record (R131). -/
  expired : Bool := false
  deriving DecidableEq, Repr

/-- A stream table entry (ST_SS_ENTRY, ST_SS_WIN). -/
structure SsEnt where
  valid : Bool := false
  seeded : Bool := false
  ports : BitVec 4 := 0
  srcKind : BitVec 2 := 0
  fresh : BitVec 2 := 0
  appid : BitVec 16 := 0
  wrap : BitVec 16 := 0
  src : BitVec 128 := 0
  hi : DWord := 0
  win : DWord := 0
  deriving DecidableEq, Repr

/-- What the parser read of a frame (R126, R127): its kind (0 sampled values, 1 GOOSE, 2 routable), source, key
identifier, algorithm, IV, authentication value, span and freshness fields. -/
structure Parsed where
  kind : Nat := 0
  appid : BitVec 16 := 0
  srcKind : BitVec 2 := 0
  src : BitVec 128 := 0
  keyId : Word := 0
  alg : Byte := 0
  iv : List Byte := []
  value : List Byte := []
  span : List Byte := []
  smpCnt : Nat := 0
  stNum : Nat := 0
  sqNum : Nat := 0
  spdu : Nat := 0
  deriving DecidableEq, Repr

/-- A frame that has looked up its key and waits for its tag (R129, R133, R137). -/
structure Job where
  seq : Word
  first : DWord
  last : DWord
  parsed : Parsed
  /-- Key map entry used, its contents at the lookup, and the key material of its slot then. -/
  entry : Nat
  km : KmEnt
  key : List Byte
  rolled : Bool
  overcap : Bool
  /-- Compressions (R137). -/
  q : Nat
  /-- Position of its first beat in the FIFO, beats stored, and beats that its tag unit has absorbed (R122). -/
  pos : Nat
  beats : Nat
  read : Nat := 0
  /-- The tag unit at work, by its source number. -/
  unit : Option Nat := none
  /-- The unit has absorbed the whole frame and is free again. -/
  done : Bool := false
  replayed : Bool := false
  /-- The entry has been changed since the lookup (R133). -/
  stale : Bool := false
  deriving DecidableEq, Repr

/-- A frame in the FIFO that the parser has not decided: its stages run from `pos`, one for each beat, at most 288. -/
structure Queued where
  seq : Word
  bytes : List Byte
  truncated : Bool
  first : DWord
  last : DWord
  pos : Nat
  /-- Beats that the parser, or the unit that hashes along, has absorbed (R122). -/
  read : Nat := 0
  /-- OWED and the HMAC units in service at its first beat (R138). -/
  owed : Nat := 0
  units : Nat := 0
  /-- Its compressions as an HMAC frame, 0 for any other. -/
  q : Nat := 0
  deriving DecidableEq, Repr

/-- A gap marker (Table 5.4), behind the beats of the frame that it cut, if any. -/
structure Gap where
  first : Word
  last : Word
  count : Word
  cut : Bool
  tFirst : DWord
  tLast : DWord
  isOpen : Bool
  /-- The first stage that it holds: the first beat of the frame it cut, or its own. -/
  pos : Nat
  deriving DecidableEq, Repr

/-- What waits in the ingress FIFO for the parser (R121). -/
inductive FifoItem where
  | frame (f : Queued)
  | gap (g : Gap)
  deriving DecidableEq, Repr

/-- A stream port. -/
structure SPort where
  en : Bool := false
  recUnmatched : Bool := false
  udp : BitVec 16 := 102
  state : PortState := .off
  nextSeq : Word := 0
  /-- Stages written so far, beats and markers; modulo 512 it is the write count (R121). -/
  written : Nat := 0
  fifo : List FifoItem := []
  jobs : List Job := []
  /-- Tag units in the order in which they last became free, the first of them first (R137). -/
  freed : List Nat := []
  occHwm : BitVec 9 := 0
  owedHwm : BitVec 16 := 0
  /-- Verdict counters, then OVERCAP, gap markers, rewinds, ROLLED, frames numbered (Table 5.6). -/
  counts : Tab DWord := []
  overcap : DWord := 0
  gaps : DWord := 0
  rewinds : DWord := 0
  rolled : DWord := 0
  numbered : DWord := 0
  /-- Verdict words presented, newest first, with their times: the model's record (log 4). -/
  out : List (BitVec 128 × DWord) := []
  deriving DecidableEq, Repr

/-- The stream verifier. -/
structure StreamSt where
  ports : Tab SPort := []
  kmSel : BitVec 12 := 0
  kmErr : BitVec 4 := 0
  kmBusy : Bool := false
  /-- The slot replaced or invalidated by the change that BUSY stands for, and the entry (R133). -/
  kmOld : Option (Nat × Nat) := none
  kmStage : KmEnt := {}
  /-- A COMMIT that waits for the read of its slot: the entry and its new contents (R132). -/
  kmWait : Option (Nat × KmEnt) := none
  kmAct : DWord := 0
  km : Tab KmEnt := []
  ssSel : BitVec 13 := 0
  ssErr : BitVec 4 := 0
  ssStage : SsEnt := {}
  ssWin : DWord := 0
  ss : Tab SsEnt := []
  deriving DecidableEq, Repr

end Sys2Proof.Machine
end

