-- ==== Sys2Proof/Machine/PartsVault.lean ====
section
/-! DEFINITION. The parts of the state that belong to the plate vault (10_plate_vault.md). A field's default is its value
after reset. -/

namespace Sys2Proof.Machine

/-- PV_STATUS.STATE. -/
inductive VaultState where
  | closed | opening | vopen | recovering | erased
  deriving DecidableEq, Repr

/-- The encoding of STATE. -/
def VaultState.code : VaultState → Nat
  | .closed => 0 | .opening => 1 | .vopen => 2 | .recovering => 3 | .erased => 4

/-- A registered authority slot (Table 10.11). -/
structure RegSlot where
  attr : Attr := {}
  area : List Byte := []
  locked : Bool := false
  deriving DecidableEq, Repr

/-- A batch (R255): the slots with their new contents and the tags that wait for it. -/
structure Batch where
  slots : List (Nat × SlotEnt) := []
  /-- The registered slots, when the batch rewrites the authority image (R262). -/
  regs : Option (Tab RegSlot) := none
  /-- Tags of the links that depend on it. -/
  waits : List Nat := []
  closed : Bool := false
  /-- Its writes are issued, its descriptor is in D0 (R255). -/
  issued : Bool := false
  /-- The nodes it rewrites, with their new counters, and the roots it increments. -/
  nodes : List (Nat × List Nat) := []
  roots : List Nat := []
  recovery : Bool := false
  /-- Slots that leave the cache when it commits (R252, R259). -/
  evicts : List Nat := []
  /-- Where a sweep resumes once it has committed (R269). -/
  sweptTo : Option Nat := none
  /-- A sweep with CLEAR 1 frees what lies beneath a failing item: its place (Table 13.3, form S) and index (R270). -/
  clear : Option (Nat × Nat) := none
  deriving DecidableEq, Repr

/-- The plate vault. -/
structure VaultSt where
  valid : Bool := false
  addr : BitVec 36 := 0
  lock : Bool := false
  blobValid : Bool := false
  blobAddr : BitVec 36 := 0
  blobLock : Bool := false
  state : VaultState := .closed
  fresh : Bool := false
  winSel : BitVec 10 := 0
  wins : Tab (BitVec 19 × BitVec 20) := []
  misses : Word := 0
  recWrites : Word := 0
  fails : Word := 0
  lastSlot : BitVec 19 := 0
  lastLevel : BitVec 3 := 0
  /-- The unit key of the identity port and the derived root keys VR and UR (R261); empty while not unsealed. -/
  vr : List Byte := []
  ur : List Byte := []
  /-- The slot cache and the node cache: nodes by level × 65536 + index, each with its eight counters (R258). -/
  slots : List (Nat × SlotEnt) := []
  nodes : List (Nat × List Nat) := []
  regs : Tab RegSlot := []
  /-- Slots whose reads are in flight (R254), and those read a second time after a failure (R250 step 3). -/
  reading : List Nat := []
  reread : List Nat := []
  /-- Links that wait for a slot's read: tag and slot. -/
  waiters : List (Nat × Nat) := []
  /-- Slots whose lookup waits: for recovery, for the vault engine's repair, or for room in a cache (R19, R256, R258). -/
  parked : List Nat := []
  /-- Slots of the descriptor that recovery has read and settled, with what it kept (R256). -/
  recovered : List (Nat × Option SlotEnt) := []
  batches : List Batch := []
  /-- Recovery of the descriptor is due before a further batch or lookup (R256, R260). -/
  recoverDue : Bool := false
  stopped : Bool := false
  sweepClear : Bool := false
  sweepRate : BitVec 16 := 0
  /-- The slot at which the sweep works (R269). -/
  sweepAt : Nat := 0
  /-- PV_REGION.VALID was cleared: the vault closes when its batches have committed (R245). -/
  closing : Bool := false
  useNo : Nat := 0
  deriving DecidableEq, Repr

end Sys2Proof.Machine
end

