-- ==== Sys2Proof/Machine/State.lean ====
section
/-! DEFINITION. The state of the block: every register, table, queue, counter, mode and pin the manual gives it, the
queue of waiting commands, and the reasons a step can stop. The parts are in the Parts files. -/

namespace Sys2Proof.Machine

structure State where
  /-- The commands that wait, first in, first out. -/
  pending : List Instr := []
  /-- Free values drawn so far (the model's own, log 3). -/
  freeCount : Nat := 0
  fx : FnTable := {}
  rt : RingTable := {}
  sq : Seq := {}
  pf : Profile := {}
  vecs : Tab Vec := []
  units : Tab Lane := []
  fc : Collector := {}
  pr : Prot := {}
  jn : Journal := {}
  d0 : D0 := {}
  ts : Tamper := {}
  pw : Power := {}
  po : Ports := {}
  cl : CipherSt := {}
  dg : DigestSt := {}
  pk : PkSt := {}
  sp : StippleSt := {}
  st : StreamSt := {}
  vt : VaultSt := {}
  bu : Burin := {}
  mb : Mailboxes := {}
  dm : Dma := {}
  deriving DecidableEq, Repr

/-- The machine right after reset: start-up has not begun (PHASE SENTINEL), every register at the value its table
gives, nothing waiting. -/
def State.reset : State := {}

/-- Why a step stops with a fault: no command of this block does. Every command has an effect, which may be that nothing
changes (log 2), so the type has no constructor. Safe: no state is hidden behind a stop. -/
inductive Fault where
  deriving DecidableEq, Repr

/-- Why a step is refused. -/
inductive Refusal where
  /-- Raised by an arm of `exec` that has no meaning yet. Safe: nothing can be proved of it. -/
  | notModelled (mnemonic : String)
  deriving DecidableEq, Repr

end Sys2Proof.Machine
end

