-- ==== Sys2Proof/Machine/Ops.lean ====
section
/-! DEFINITION. The named operations over the state: entries of the tables, the fabric (R347, R399–R405), fault
messages (R320), event records (R49–R53), vectors (R111–R115), the function port (R410) and the journal
(R357–R359). -/

namespace Sys2Proof.Machine

/-! Table entries -/

/-- Function `f` (R24). -/
def State.fn (s : State) (f : Nat) : Fn := s.fx.fns.get {} f

/-- Sets function `f`. -/
def State.setFn (s : State) (f : Nat) (v : Fn) : State :=
  { s with fx := { s.fx with fns := s.fx.fns.set {} f v } }

/-- Changes function `f`. -/
def State.modFn (s : State) (f : Nat) (g : Fn → Fn) : State := s.setFn f (g (s.fn f))

/-- Pool ring `r`. -/
def State.ring (s : State) (r : Nat) : Ring := s.rt.rings.get {} r

/-- Sets pool ring `r`. -/
def State.setRing (s : State) (r : Nat) (v : Ring) : State :=
  { s with rt := { s.rt with rings := s.rt.rings.set {} r v } }

/-- Changes pool ring `r`. -/
def State.modRing (s : State) (r : Nat) (g : Ring → Ring) : State := s.setRing r (g (s.ring r))

/-- Pool vector `v`. -/
def State.vec (s : State) (v : Nat) : Vec := s.vecs.get {} v

/-- Sets pool vector `v`. -/
def State.setVec (s : State) (v : Nat) (x : Vec) : State := { s with vecs := s.vecs.set {} v x }

/-- Lane, core or unit by its source number (Table 13.2). -/
def State.unit (s : State) (u : Nat) : Lane := s.units.get {} u

/-- Sets a unit. -/
def State.setUnit (s : State) (u : Nat) (x : Lane) : State := { s with units := s.units.set {} u x }

/-- Changes a unit. -/
def State.modUnit (s : State) (u : Nat) (g : Lane → Lane) : State := s.setUnit u (g (s.unit u))

/-- Collector source `n`. -/
def State.src (s : State) (n : Nat) : Src := s.fc.srcs.get {} n

/-- Sets a collector source. -/
def State.setSrc (s : State) (n : Nat) (x : Src) : State :=
  { s with fc := { s.fc with srcs := s.fc.srcs.set {} n x } }

/-- Domain `d`. -/
def State.dom (s : State) (d : Nat) : Dom := s.pw.doms.get {} d

/-- Sets domain `d`. -/
def State.setDom (s : State) (d : Nat) (x : Dom) : State :=
  { s with pw := { s.pw with doms := s.pw.doms.set {} d x } }

/-- The tag table's entry, if the tag is held (R97). -/
def State.tag? (s : State) (t : Nat) : Option TagEnt :=
  match s.sq.tags.find? (fun p => p.1 == t) with
  | some (_, e) => some e
  | none => none

/-- Sets a held tag's entry. -/
def State.setTag (s : State) (t : Nat) (e : TagEnt) : State :=
  { s with sq := { s.sq with tags := s.sq.tags.insert t e } }

/-- A packet in flight. -/
def State.flight (s : State) (n : Nat) : Flight := s.sq.flights.get {} n

/-- Sets a packet in flight. -/
def State.setFlight (s : State) (n : Nat) (x : Flight) : State :=
  { s with sq := { s.sq with flights := s.sq.flights.set {} n x } }

/-- Whether a number lies in a range. -/
def inRange (base count x : Nat) : Bool := decide (base ≤ x ∧ x < base + count)

/-- The function that owns pool ring `r` (R25). -/
def State.ringOwner (s : State) (r : Nat) : Option Nat :=
  (s.fx.fns.find? (fun p => decide (p.2.state ≠ .unbound) &&
    inRange p.2.entry.ringBase.toNat p.2.entry.ringCount.toNat r)).map (·.1)

/-- The function that owns pool vector `v` (R25). -/
def State.vecOwner (s : State) (v : Nat) : Option Nat :=
  (s.fx.fns.find? (fun p => decide (p.2.state ≠ .unbound) &&
    inRange p.2.entry.vecBase.toNat p.2.entry.vecCount.toNat v)).map (·.1)

/-- Local number of a pool ring in its function. -/
def State.localRing (s : State) (f r : Nat) : Nat := r - (s.fn f).entry.ringBase.toNat

/-- A unit without a spare is fenced or under test: it issues nothing and takes no new work (R19). -/
def State.stopped (s : State) (u : Nat) : Bool :=
  decide ((s.unit u).role = .fenced) || decide ((s.unit u).role = .proofing)


/-- Draws the next number for a free value (log 3). -/
def State.draw (s : State) : Nat × State := (s.freeCount, { s with freeCount := s.freeCount + 1 })

/-! Fault messages -/

/-- Base level of a kind (Table 13.4). -/
def baseLevel (kind : Nat) : Nat :=
  match kind with
  | 0x01 | 0x02 | 0x04 | 0x05 | 0x09 | 0x0C | 0x24 | 0x31 | 0x33 | 0x37 => 3
  | 0x03 | 0x10 | 0x14 | 0x30 | 0x32 | 0x42 => 1
  | 0x06 | 0x07 | 0x08 | 0x11 | 0x12 | 0x13 | 0x18 | 0x21 | 0x23 | 0x25 | 0x26 | 0x34 | 0x36 | 0x38 | 0x41 => 2
  | 0x20 => 4
  | 0x43 => 5
  | _ => 0

/-- A kind that is always classified at its base level (Table 13.4), with EXHAUSTED of the fabric pool at L4. -/
def fixedLevel (source kind : Nat) : Option Nat :=
  if kind = 0x20 then some 4
  else if kind = 0x42 then some 1
  else if kind = 0x43 then some 5
  else if kind = 0x09 ∧ source = 0x304 then some 4
  else none

/-- A fencing kind (Table 13.4). -/
def fences (kind : Nat) : Bool :=
  [0x01, 0x02, 0x03, 0x04, 0x05, 0x24, 0x31, 0x33, 0x37].contains kind

/-- Form O of the address (Table 13.3). -/
def formO (tag : Option Nat) (fn : Nat) : BitVec 44 :=
  BitVec.ofNat 44 ((tag.getD 0x3FFF) + fn * 2 ^ 14)

/-- Form A of the address (Table 13.3): bits [56:13] of the access. -/
def formA (addr : Nat) : BitVec 44 := BitVec.ofNat 44 (addr / 2 ^ 13)

/-- Form R of the address (Table 13.3). -/
def formR (off init : Nat) (world : Bool) : BitVec 44 :=
  BitVec.ofNat 44 (off % 2 ^ 25 + init * 2 ^ 25 + b2n world * 2 ^ 41)

/-- Form S of the address (Table 13.3). -/
def formS (slot place : Nat) : BitVec 44 := BitVec.ofNat 44 (slot + place * 2 ^ 19)

/-- Form B of the address (Table 13.3). -/
def formB (epc cause : Nat) : BitVec 44 := BitVec.ofNat 44 (epc + cause * 2 ^ 32)

/-- Merges a further message of a source into the one that waits (R320). -/
def mergeMsg (old new : FMsg) : FMsg :=
  if baseLevel new.kind.toNat < baseLevel old.kind.toNat then { old with merged := old.merged + 1 }
  else { new with merged := old.merged + 1 }

/-- Puts a message among the waiting ones, merged with its source's (R320). -/
def enqueueMsg (l : List FMsg) (m : FMsg) : List FMsg :=
  match l with
  | [] => [m]
  | o :: r => if o.source = m.source then mergeMsg o m :: r else o :: enqueueMsg r m

/-- A checker holds its message until the collector accepts it (R320). -/
def State.raiseMsg (s : State) (m : FMsg) : State :=
  { s with fc := { s.fc with waiting := enqueueMsg s.fc.waiting m } }

/-- Raises a message of a kind that no access caused (R333). -/
def State.raise (s : State) (source kind : Nat) (addr : BitVec 44) : State :=
  s.raiseMsg { source := BitVec.ofNat 12 source, kind := BitVec.ofNat 8 kind, addr := addr }

/-- Raises a message that a fabric access caused: form A, with the function as initiator (R333). -/
def State.raiseFabric (s : State) (source kind fn addr : Nat) (write : Bool) : State :=
  s.raiseMsg { source := BitVec.ofNat 12 source, kind := BitVec.ofNat 8 kind, addr := formA addr,
               access := if write then 2 else 1, initiator := BitVec.ofNat 16 fn, full := BitVec.ofNat 57 addr }

/-- Raises a message that an instruction fetch of Burin caused: form B, with the fetch's address (R333). -/
def State.raiseFetch (s : State) (source kind : Nat) (addr : BitVec 44) (initiator : BitVec 16) (pc : Word) : State :=
  s.raiseMsg { source := BitVec.ofNat 12 source, kind := BitVec.ofNat 8 kind, addr := addr, access := 5,
               initiator := initiator, full := pc.setWidth 57 }

/-- Raises a message that a register access caused: form R (R333). -/
def State.raiseReg (s : State) (source kind off init : Nat) (world write : Bool) : State :=
  s.raiseMsg { source := BitVec.ofNat 12 source, kind := BitVec.ofNat 8 kind, addr := formR off init world,
               access := if write then 4 else 3, initiator := BitVec.ofNat 16 init, full := BitVec.ofNat 57 off }

/-- `sen_fault_o`: a record at L2 or higher is held (R332). -/
def State.senFault (s : State) : Bool := s.fc.srcs.any (fun p => decide (2 ≤ p.2.held))

/-! Credits -/

/-- Number of a channel. -/
def chanNo : Channel → Nat
  | .fpaReq => 0 | .fpbReq => 1 | .fpaWd => 2 | .fpbWd => 3 | .fpaRd => 4 | .fpbRd => 5 | .fpaRsp => 6
  | .fpbRsp => 7 | .rpReq => 8 | .rpRsp => 9 | .fiMsg => 10 | .fiMacc => 11 | .fiEvt => 12

/-- Waiting transfer `x` goes ahead of `y`, which waits before it: other traffic before lane data, but not past one that
was issued again for the same function, whose order a fence keeps (R22). -/
def Xfer.passes (x y : Xfer) : Bool := x.ctrl && !y.ctrl && !(x.again && y.again && decide (x.fn = y.fn))

/-- Puts a transfer behind the last waiting one that it does not pass. -/
def Xfer.enter (x : Xfer) (l : List Xfer) : List Xfer :=
  match l with
  | [] => [x]
  | y :: r => if (y :: r).all x.passes then x :: y :: r else y :: x.enter r

/-- `n` transfers enter a channel: they wait for credits in order, or on a single port with other traffic before lane
data (R22, R397); those that have a credit are sent. -/
def Chan.push (c : Chan) (n : Nat) (x : Xfer := {}) (single : Bool := false) : Chan :=
  let l := (List.replicate n x).foldl (fun l x => if single then x.enter l else l ++ [x]) c.queued
  let go := min l.length c.credits
  { credits := c.credits - go, queued := l.drop go, sent := c.sent + go }

/-- `n` credits come back; waiting transfers use them (R397). -/
def Chan.credit (c : Chan) (n : Nat) : Chan :=
  let go := min c.queued.length (c.credits + n)
  { credits := c.credits + n - go, queued := c.queued.drop go, sent := c.sent + go }

/-- Transfers enter a channel. -/
def State.pushChan (s : State) (c : Channel) (n : Nat) (x : Xfer := {}) (single : Bool := false) : State :=
  { s with po := { s.po with chans := s.po.chans.modify {} (chanNo c) (·.push n x single) } }

/-! The fabric -/

/-- A region entry covers the access, matches its function and grants its direction (R347). -/
def Region.covers (r : Region) (fn addr len : Nat) (write : Bool) : Bool :=
  r.valid && decide (BitVec.ofNat 10 fn &&& r.fnMask = r.fnMatch &&& r.fnMask) &&
  decide (r.start.toNat * 64 ≤ addr ∧ addr + len ≤ r.last.toNat * 64 + 64) &&
  (if write then r.write else r.read)

/-- The region table lets the access through (R347). -/
def State.allowed (s : State) (fn addr len : Nat) (write : Bool) : Bool :=
  s.pr.regions.any (fun p => p.2.covers fn addr len write)

/-- The port of an address: bit 12 chooses, and a port out of service leaves all to the other (R399). -/
def Ports.portB (p : Ports) (addr : Nat) : Bool :=
  if p.fpaUp = false then true
  else if p.fpbUp = false then false
  else decide (addr / 4096 % 2 = 1)

/-- Source of a port's security checks (Table 13.2). -/
def secSource (portB : Bool) : Nat := if portB then 0x006 else 0x005

/-- Source of a port's data path (Table 13.2). -/
def pathSource (portB : Bool) : Nat := if portB then 0x011 else 0x010

/-- Cuts an access at the 4 KiB boundaries (R399, R400). -/
def splitAccess (fuel addr len : Nat) : List (Nat × Nat) :=
  match fuel with
  | 0 => []
  | f + 1 =>
    if len = 0 then []
    else
      let n := min len (4096 - addr % 4096)
      (addr, n) :: splitAccess f (addr + n) (len - n)

/-- Beats of a transfer of `len` bytes at `addr` (R400). -/
def beats (addr len : Nat) : Nat := (addr % 128 + len + 127) / 128

/-- One fabric port is out of service (R22, R399). -/
def Ports.single (p : Ports) : Bool := p.fpaUp != p.fpbUp

/-- The transfers of a request: they take their credits (R22, R397, R400, R401). -/
def State.transmit (s : State) (q : FabReq) (again : Bool := false) : State :=
  let s := { s with po := { s.po with fabOut := q :: s.po.fabOut } }
  let x : Xfer := { ctrl := q.ctrl, fn := q.fn, again := again }
  let s := s.pushChan (if q.portB then .fpbReq else .fpaReq) 1 x s.po.single
  if q.write then s.pushChan (if q.portB then .fpbWd else .fpaWd) (beats q.addr q.len) x s.po.single else s

/-- Sends a request: it becomes outstanding. -/
def State.send (s : State) (q : FabReq) : State := ({ s with po := { s.po with txns := s.po.txns ++ [q] } } : State).transmit q

/-- The first of `n` numbers from `k` on that is not used. -/
def firstFree (used : List (BitVec 10)) : Nat → Nat → Option (BitVec 10)
  | 0, _ => none
  | n + 1, k => if used.contains (BitVec.ofNat 10 k) then firstFree used n (k + 1) else some (BitVec.ofNat 10 k)

/-- A TID that no outstanding transaction bears and none that has timed out (R400, R403; which one: log 158). -/
def Ports.freeTid (p : Ports) : Option (BitVec 10) :=
  firstFree (p.txns.filterMap (·.tid) ++ p.late.map (·.tid)) 1024 0

/-- What an access carries beside its address. -/
structure Access where
  who : Who
  fn : Nat
  write : Bool
  data : List Byte := []
  durable : Bool := false
  ctrl : Bool := true

/-- Issues one request: checked by the region table and sent, or denied with REGION_DENIED (R347, R348). After a
block halt no fabric write is issued (R326). The answer says whether it was issued. -/
def State.issue1 (s : State) (a : Access) (addr len : Nat) (data : List Byte) : Bool × State :=
  let b := s.po.portB addr
  if s.allowed a.fn addr len a.write then
    if s.fc.halted && a.write then (true, s)
    else
      let q : FabReq := {
        id := s.po.nextId, who := a.who, fn := a.fn,
        world := decide ((s.fn a.fn).entry.world = 1), addr := addr, len := len, write := a.write, data := data,
        durable := a.durable, ctrl := a.ctrl, portB := b, maxRetries := s.po.retry, tid := s.po.freeTid }
      (true, ({ s with po := { s.po with nextId := s.po.nextId + 1 } }).send q)
  else (false, s.raiseFabric (secSource b) 0x12 a.fn addr a.write)

/-- Issues the pieces of an access in order; the answer says whether every piece was issued. -/
def State.issueAll (s : State) (a : Access) (pieces : List (Nat × Nat)) (data : List Byte) : Bool × State :=
  match pieces with
  | [] => (true, s)
  | (addr, len) :: r =>
    let (ok, s) := s.issue1 a addr len (data.take len)
    let (ok', s) := s.issueAll a r (data.drop len)
    (ok && ok', s)

/-- A fabric read of `len` bytes (R15). -/
def State.fabRead (s : State) (who : Who) (fn addr len : Nat) (ctrl : Bool) : Bool × State :=
  s.issueAll { who := who, fn := fn, write := false, ctrl := ctrl } (splitAccess (len / 4096 + 2) addr len) []

/-- A fabric write of the bytes (R15). -/
def State.fabWrite (s : State) (who : Who) (fn addr : Nat) (data : List Byte) (ctrl : Bool) (durable : Bool := false) :
    Bool × State :=
  s.issueAll { who := who, fn := fn, write := true, ctrl := ctrl, durable := durable }
    (splitAccess (data.length / 4096 + 2) addr data.length) data

/-- Outstanding transactions of an initiator have had their answers. -/
def State.answered (s : State) (p : Who → Bool) : State :=
  { s with po := { s.po with txns := s.po.txns.filter (fun q => !p q.who) } }

/-! Vectors and the function port -/

/-- The power-state notice of a function makes its messages carry the wake flag (R114). -/
def wakeFlag (pstate : BitVec 2) : Bool := decide (2 ≤ pstate.toNat)

/-- A vector becomes DUE and fixes its wake flag (R111). -/
def Vec.makeDue (v : Vec) (pstate : BitVec 2) : Vec :=
  if v.due then v else { v with due := true, wake := wakeFlag pstate }

/-- A signal: PENDING rises, and the threshold or a timer of 0 makes the vector DUE (R111). -/
def Vec.signal (v : Vec) (pstate : BitVec 2) (now : DWord) : Vec :=
  let v := { v with pending := satAdd v.pending 1, firstAt := if v.pending = 0 then now else v.firstAt }
  if decide (v.count.toNat ≤ v.pending.toNat) || decide (v.timerUs = 0) then v.makeDue pstate else v

/-- Signals pool vector `v` of function `f`. -/
def State.signal (s : State) (f v : Nat) : State :=
  s.setVec v ((s.vec v).signal (s.fn f).pstate s.po.tm)

/-- Hands a message to the function port while fewer than 64 wait (R410). -/
def State.sendFi (s : State) (m : FiMsg) : State :=
  ({ s with po := { s.po with fiWait := s.po.fiWait ++ [m], fiOut := m :: s.po.fiOut } }).pushChan .fiMsg 1

/-- Offers the interrupt message of pool vector `v`: DUE, not masked, none of its own on offer (R111, R115); a
function in OFF offers none unless the notice itself flushes (R114). -/
def State.offerVec (s : State) (v : Nat) (flush : Bool := false) : State :=
  match s.vecOwner v with
  | none => s
  | some f =>
    let x := s.vec v
    if x.due && !x.mask && !x.offered && s.po.fiUp && decide (s.po.fiWait.length < 64) &&
        (flush || decide ((s.fn f).pstate ≠ 3)) then
      (s.setVec v { x with offered := true, offeredAt := s.po.tm }).sendFi
        { reset := false, fn := f, vector := v - (s.fn f).entry.vecBase.toNat, wake := x.wake, pool := v }
    else s

/-- The transaction writes a record that signals vector `loc` of function `f` (R112, R113). -/
def State.recordOf (s : State) (f loc : Nat) (w : Who) : Bool :=
  match w with
  | .event q => decide (q = f) && (s.fn f).eq.vecEn && decide ((s.fn f).eq.vector.toNat = loc)
  | .completion r => decide (s.ringOwner r = some f) && decide ((s.ring r).vector.toNat = loc)
  | _ => false

/-- IRQ_AFTER_RESP lets the vector's message go: it is 0, or no record that signals the vector waits for its write
response (R113). -/
def State.recordsIn (s : State) (v : Nat) : Bool :=
  match s.vecOwner v with
  | none => true
  | some f => !s.pf.irqAfterResp || !s.po.txns.any (fun q => s.recordOf f (v - (s.fn f).entry.vecBase.toNat) q.who)

/-- The message of a vector is offered at once, where IRQ_AFTER_RESP lets it go (R111, R113, R114). -/
def State.offerNow (s : State) (v : Nat) (flush : Bool) : State := if s.recordsIn v then s.offerVec v flush else s

/-- `sen_wake_o` (R114, R115). -/
def State.senWake (s : State) : Bool :=
  s.vecs.any (fun p => p.2.blocked || (p.2.due && !p.2.mask &&
    (match s.vecOwner p.1 with
     | some f => decide ((s.fn f).pstate = 3)
     | none => false)))

/-! Event records -/

/-- Entries of a queue of size code `c` (R49). -/
def queueSize (c : BitVec 4) : Nat := 2 ^ (6 + c.toNat)

/-- The PHASE of free-running position `p` (R50). -/
def phaseOf (p : Word) (size : Nat) : Bool := decide (p.toNat / size % 2 = 0)

/-- The 32 bytes of an event record (Table 2.7). -/
def eventBytes (type : Nat) (phase : Bool) (pos : Word) (fn ring : Nat) (time : DWord) (detail : List Byte) :
    List Byte :=
  [BitVec.ofNat 8 type, BitVec.ofNat 8 (b2n phase)] ++ leBytes 2 pos.toNat ++ leBytes 2 fn ++ leBytes 2 ring ++
  leBytes 8 time.toNat ++ fit 16 detail

/-- Types written whatever their TYPE_EN bit holds (FN_EQ_CTRL). -/
def alwaysWritten (type : Nat) : Bool := [0x06, 0x07, 0x09].contains type

/-- Writes a record at PROD and signals the queue's vector (R50, R112). -/
def State.putEvent (s : State) (q type about ring : Nat) (time : DWord) (detail : List Byte) : State :=
  let e := (s.fn q).eq
  let size := queueSize e.size
  let addr := e.base.toNat * 4096 + e.prod.toNat % size * 32
  let (_, s) := s.fabWrite (.event q) q addr
    (eventBytes type (phaseOf e.prod size) e.prod about ring time detail) true
  let s := s.modFn q (fun f => { f with eq := { f.eq with prod := f.eq.prod + 1 } })
  if e.vecEn then s.signal q ((s.fn q).entry.vecBase.toNat + e.vector.toNat) else s

/-- The queue has no room for an ordinary record (R51). A CONS outside the range that R50 allows counts as such a queue
(DESIGN CHOICE, log 131). -/
def EvQueue.full (e : EvQueue) : Bool := decide (queueSize e.size - 1 ≤ (e.prod - e.cons).toNat)

/-- No record of any kind goes to the function's queue: it is being squashed (R42), or has been reset and not enabled
since (R43). -/
def State.silent (s : State) (f : Nat) : Bool :=
  (s.fn f).quiet || decide ((s.fn f).state = .resetting) && (s.fn f).squash

/-- An event record becomes due on queue `q` (R49–R52): written, or discarded because the queue or its type is
disabled, or lost and counted because the queue is full. After a block halt none is written (R326), nor in a squash or
until the enable after a reset (R42, R43). -/
def State.event (s : State) (q type about ring : Nat) (detail : List Byte) : State :=
  let e := (s.fn q).eq
  if !e.en || s.fc.halted || s.silent q || !(alwaysWritten type || e.typeEn.getLsbD type) then s
  else if e.full then
    s.modFn q (fun f => { f with eq := { e with
      lost := satAdd e.lost 1, since := satAdd e.since 1,
      firstLost := if e.since = 0 then s.po.tm else e.firstLost, lastLost := s.po.tm } })
  else s.putEvent q type about ring s.po.tm detail

/-- `0xFFFF`: no ring applies (Table 2.7). -/
def noRing : Nat := 0xFFFF

/-- A KEY_EVENT record to its recipients (Tables 2.8, 2.9); one record when both are the same function. -/
def State.keyEvent (s : State) (recips : List Nat) (slot code mode space kmEntry : Nat) : State :=
  let d := leBytes 4 slot ++ [BitVec.ofNat 8 code, BitVec.ofNat 8 mode, BitVec.ofNat 8 space, 0] ++ leBytes 2 kmEntry
  (recips.eraseDups).foldl (fun s f => s.event f 0x08 (recips.headD 0) noRing d) s

/-! The journal -/

/-- The 64 bytes of a journal entry (Table 14.1). -/
def JEntry.bytes (e : JEntry) (phase : Bool) : List Byte :=
  leBytes 4 e.seq.toNat ++ [e.type, e.flags ||| BitVec.ofNat 8 (b2n phase)] ++ leBytes 2 e.initiator.toNat ++
  leBytes 8 e.time.toNat ++ fit 48 e.detail

/-- The OVERFLOW marker as an entry (Tables 14.1, 14.2; its SEQ is the first lost one, log 11). -/
def JMarker.entry (m : JMarker) : JEntry :=
  { seq := m.firstSeq, type := 0x05, time := m.lastTime, lost := m.count,
    detail := leBytes 4 m.count ++ leBytes 4 m.firstSeq.toNat ++ leBytes 4 m.lastSeq.toNat ++ zeros 4 ++
      leBytes 8 m.firstTime.toNat }

/-- The ring has room for an entry, is enabled, and the block is not halted (R326, R359). -/
def State.journalRoom (s : State) : Bool :=
  s.jn.en && !s.fc.halted && decide ((s.jn.prod - s.jn.cons).toNat ≠ queueSize s.jn.size)

/-- The shadow once its first entry has left it, `rest` after it: a full shadow's marker takes the stage that fell free
(R359). -/
def Journal.shift (j : Journal) (rest : List JEntry) : Journal :=
  match j.marker with
  | some m => { j with prod := j.prod + 1, shadow := rest ++ [m.entry], marker := none }
  | none => { j with prod := j.prod + 1, shadow := rest }

/-- Writes the first entry of the shadow to the ring; an OVERFLOW marker also gives an event record (R359). -/
def State.journalOut (s : State) (e : JEntry) (rest : List JEntry) : State :=
  let size := queueSize s.jn.size
  let p := s.jn.prod
  let (_, s) := s.fabWrite .journal 0 (s.jn.base.toNat * 4096 + p.toNat % size * 64) (e.bytes (phaseOf p size)) true
  let s := { s with jn := s.jn.shift rest }
  if e.type = 0x05 then s.event 0 0x0E 0 noRing (leBytes 4 e.lost) else s

/-- Writes the entries of the shadow to the ring in order while it has room (R359). -/
def State.drainJournal (fuel : Nat) (s : State) : State :=
  match fuel with
  | 0 => s
  | n + 1 =>
    match s.jn.shadow with
    | [] => s
    | e :: r => if s.journalRoom then State.drainJournal n (s.journalOut e r) else s

/-- A recorded event: into the shadow, or into the open marker when 63 stages are in use (R357–R359). -/
def State.journal (s : State) (type : Nat) (flags : Nat) (initiator : BitVec 16) (detail : List Byte) : State :=
  let q := s.jn.seq
  let s := { s with jn := { s.jn with seq := q + 1 } }
  let s := match s.jn.marker with
    | some m => { s with jn := { s.jn with
        lost := satAdd s.jn.lost 1,
        marker := some { m with count := m.count + 1, lastSeq := q, lastTime := s.po.tm } } }
    | none =>
      if s.jn.shadow.length < 63 then
        { s with jn := { s.jn with shadow := s.jn.shadow ++ [{
            seq := q, type := BitVec.ofNat 8 type,
            flags := BitVec.ofNat 8 flags, initiator := initiator, time := s.po.tm, detail := detail }] } }
      else
        { s with jn := { s.jn with lost := satAdd s.jn.lost 1, marker := some {
            count := 1, firstSeq := q, lastSeq := q,
            firstTime := s.po.tm, lastTime := s.po.tm } } }
  State.drainJournal 70 s

/-! Trace -/

/-- Records the 16 KiB trace buffer holds: 10 bytes each, as they leave (R356, R421; log 12). -/
def traceDepth : Nat := 1638

/-- Debug and trace works: its domain is ON and its unit in service (Table 13.8). -/
def State.debugUp (s : State) : Bool := decide ((s.dom 51).state = .on) && !(s.unit 0x00E).outOfService

/-- A trace record, while TRACE_EN is 1 (R356, R421). -/
def State.traceRec (s : State) (type : BitVec 4) (payload : DWord) : State :=
  if !s.pr.traceEn || !s.debugUp then s
  else
    let r : TraceRec := { type := type, stamp := s.po.tm.extractLsb' 0 12, payload := payload }
    if s.pr.trace.length < traceDepth then { s with pr := { s.pr with trace := s.pr.trace ++ [r] } }
    else if s.pr.traceWrap then { s with pr := { s.pr with trace := s.pr.trace.drop 1 ++ [r] } }
    else { s with pr := { s.pr with traceGap := s.pr.traceGap + 1 } }

/-- The five beats in which a record leaves (R421). -/
def TraceRec.beats (r : TraceRec) : List (BitVec 16) :=
  (r.type ++ r.stamp) :: (List.range 4).map (fun i => r.payload.extractLsb' (16 * i) 16)

/-- `n` records leave on the trace output, the oldest first; where records were not recorded, a gap record takes a place
that falls free (R421). -/
def State.traceOut (s : State) (n : Nat) : State :=
  if !s.pr.traceEn || !s.debugUp then s
  else
    let go := s.pr.trace.take n
    let rest := s.pr.trace.drop n
    let gap := decide (s.pr.traceGap ≠ 0) && !go.isEmpty
    let mark : TraceRec := { type := 3, stamp := s.po.tm.extractLsb' 0 12, payload := BitVec.ofNat 64 (min s.pr.traceGap (2 ^ 32 - 1)) }
    { s with
      pr := { s.pr with trace := if gap then rest ++ [mark] else rest, traceGap := if gap then 0 else s.pr.traceGap },
      po := { s.po with trOut := (go.flatMap TraceRec.beats).reverse ++ s.po.trOut } }

end Sys2Proof.Machine
end

