-- ==== Sys2Proof/Machine/Access.lean ====
section
/-! DEFINITION. The region table, the page owners, debug and trace control, and the journal's registers
(14_protection.md R347–R359). -/

namespace Sys2Proof.Machine

/-- A register write that has passed the port's checks: the 8-byte word with the written halves replaced (R407), which
halves are written, who writes, and the word's offset in the register window. -/
structure WReq where
  x : DWord
  lo : Bool
  hi : Bool
  init : BitVec 16
  world : Bool
  off : Nat

/-- Burin's and the debug master's initiator IDs (R353). -/
def burinId : BitVec 16 := 0xFFFE
def debugId : BitVec 16 := 0xFFFF

/-- A W1S lock bit of the lower or upper half: the debug master sets none (R355). -/
def WReq.lockLo (q : WReq) (i : Nat) : Bool := q.lo && bit q.x i && decide (q.init ≠ debugId)
def WReq.lockHi (q : WReq) (i : Nat) : Bool := q.hi && bit q.x i && decide (q.init ≠ debugId)

/-- LOCK_VIOLATION (Table 13.4). -/
def State.lockViolation (s : State) (q : WReq) : State := s.raiseReg 0x000 0x41 q.off q.init.toNat q.world true

/-- Changes the access rules' part of the state. -/
def State.modPr (s : State) (f : Prot → Prot) : State := { s with pr := f s.pr }

/-- Life-cycle states in which test features work (Table 14.3). -/
def State.testLife (s : State) : Bool := decide (s.ts.lcs.toNat ≤ 1)

/-! The region table -/

/-- Staging shows the selected entry (R349). -/
def State.arLoad (s : State) : State :=
  s.modPr (fun p => { p with stage := p.regions.get {} p.sel.toNat, err := 0 })

/-- Transfers wait that were checked under the rules so far (R350). -/
def State.oldAccesses (s : State) : Bool :=
  [Channel.fpaReq, .fpbReq, .fpaWd, .fpbWd].any (fun c => !(s.po.chans.get {} (chanNo c)).queued.isEmpty)

/-- A new rule is in force: the epoch rises, DONE says whether older accesses remain (R349, R350). -/
def State.newEpoch (s : State) (r : Region) : State :=
  let old := s.oldAccesses
  s.modPr (fun p => { p with regions := p.regions.set {} p.sel.toNat r, epoch := p.epoch + 1, err := 0, done := !old })

/-- COMMIT (R349, R351). -/
def State.arCommit (s : State) (q : WReq) : State :=
  let p := s.pr
  if (p.regions.get {} p.sel.toNat).lock then (s.modPr (fun p => { p with err := 1 })).lockViolation q
  else if p.stage.last.toNat < p.stage.start.toNat then s.modPr (fun p => { p with err := 2 })
  else s.newEpoch { p.stage with valid := true }

/-- INVALIDATE (R349, R351). -/
def State.arInvalidate (s : State) (q : WReq) : State :=
  let p := s.pr
  if (p.regions.get {} p.sel.toNat).lock then (s.modPr (fun p => { p with err := 1 })).lockViolation q
  else s.newEpoch {}

/-- AR_CMD. -/
def State.arCmd (s : State) (q : WReq) : State :=
  match (fld q.x 0 2).toNat with
  | 1 => s.arLoad
  | 2 => s.arCommit q
  | 3 => s.arInvalidate q
  | _ => s.modPr (fun p => { p with err := 3 })

/-- No access checked under an older epoch remains (R350). -/
def State.syncDone (s : State) : State := s.modPr (fun p => { p with done := true })

/-! Page owners -/

/-- A page-owner entry. -/
def State.owner (s : State) (i : Nat) : PageOwner :=
  ((s.pr.owners.find? (fun p => p.1 == i)).map (·.2)).getD (PageOwner.reset i)

/-- AR_PO_ENTRY as it reads. -/
def PageOwner.word (p : PageOwner) : DWord :=
  pk [(0, p.initiator.toNat), (16, p.mask.toNat), (32, p.world.toNat), (34, b2n p.en), (63, b2n p.lock)]

/-- The entry that AR_PO_SEL selects; a number above 1,043 selects entry 0 for reading (log 10). -/
def State.selOwner (s : State) : Nat := if s.pr.poSel.toNat < 1044 then s.pr.poSel.toNat else 0

/-- A write to AR_PO_ENTRY (R353). -/
def State.poWrite (s : State) (q : WReq) : State :=
  let i := s.pr.poSel.toNat
  let o := s.owner i
  if 1044 ≤ i ∨ fld q.x 32 2 = 3 then s
  else if o.lock then s.lockViolation q
  else
    let n : PageOwner := {
      initiator := fld q.x 0 16, mask := fld q.x 16 16, world := fld q.x 32 2, en := bit q.x 34, lock := q.lockHi 63 }
    s.modPr (fun p => { p with owners := if n = PageOwner.reset i then p.owners.erase i else p.owners.insert i n })

/-- The world is allowed: 0 normal only, 1 secure only, 2 both (AR_PO_ENTRY.WORLD). -/
def worldAllowed (w : BitVec 2) (secure : Bool) : Bool :=
  match w.toNat with
  | 0 => !secure
  | 1 => secure
  | _ => true

/-- The page-owner entry of an offset, if it is checked (R352). Function pages lie from 0x0040_0000 on, 16 KiB each
(Table 2.1). -/
def ownerOf (off : Nat) : Option Nat :=
  if 0x400000 ≤ off ∧ off < 0x1400000 then some ((off - 0x400000) / 0x4000)
  else if off < 0x140000 then some (1024 + off / 0x10000)
  else none

/-- An access passes its page owner (R352, R353); Burin's pass every entry, and an access on the port under a reserved ID is
denied. `port`: the access arrived on the register port. -/
def State.ownerPasses (s : State) (off : Nat) (init : BitVec 16) (world port : Bool) : Bool :=
  if port && (decide (init = burinId) || decide (init = debugId)) then false
  else if init = burinId then true
  else
    match ownerOf off with
    | none => true
    | some i =>
      let o := s.owner i
      o.en && decide (init &&& o.mask = o.initiator &&& o.mask) && worldAllowed o.world world

/-! Debug and trace control -/

/-- A write to DG_CTRL (R356). -/
def State.dgWrite (s : State) (x : DWord) : State :=
  let ok := s.testLife
  s.modPr (fun p => { p with dgFn := fld x 0 10, traceEn := ok && bit x 16, traceWrap := bit x 17 })

/-! The journal's registers -/

/-- Changes the journal. -/
def State.modJn (s : State) (f : Journal → Journal) : State := { s with jn := f s.jn }

/-- A write to JN_BASE: it changes only while EN is 0 and no lock is set. -/
def State.jnBase (s : State) (x : DWord) : State :=
  if s.jn.lock || s.jn.en then s else s.modJn (fun j => { j with base := fld x 12 45 })

/-- A write to JN_CTRL: SIZE changes only by a write that leaves EN at 0; setting EN resets the indices (R359). -/
def State.jnCtrl (s : State) (q : WReq) : State :=
  let en := bit q.x 0
  let size := fld q.x 1 4
  if s.jn.lock || decide (10 < size.toNat) then s
  else
    let fresh := en && !s.jn.en
    let s := s.modJn (fun j => { j with
      en := en, size := if en then j.size else size, lock := q.lockLo 31,
      prod := if fresh then 0 else j.prod, cons := if fresh then 0 else j.cons })
    State.drainJournal 70 s

/-- A write to JN_CONS (R359). -/
def State.jnCons (s : State) (v : Word) : State := State.drainJournal 70 (s.modJn (fun j => { j with cons := v }))

/-! Pages -/

/-- The AR_ page without the TS_ registers: reads. -/
def arRead (s : State) (off : Nat) : DWord :=
  let p := s.pr
  match off with
  | 0x00 => pk [(0, p.sel.toNat)]
  | 0x08 => pk [(12, p.err.toNat)]
  | 0x10 => pk [(6, p.stage.start.toNat)]
  | 0x18 => pk [(6, p.stage.last.toNat)]
  | 0x20 => pk [(0, p.stage.fnMatch.toNat), (10, p.stage.fnMask.toNat), (20, b2n p.stage.read), (21, b2n p.stage.write),
      (22, b2n p.stage.valid), (23, b2n p.stage.lock)]
  | 0x28 => pk [(0, p.epoch.toNat), (32, b2n p.done)]
  | 0x100 => pk [(0, p.poSel.toNat)]
  | 0x108 => (s.owner s.selOwner).word
  | _ => 0

/-- The AR_ page: writes. -/
def arWrite (s : State) (off : Nat) (q : WReq) : State :=
  match off with
  | 0x00 => s.modPr (fun p => { p with sel := fld q.x 0 8 })
  | 0x08 => if q.lo then s.arCmd q else s
  | 0x10 => s.modPr (fun p => { p with stage := { p.stage with start := fld q.x 6 51 } })
  | 0x18 => s.modPr (fun p => { p with stage := { p.stage with last := fld q.x 6 51 } })
  | 0x20 => s.modPr (fun p => { p with stage := { p.stage with
      fnMatch := fld q.x 0 10, fnMask := fld q.x 10 10, read := bit q.x 20, write := bit q.x 21, lock := bit q.x 23 } })
  | 0x100 => s.modPr (fun p => { p with poSel := fld q.x 0 11 })
  | 0x108 => s.poWrite q
  | _ => s

/-- The DG_ page. -/
def dgRead (s : State) (off : Nat) : DWord :=
  let p := s.pr
  match off with
  | 0x00 => pk [(0, p.dgFn.toNat), (16, b2n p.traceEn), (17, b2n p.traceWrap), (31, b2n p.master)]
  | _ => 0

def dgPageWrite (s : State) (off : Nat) (q : WReq) : State :=
  match off with
  | 0x00 => if q.lo then s.dgWrite q.x else s
  | _ => s

/-- The JN_ page. -/
def jnRead (s : State) (off : Nat) : DWord :=
  let j := s.jn
  match off with
  | 0x00 => pk [(12, j.base.toNat)]
  | 0x08 => pk [(0, b2n j.en), (1, j.size.toNat), (31, b2n j.lock)]
  | 0x10 => pk [(0, j.prod.toNat), (32, j.cons.toNat)]
  | 0x18 => pk [(0, j.lost.toNat)]
  | _ => 0

def jnWrite (s : State) (off : Nat) (q : WReq) : State :=
  match off with
  | 0x00 => s.jnBase q.x
  | 0x08 => if q.lo then s.jnCtrl q else s
  | 0x10 => if q.hi then s.jnCons (hiHalf q.x) else s
  | _ => s

/-- A read of JN_LOST clears it when the read covers it (R407). -/
def jnTake (s : State) (off : Nat) (lo : Bool) : State :=
  match off with
  | 0x18 => if lo then s.modJn (fun j => { j with lost := 0 }) else s
  | _ => s

end Sys2Proof.Machine
end

