-- ==== Sys2Proof/Machine/BurinCode.lean ====
section
/-! DEFINITION. Burin's instructions as decoded operations, their encoder and their decoder (Tables 11.4–11.8,
R286). -/

namespace Sys2Proof.Machine

/-- A decoded Burin instruction. -/
inductive BuOp where
  | mov (rd rb : BitVec 5)
  | add (a : Alu3) | sub (a : Alu3) | and (a : Alu3) | or (a : Alu3) | xor (a : Alu3)
  | andn (rd ra rb : BitVec 5)
  | shl (a : Alu3) | shr (a : Alu3) | sar (a : Alu3)
  | ror (rd ra rb : BitVec 5)
  | slt (a : Alu3) | sltu (a : Alu3)
  | min (rd ra rb : BitVec 5) | max (rd ra rb : BitVec 5) | minu (rd ra rb : BitVec 5) | maxu (rd ra rb : BitVec 5)
  | clz (rd ra : BitVec 5) | popc (rd ra : BitVec 5) | bswap (rd ra : BitVec 5)
  | neg (rd rb : BitVec 5)
  | addi (a : AddImm)
  | andi (rd ra : BitVec 5) (imm : BitVec 14) | ori (rd ra : BitVec 5) (imm : BitVec 14)
  | xori (rd ra : BitVec 5) (imm : BitVec 14)
  | li (rd imm : BitVec 5)
  | lui (rd : BitVec 5) (imm : BitVec 18)
  | shli (a : ShImm) | shri (a : ShImm) | sari (a : ShImm)
  | slti (rd ra : BitVec 5) (imm : BitVec 14)
  | lws (rd imm : BitVec 5) | sws (rd imm : BitVec 5)
  | lw (r base : BitVec 5) (imm : BitVec 14) | lh (r base : BitVec 5) (imm : BitVec 14)
  | lhu (r base : BitVec 5) (imm : BitVec 14) | lb (r base : BitVec 5) (imm : BitVec 14)
  | lbu (r base : BitVec 5) (imm : BitVec 14)
  | sw (r base : BitVec 5) (imm : BitVec 14) | sh (r base : BitVec 5) (imm : BitVec 14)
  | sb (r base : BitVec 5) (imm : BitVec 14)
  | beqz (rd imm : BitVec 5) | bnez (rd imm : BitVec 5)
  | beq (ra rb : BitVec 5) (imm : BitVec 14) | bne (ra rb : BitVec 5) (imm : BitVec 14)
  | blt (ra rb : BitVec 5) (imm : BitVec 14) | bge (ra rb : BitVec 5) (imm : BitVec 14)
  | bltu (ra rb : BitVec 5) (imm : BitVec 14) | bgeu (ra rb : BitVec 5) (imm : BitVec 14)
  | jump (a : JImm)
  | call (imm : BitVec 24)
  | callr (rb : BitVec 5) | jr (rb : BitVec 5)
  | ret
  | mul (a : Mul2) | mulu (a : Mul2)
  | mfs (rd idx : BitVec 5) | mts (rd idx : BitVec 5)
  | adj (imm : BitVec 10) | adjl (imm : BitVec 14)
  | nop | wfe | commit | tret | brk
  | etch (rd ra rb : BitVec 5) (index : BitVec 6)
  deriving DecidableEq, Repr

/-- The halfwords of an encoded instruction: one or two. -/
inductive BuWord where
  | short (h : BitVec 16)
  | long (h0 h1 : BitVec 16)
  deriving DecidableEq, Repr

/-- S-RR and S-RI (Table 11.4): OP, rd, and rb or imm5. -/
def encS (op : BitVec 5) (rd x : BitVec 5) : BuWord := .short ((0 : BitVec 1) ++ op ++ rd ++ x)

/-- S-A (Table 11.4). -/
def encA (op : BitVec 5) (imm : BitVec 10) : BuWord := .short ((0 : BitVec 1) ++ op ++ imm)

/-- A 32-bit long word as its two halfwords: W[31:16] first (R286). -/
def encW (w : BitVec 32) : BuWord := .long (w.extractLsb' 16 16) (w.extractLsb' 0 16)

/-- L-R with MAJOR 0 (Tables 11.6, 11.8). -/
def encR (fn : BitVec 9) (rd ra rb : BitVec 5) : BuWord :=
  encW ((1 : BitVec 1) ++ (0 : BitVec 7) ++ rd ++ ra ++ rb ++ fn)

/-- L-I and L-B (Table 11.6). -/
def encI (major : BitVec 7) (rd ra : BitVec 5) (imm : BitVec 14) : BuWord :=
  encW ((1 : BitVec 1) ++ major ++ rd ++ ra ++ imm)

/-- L-J (Table 11.6). -/
def encJ (major : BitVec 7) (imm : BitVec 24) : BuWord := encW ((1 : BitVec 1) ++ major ++ imm)

/-- An operation that exists short (OP) and long (FUNC). -/
def encAlu (op : BitVec 5) (fn : BitVec 9) : Alu3 → BuWord
  | .short rd rb => encS op rd rb
  | .long rd ra rb => encR fn rd ra rb

/-- A shift by an immediate: short OP, long MAJOR with imm14[13:5] 0. -/
def encSh (op : BitVec 5) (major : BitVec 7) : ShImm → BuWord
  | .short rd imm => encS op rd imm
  | .long rd ra imm => encI major rd ra ((0 : BitVec 9) ++ imm)

/-- The encoder (Tables 11.4–11.8). -/
def encodeBu : BuOp → BuWord
  | .mov rd rb => encS 0x00 rd rb
  | .add a => encAlu 0x01 0x000 a
  | .sub a => encAlu 0x02 0x001 a
  | .and a => encAlu 0x03 0x002 a
  | .or a => encAlu 0x04 0x003 a
  | .xor a => encAlu 0x05 0x004 a
  | .andn rd ra rb => encR 0x005 rd ra rb
  | .shl a => encAlu 0x06 0x006 a
  | .shr a => encAlu 0x07 0x007 a
  | .sar a => encAlu 0x08 0x008 a
  | .ror rd ra rb => encR 0x009 rd ra rb
  | .slt a => encAlu 0x09 0x00A a
  | .sltu a => encAlu 0x0A 0x00B a
  | .min rd ra rb => encR 0x00C rd ra rb
  | .max rd ra rb => encR 0x00D rd ra rb
  | .minu rd ra rb => encR 0x00E rd ra rb
  | .maxu rd ra rb => encR 0x00F rd ra rb
  | .clz rd ra => encR 0x012 rd ra 0
  | .popc rd ra => encR 0x013 rd ra 0
  | .bswap rd ra => encR 0x014 rd ra 0
  | .neg rd rb => encS 0x0B rd rb
  | .addi (.short rd imm) => encS 0x0C rd imm
  | .addi (.long rd ra imm) => encI 0x08 rd ra imm
  | .andi rd ra imm => encI 0x09 rd ra imm
  | .ori rd ra imm => encI 0x0A rd ra imm
  | .xori rd ra imm => encI 0x0B rd ra imm
  | .li rd imm => encS 0x0D rd imm
  | .lui rd imm => encW ((1 : BitVec 1) ++ (0x10 : BitVec 7) ++ rd ++ (0 : BitVec 1) ++ imm)
  | .shli a => encSh 0x0E 0x0C a
  | .shri a => encSh 0x0F 0x0D a
  | .sari a => encSh 0x10 0x0E a
  | .slti rd ra imm => encI 0x0F rd ra imm
  | .lws rd imm => encS 0x11 rd imm
  | .sws rd imm => encS 0x12 rd imm
  | .lw r b imm => encI 0x18 r b imm
  | .lh r b imm => encI 0x19 r b imm
  | .lhu r b imm => encI 0x1A r b imm
  | .lb r b imm => encI 0x1B r b imm
  | .lbu r b imm => encI 0x1C r b imm
  | .sw r b imm => encI 0x20 r b imm
  | .sh r b imm => encI 0x21 r b imm
  | .sb r b imm => encI 0x22 r b imm
  | .beqz rd imm => encS 0x13 rd imm
  | .bnez rd imm => encS 0x14 rd imm
  | .beq ra rb imm => encI 0x28 ra rb imm
  | .bne ra rb imm => encI 0x29 ra rb imm
  | .blt ra rb imm => encI 0x2A ra rb imm
  | .bge ra rb imm => encI 0x2B ra rb imm
  | .bltu ra rb imm => encI 0x2C ra rb imm
  | .bgeu ra rb imm => encI 0x2D ra rb imm
  | .jump (.short imm) => encA 0x1A imm
  | .jump (.long imm) => encJ 0x30 imm
  | .call imm => encJ 0x31 imm
  | .callr rb => encS 0x1B 3 rb
  | .jr rb => encS 0x1B 2 rb
  | .ret => encS 0x1B 1 0
  | .mul (.short rd rb) => encS 0x15 rd rb
  | .mul (.long ra rb) => encR 0x010 0 ra rb
  | .mulu (.short rd rb) => encS 0x16 rd rb
  | .mulu (.long ra rb) => encR 0x011 0 ra rb
  | .mfs rd idx => encS 0x17 rd idx
  | .mts rd idx => encS 0x18 rd idx
  | .adj imm => encA 0x19 imm
  | .adjl imm => encI 0x40 0 0 imm
  | .nop => encS 0x1B 0 0
  | .wfe => encS 0x1B 4 0
  | .commit => encS 0x1B 5 0
  | .tret => encS 0x1B 6 0
  | .brk => encS 0x1B 7 0
  | .etch rd ra rb i => encW ((1 : BitVec 1) ++ (0x7F : BitVec 7) ++ rd ++ ra ++ rb ++ (0 : BitVec 3) ++ i)

/-- SYS sub-operations (Table 11.5); a non-zero field marked 0 is no instruction (R286). -/
def decodeSys (sub x : BitVec 5) : Option BuOp :=
  match sub.toNat with
  | 0 => if x = 0 then some .nop else none
  | 1 => if x = 0 then some .ret else none
  | 2 => some (.jr x)
  | 3 => some (.callr x)
  | 4 => if x = 0 then some .wfe else none
  | 5 => if x = 0 then some .commit else none
  | 6 => if x = 0 then some .tret else none
  | 7 => if x = 0 then some .brk else none
  | _ => none

/-- A short instruction (Tables 11.4, 11.5). -/
def decodeShort (h : BitVec 16) : Option BuOp :=
  let rd := h.extractLsb' 5 5
  let x := h.extractLsb' 0 5
  let imm10 := h.extractLsb' 0 10
  match (h.extractLsb' 10 5).toNat with
  | 0x00 => some (.mov rd x)
  | 0x01 => some (.add (.short rd x))
  | 0x02 => some (.sub (.short rd x))
  | 0x03 => some (.and (.short rd x))
  | 0x04 => some (.or (.short rd x))
  | 0x05 => some (.xor (.short rd x))
  | 0x06 => some (.shl (.short rd x))
  | 0x07 => some (.shr (.short rd x))
  | 0x08 => some (.sar (.short rd x))
  | 0x09 => some (.slt (.short rd x))
  | 0x0A => some (.sltu (.short rd x))
  | 0x0B => some (.neg rd x)
  | 0x0C => some (.addi (.short rd x))
  | 0x0D => some (.li rd x)
  | 0x0E => some (.shli (.short rd x))
  | 0x0F => some (.shri (.short rd x))
  | 0x10 => some (.sari (.short rd x))
  | 0x11 => some (.lws rd x)
  | 0x12 => some (.sws rd x)
  | 0x13 => some (.beqz rd x)
  | 0x14 => some (.bnez rd x)
  | 0x15 => some (.mul (.short rd x))
  | 0x16 => some (.mulu (.short rd x))
  | 0x17 => some (.mfs rd x)
  | 0x18 => some (.mts rd x)
  | 0x19 => some (.adj imm10)
  | 0x1A => some (.jump (.short imm10))
  | 0x1B => decodeSys rd x
  | _ => none

/-- The ALU functions of MAJOR 0 (Table 11.8). -/
def decodeAlu (fn rd rb : Nat) (d a b : BitVec 5) : Option BuOp :=
  match fn with
  | 0x000 => some (.add (.long d a b))
  | 0x001 => some (.sub (.long d a b))
  | 0x002 => some (.and (.long d a b))
  | 0x003 => some (.or (.long d a b))
  | 0x004 => some (.xor (.long d a b))
  | 0x005 => some (.andn d a b)
  | 0x006 => some (.shl (.long d a b))
  | 0x007 => some (.shr (.long d a b))
  | 0x008 => some (.sar (.long d a b))
  | 0x009 => some (.ror d a b)
  | 0x00A => some (.slt (.long d a b))
  | 0x00B => some (.sltu (.long d a b))
  | 0x00C => some (.min d a b)
  | 0x00D => some (.max d a b)
  | 0x00E => some (.minu d a b)
  | 0x00F => some (.maxu d a b)
  | 0x010 => if rd = 0 then some (.mul (.long a b)) else none
  | 0x011 => if rd = 0 then some (.mulu (.long a b)) else none
  | 0x012 => if rb = 0 then some (.clz d a) else none
  | 0x013 => if rb = 0 then some (.popc d a) else none
  | 0x014 => if rb = 0 then some (.bswap d a) else none
  | _ => none

/-- A long instruction (Tables 11.6–11.8). -/
def decodeLong (h0 h1 : BitVec 16) : Option BuOp :=
  let w : BitVec 32 := h0 ++ h1
  let rd := w.extractLsb' 19 5
  let ra := w.extractLsb' 14 5
  let rb := w.extractLsb' 9 5
  let imm := w.extractLsb' 0 14
  let sh : Option (BitVec 5) := if w.extractLsb' 5 9 = (0 : BitVec 9) then some (w.extractLsb' 0 5) else none
  match (w.extractLsb' 24 7).toNat with
  | 0x00 => decodeAlu (w.extractLsb' 0 9).toNat rd.toNat rb.toNat rd ra rb
  | 0x08 => some (.addi (.long rd ra imm))
  | 0x09 => some (.andi rd ra imm)
  | 0x0A => some (.ori rd ra imm)
  | 0x0B => some (.xori rd ra imm)
  | 0x0C => sh.map (fun i => .shli (.long rd ra i))
  | 0x0D => sh.map (fun i => .shri (.long rd ra i))
  | 0x0E => sh.map (fun i => .sari (.long rd ra i))
  | 0x0F => some (.slti rd ra imm)
  | 0x10 => if w.extractLsb' 18 1 = (0 : BitVec 1) then some (.lui rd (w.extractLsb' 0 18)) else none
  | 0x18 => some (.lw rd ra imm)
  | 0x19 => some (.lh rd ra imm)
  | 0x1A => some (.lhu rd ra imm)
  | 0x1B => some (.lb rd ra imm)
  | 0x1C => some (.lbu rd ra imm)
  | 0x20 => some (.sw rd ra imm)
  | 0x21 => some (.sh rd ra imm)
  | 0x22 => some (.sb rd ra imm)
  | 0x28 => some (.beq rd ra imm)
  | 0x29 => some (.bne rd ra imm)
  | 0x2A => some (.blt rd ra imm)
  | 0x2B => some (.bge rd ra imm)
  | 0x2C => some (.bltu rd ra imm)
  | 0x2D => some (.bgeu rd ra imm)
  | 0x30 => some (.jump (.long (w.extractLsb' 0 24)))
  | 0x31 => some (.call (w.extractLsb' 0 24))
  | 0x40 => if rd = 0 ∧ ra = 0 then some (.adjl imm) else none
  | 0x7F => if w.extractLsb' 6 3 = (0 : BitVec 3) then some (.etch rd ra rb (w.extractLsb' 0 6)) else none
  | _ => none

/-- The decoder: bit 15 of the first halfword selects the width; `none` is ILLEGAL (R286). -/
def decodeBu (h0 h1 : BitVec 16) : Option BuOp :=
  if h0.getLsbD 15 then decodeLong h0 h1 else decodeShort h0

/-- Bytes of the instruction that starts with this halfword. -/
def buLen (h0 : BitVec 16) : Nat := if h0.getLsbD 15 then 4 else 2

end Sys2Proof.Machine
end

