-- ==== Sys2Proof/Machine/BurinCpu.lean ====
section
/-! DEFINITION. What a Burin instruction computes, as a function of Burin's own state (11_burin.md R279–R292); the
register window, commit points and fault messages are in BurinRun.lean. -/

namespace Sys2Proof.Machine

/-- g0 reads 0 (R279). -/
def BuCtx.get (c : BuCtx) (r : BitVec 5) : Word := if r = 0 then 0 else Tab.get c.regs 0 r.toNat

/-- Writes to g0 are discarded (R279). -/
def BuCtx.set (c : BuCtx) (r : BitVec 5) (v : Word) : BuCtx :=
  if r = 0 then c else { c with regs := Tab.set c.regs 0 r.toNat v }

/-- Where control goes after an instruction. -/
inductive Nxt where
  | seq
  | goto (t : Word)
  | trap (cause : Nat)
  deriving DecidableEq, Repr

/-- An access to the register window view: offset, and the data of a store (R273, R274). -/
inductive WinReq where
  | load (rd : BitVec 5) (off : Nat)
  | store (off : Nat) (v : Word)
  deriving DecidableEq, Repr

/-- What an instruction does, before it is retired. -/
structure BuOut where
  ctx : BuCtx
  nxt : Nxt := .seq
  load : Option (Nat × Word) := none
  prod : Option (Word × Word) := none
  stores : List (Nat × List Byte) := []
  win : Option WinReq := none
  evtClear : BitVec 6 := 0
  isWfe : Bool := false
  isCommit : Bool := false
  cost : Nat := 1
  deriving DecidableEq, Repr

/-- First and one past the last address of the routine area (Table 11.1). -/
def routineLo : Nat := 0x138000
def routineHi : Nat := 0x140000

/-- An address of the routine area. -/
def inArea (a : Word) : Bool := decide (routineLo ≤ a.toNat ∧ a.toNat < routineHi)

/-- An address instructions may be fetched from: boot ROM, firmware code or routine area, even (R273). -/
def fetchable (a : Word) : Bool :=
  decide (a.toNat % 2 = 0) && (decide (a.toNat < 0x10000) || decide (0x100000 ≤ a.toNat ∧ a.toNat < 0x140000))

/-- Every halfword of an instruction at `a` may be fetched (R273, R286). -/
def fetches (a : Word) (len : Nat) : Bool := fetchable a && (decide (len = 2) || fetchable (a + 2))

/-- The instruction traps. -/
def BuCtx.trap (c : BuCtx) (cause : Nat) : BuOut := { ctx := c, nxt := .trap cause }

/-- The instruction writes `rd`. -/
def BuCtx.result (c : BuCtx) (rd : BitVec 5) (v : Word) : BuOut := { ctx := c.set rd v }

/-- Operand form rd = rd op rb or rd = ra op rb. -/
def BuCtx.alu (c : BuCtx) (f : Word → Word → Word) : Alu3 → BuOut
  | .short rd rb => c.result rd (f (c.get rd) (c.get rb))
  | .long rd ra rb => c.result rd (f (c.get ra) (c.get rb))

/-- Operand form of the shifts by an immediate. -/
def BuCtx.shift (c : BuCtx) (f : Word → Nat → Word) : ShImm → BuOut
  | .short rd imm => c.result rd (f (c.get rd) imm.toNat)
  | .long rd ra imm => c.result rd (f (c.get ra) imm.toNat)

/-- Sign extension to a word. -/
def sext {n : Nat} (x : BitVec n) : Word := x.signExtend 32

/-- 1 or 0. -/
def flag (b : Bool) : Word := if b then 1 else 0

/-- Leading zeros of a word. -/
def clz32 (x : Word) : Nat := if x = 0 then 32 else 31 - Nat.log2 x.toNat

/-- Ones of a word. -/
def popc32 (x : Word) : Nat := ((List.range 32).filter (fun i => x.getLsbD i)).length

/-- A word with its bytes reversed. -/
def bswap32 (x : Word) : Word := BitVec.ofNat 32 (beNat (leBytes 4 x.toNat))

/-- A word with its bits reversed. -/
def brev32 (x : Word) : Word := BitVec.ofNat 32 (((List.range 32).map (fun i => b2n (x.getLsbD i) * 2 ^ (31 - i))).sum)

/-- The 64-bit product as high and low word (R282). -/
def product (signed : Bool) (a b : Word) : Word × Word :=
  let p : Int := if signed then a.toInt * b.toInt else (a.toNat * b.toNat : Nat)
  let q : BitVec 64 := BitVec.ofInt 64 p
  (q.extractLsb' 32 32, q.extractLsb' 0 32)

/-- The carry-less product as high and low word (Table 11.14). -/
def clmul (a b : Word) : Word × Word :=
  let p : BitVec 64 := (List.range 32).foldl
    (fun acc i => if b.getLsbD i then acc ^^^ (a.setWidth 64 <<< i) else acc) 0
  (p.extractLsb' 32 32, p.extractLsb' 0 32)

/-- A branch, jump or return to `t`: routine code leaves the area only by RET, a misaligned target traps (R273, R285,
R296). -/
def BuCtx.goto (c : BuCtx) (t : Word) (isRet : Bool := false) : BuOut :=
  if t.toNat % 2 = 1 then c.trap 2
  else if inArea c.pc && !inArea t && !isRet then c.trap 9
  else
    { ctx := { c with inRoutine := if inArea t && !inArea c.pc then true
                                   else if inArea c.pc && !inArea t then false else c.inRoutine },
      nxt := .goto t, cost := 2 }

/-- A taken or untaken branch (R286). -/
def BuCtx.branch {n : Nat} (c : BuCtx) (take : Bool) (imm : BitVec n) : BuOut :=
  if take then c.goto (c.pc + 2 * sext imm) else { ctx := c }

/-- Pushes the address of the next instruction and goes to `t` (R283). -/
def BuCtx.push (c : BuCtx) (len : Nat) (t : Word) : BuOut :=
  if 64 ≤ c.stack.length then c.trap 4
  else
    let o := c.goto t
    match o.nxt with
    | .trap _ => o
    | _ => { o with ctx := { o.ctx with stack := (c.pc + BitVec.ofNat 32 len) :: c.stack } }

/-- RET (R283). -/
def BuCtx.pop (c : BuCtx) : BuOut :=
  match c.stack with
  | [] => c.trap 5
  | t :: r =>
    let o := c.goto t true
    match o.nxt with
    | .trap _ => o
    | _ => { o with ctx := { o.ctx with stack := r } }

/-- The areas of the data space (Table 11.1). -/
inductive Area where
  | dsram | iview | window | bad
  deriving DecidableEq, Repr

/-- An address of the boot ROM (Table 11.1). -/
def inRom (a : Word) : Bool := decide (a.toNat < 0x10000)

/-- Where a data access of `size` bytes goes: routine code reaches the routine window only, and firmware writes the data
view of instruction SRAM in the routine area only; `write` is a store by code outside the boot ROM (R273, R296). -/
def dataArea (routine write : Bool) (a size : Nat) : Area :=
  if routine then (if 0x34000 ≤ a ∧ a + size ≤ 0x40000 then .dsram else .bad)
  else if a + size ≤ 0x40000 then .dsram
  else if 0x100000 ≤ a ∧ a + size ≤ 0x140000 then (if write && decide (a < routineLo) then .bad else .iview)
  else if 0x10000000 ≤ a ∧ a + size ≤ 0x11400000 ∧ size = 4 then .window
  else .bad

/-- The base of a load or store: field 0 is DSP (R284). -/
def BuCtx.base (c : BuCtx) (r : BitVec 5) : Word := if r = 0 then c.dsp else c.get r

/-- A load of `size` bytes (R273, R281). -/
def Burin.loadAt (b : Burin) (rd : BitVec 5) (a : Word) (size : Nat) (signed : Bool) : BuOut :=
  let c := b.ctx
  let n := a.toNat
  if n % size ≠ 0 then c.trap 2
  else
    let val (m : Memory) : Word :=
      let v := leNat (m.readBytes n size)
      if signed && decide (2 ^ (8 * size - 1) ≤ v) then BitVec.ofInt 32 ((v : Int) - 2 ^ (8 * size))
      else BitVec.ofNat 32 v
    match dataArea (inArea c.pc) false n size with
    | .bad => c.trap 3
    | .dsram => { ctx := c, load := some (rd.toNat, val b.dmem) }
    | .iview => { ctx := c, load := some (rd.toNat, val b.imem), cost := 2 }
    | .window => { ctx := c, win := some (.load rd (n - 0x10000000)) }

/-- A store of `size` bytes (R273). -/
def BuCtx.storeAt (c : BuCtx) (v : Word) (a : Word) (size : Nat) : BuOut :=
  let n := a.toNat
  if n % size ≠ 0 then c.trap 2
  else
    match dataArea (inArea c.pc) (!inRom c.pc) n size with
    | .bad => c.trap 3
    | .window => { ctx := c, win := some (.store (n - 0x10000000) v) }
    | _ => { ctx := c, stores := [(n, leBytes size v.toNat)] }

/-- MFS (R279). -/
def Burin.readSpecial (b : Burin) (rd idx : BitVec 5) : BuOut :=
  let c := b.ctx
  let i := idx.toNat
  if 12 ≤ i then c.trap 1
  else if inArea c.pc && !(decide (i ≤ 2) || decide (7 ≤ i ∧ i ≤ 9)) then c.trap 3
  else
    c.result rd (match i with
      | 0 => c.dsp
      | 1 => c.mlo
      | 2 => c.mhi
      | 3 => c.epc
      | 4 => c.cause.setWidth 32
      | 5 => c.tvec
      | 6 => BitVec.ofNat 32 (b2n c.inTrap + 2 * b2n c.inRoutine)
      | 7 => BitVec.ofNat 32 c.stack.length
      | 8 => BitVec.ofNat 32 b.cycle
      | 9 => BitVec.ofNat 32 (b.cycle / 2 ^ 32)
      | 10 => b.evt.setWidth 32
      | _ => c.evtMask.setWidth 32)

/-- MTS (R279): a write to a read-only register has no effect. -/
def BuCtx.writeSpecial (c : BuCtx) (rd idx : BitVec 5) : BuOut :=
  let i := idx.toNat
  let v := c.get rd
  if 12 ≤ i then c.trap 1
  else if inArea c.pc && decide (2 < i) then c.trap 3
  else
    match i with
    | 0 => { ctx := { c with dsp := v } }
    | 1 => { ctx := { c with mlo := v } }
    | 2 => { ctx := { c with mhi := v } }
    | 3 => { ctx := { c with epc := v } }
    | 5 => { ctx := { c with tvec := v &&& 0xFFFFFFFE } }
    | 10 => { ctx := c, evtClear := v.setWidth 6 }
    | 11 => { ctx := { c with evtMask := v.setWidth 6 } }
    | _ => { ctx := c }

/-! The etched instruction (R290–R293) -/

/-- The state of an etched instruction. -/
structure EtchRun where
  rd : Option Word := none
  temps : Tab Word := []
  stores : List (Nat × Word) := []
  words : Nat := 0
  cycles : Nat := 0
  deriving DecidableEq, Repr

/-- Products that have landed by cycle `now` (R282). -/
def landed (ps : List Product) (now : Nat) (cur : Word × Word) : Word × Word :=
  ps.foldl (fun acc p => if p.issued + 4 ≤ now then (p.hi, p.lo) else acc) cur

/-- A source operand (Table 11.13). -/
def etchSrc (b : Burin) (rd ra rb imm : Word) (r : EtchRun) (code : Nat) : Word :=
  match code with
  | 0 => rd
  | 1 => ra
  | 2 => rb
  | 3 => 0
  | 12 => imm
  | 13 => (landed b.products (b.cycle + 1 + r.cycles) (b.ctx.mhi, b.ctx.mlo)).2
  | 14 => (landed b.products (b.cycle + 1 + r.cycles) (b.ctx.mhi, b.ctx.mlo)).1
  | c => Tab.get r.temps 0 c

/-- Writes a destination operand (Table 11.13). -/
def EtchRun.put (r : EtchRun) (code : Nat) (v : Word) : EtchRun :=
  if code = 0 then { r with rd := some v } else { r with temps := Tab.set r.temps 0 code v }

/-- The value of a one-cycle micro-operation with a result, or `none` (Table 11.14). -/
def etchValue (uop : Nat) (a b : Word) : Option Word :=
  let s := b.toNat % 32
  match uop with
  | 0x01 => some (a + b)
  | 0x02 => some (a - b)
  | 0x03 => some (a &&& b)
  | 0x04 => some (a ||| b)
  | 0x05 => some (a ^^^ b)
  | 0x06 => some (a &&& ~~~b)
  | 0x07 => some (a <<< s)
  | 0x08 => some (a >>> s)
  | 0x09 => some (a.sshiftRight s)
  | 0x0A => some (a.rotateRight s)
  | 0x0B => some (a.rotateLeft s)
  | 0x0C => some (product false a b).2
  | 0x0D => some (product false a b).1
  | 0x0E => some (product true a b).1
  | 0x0F => some (clmul a b).2
  | 0x10 => some (clmul a b).1
  | 0x11 => some (BitVec.ofNat 32 (clz32 a))
  | 0x12 => some (BitVec.ofNat 32 (popc32 a))
  | 0x13 => some (brev32 a)
  | 0x14 => some (bswap32 a)
  | 0x16 => some (flag (a.ult b))
  | _ => none

/-- A word of data SRAM as the etched instruction sees it: its own stores first (R292). -/
def etchLoad (b : Burin) (r : EtchRun) (a : Nat) : Word :=
  match r.stores.find? (fun p => p.1 == a) with
  | some (_, v) => v
  | none => BitVec.ofNat 32 (leNat (b.dmem.readBytes a 4))

/-- Executes micro-words from `w` on: the run at its end, or a trap cause (R292). -/
def etchLoop (b : Burin) (rd ra rb : Word) (limit : Nat) (fuel w : Nat) (r : EtchRun) : Except Nat EtchRun :=
  match fuel with
  | 0 => .error 7
  | n + 1 =>
    if limit < r.words + 1 ∨ 4095 < w then .error 7
    else
      let x : BitVec 64 := Tab.get b.etch.words 0 w
      let uop := (fld x 58 6).toNat
      let dst := (fld x 54 4).toNat
      let imm := loHalf x
      let a := etchSrc b rd ra rb imm r (fld x 50 4).toNat
      let c := etchSrc b rd ra rb imm r (fld x 46 4).toNat
      let done (r : EtchRun) : Except Nat EtchRun :=
        if bit x 45 then .ok r else etchLoop b rd ra rb limit n (w + 1) r
      let jump (r : EtchRun) (take : Bool) : Except Nat EtchRun :=
        if take then etchLoop b rd ra rb limit n (imm.toNat % 4096) r else done r
      let addr := (a + imm).toNat
      let bad : Option Nat :=
        if dataArea (inArea b.ctx.pc) false addr 4 ≠ .dsram then some 8
        else if addr % 4 ≠ 0 then some 2
        else none
      let r := { r with words := r.words + 1, cycles := r.cycles + 1 }
      match etchValue uop a c with
      | some v => done (r.put dst v)
      | none =>
        match uop with
        | 0x15 => done (if c = 0 then r.put dst a else r)
        | 0x20 =>
          match bad with
          | some t => .error t
          | none => done { r.put dst (etchLoad b r addr) with cycles := r.cycles + 1 }
        | 0x21 =>
          match bad with
          | some t => .error t
          | none => if 16 ≤ r.stores.length then .error 7 else done { r with stores := (addr, c) :: r.stores }
        | 0x28 => jump r (decide (a = 0))
        | 0x29 => jump r (decide (a ≠ 0))
        | 0x2A => jump r true
        | 0x2B =>
          let v := Tab.get r.temps 0 dst - 1
          jump (r.put dst v) (decide (v ≠ 0))
        | _ => done r

/-- ETCH rd, ra, rb, INDEX (R291, R292). -/
def Burin.etchOp (b : Burin) (rd ra rb : BitVec 5) (index : BitVec 6) : BuOut :=
  let c := b.ctx
  let e : BitVec 64 := Tab.get b.etch.entries 0 index.toNat
  if b.etch.isOpen || !bit e 12 then c.trap 6
  else
    match etchLoop b (c.get rd) (c.get ra) (c.get rb) ((fld e 16 12).toNat + 1) 4097 (fld e 0 12).toNat {} with
    | .error t => c.trap t
    | .ok r =>
      { ctx := match r.rd with
          | some v => c.set rd v
          | none => c,
        stores := r.stores.reverse.map (fun p => (p.1, leBytes 4 p.2.toNat)), cost := 1 + r.cycles }

/-- A micro-word is valid (R293). -/
def validWord (x : BitVec 64) : Bool :=
  let uop := (fld x 58 6).toNat
  let d := (fld x 54 4).toNat
  let a := (fld x 50 4).toNat
  let c := (fld x 46 4).toNat
  let imm := (loHalf x).toNat
  let src (n : Nat) : Bool := decide (n ≠ 15)
  let addrSrc (n : Nat) : Bool := decide (n ≠ 15 ∧ n ≠ 12)
  let dst : Bool := decide (d = 0) || decide (4 ≤ d ∧ d ≤ 11)
  decide ((fld x 32 13).toNat = 0) &&
  (if uop = 0 then decide (d = 3 ∧ a = 3 ∧ c = 3)
   else if 0x01 ≤ uop ∧ uop ≤ 0x10 ∨ uop = 0x15 ∨ uop = 0x16 then dst && src a && src c
   else if 0x11 ≤ uop ∧ uop ≤ 0x14 then dst && src a && decide (c = 3)
   else if uop = 0x20 then dst && addrSrc a && decide (c = 3)
   else if uop = 0x21 then decide (d = 3) && addrSrc a && addrSrc c
   else if uop = 0x28 ∨ uop = 0x29 then decide (d = 3) && addrSrc a && decide (c = 3) && decide (imm ≤ 4095)
   else if uop = 0x2A then decide (d = 3 ∧ a = 3 ∧ c = 3) && decide (imm ≤ 4095)
   else if uop = 0x2B then decide (4 ≤ d ∧ d ≤ 11) && decide (a = 3 ∧ c = 3) && decide (imm ≤ 4095)
   else false)

/-- An etch table entry is valid (R290, R293). -/
def validEntry (e : BitVec 64) : Bool := decide ((fld e 13 3).toNat = 0 ∧ (fld e 28 36).toNat = 0)

/-- The whole etch state is valid: every entry, every micro-word in use and every dispatch entry (R293, R294, R298).
An all-zero micro-word is an empty one. -/
def Etch.valid (e : Etch) : Bool :=
  e.entries.all (fun p => validEntry p.2) && e.words.all (fun p => validWord p.2) &&
  e.dispatch.all (fun p => decide (p.2.toNat < 2 ^ 15))

/-! One instruction -/

/-- What an operation computes (Tables 11.5–11.8). -/
def Burin.op (b : Burin) (o : BuOp) : BuOut :=
  let c := b.ctx
  match o with
  | .mov rd rb => c.result rd (c.get rb)
  | .add a => c.alu (· + ·) a
  | .sub a => c.alu (· - ·) a
  | .and a => c.alu (· &&& ·) a
  | .or a => c.alu (· ||| ·) a
  | .xor a => c.alu (· ^^^ ·) a
  | .andn rd ra rb => c.result rd (c.get ra &&& ~~~(c.get rb))
  | .shl a => c.alu (fun x y => x <<< (y.toNat % 32)) a
  | .shr a => c.alu (fun x y => x >>> (y.toNat % 32)) a
  | .sar a => c.alu (fun x y => x.sshiftRight (y.toNat % 32)) a
  | .ror rd ra rb => c.result rd ((c.get ra).rotateRight ((c.get rb).toNat % 32))
  | .slt a => c.alu (fun x y => flag (x.slt y)) a
  | .sltu a => c.alu (fun x y => flag (x.ult y)) a
  | .min rd ra rb => c.result rd (if (c.get ra).slt (c.get rb) then c.get ra else c.get rb)
  | .max rd ra rb => c.result rd (if (c.get ra).slt (c.get rb) then c.get rb else c.get ra)
  | .minu rd ra rb => c.result rd (if (c.get ra).ult (c.get rb) then c.get ra else c.get rb)
  | .maxu rd ra rb => c.result rd (if (c.get ra).ult (c.get rb) then c.get rb else c.get ra)
  | .clz rd ra => c.result rd (BitVec.ofNat 32 (clz32 (c.get ra)))
  | .popc rd ra => c.result rd (BitVec.ofNat 32 (popc32 (c.get ra)))
  | .bswap rd ra => c.result rd (bswap32 (c.get ra))
  | .neg rd rb => c.result rd (0 - c.get rb)
  | .addi (.short rd imm) => c.result rd (c.get rd + sext imm)
  | .addi (.long rd ra imm) => c.result rd (c.get ra + sext imm)
  | .andi rd ra imm => c.result rd (c.get ra &&& imm.setWidth 32)
  | .ori rd ra imm => c.result rd (c.get ra ||| imm.setWidth 32)
  | .xori rd ra imm => c.result rd (c.get ra ^^^ imm.setWidth 32)
  | .li rd imm => c.result rd (sext imm)
  | .lui rd imm => c.result rd (imm.setWidth 32 <<< 14)
  | .shli a => c.shift (fun x n => x <<< n) a
  | .shri a => c.shift (fun x n => x >>> n) a
  | .sari a => c.shift (fun x n => x.sshiftRight n) a
  | .slti rd ra imm => c.result rd (flag ((c.get ra).slt (sext imm)))
  | .lws rd imm => b.loadAt rd (c.dsp + 4 * imm.setWidth 32) 4 false
  | .sws rd imm => c.storeAt (c.get rd) (c.dsp + 4 * imm.setWidth 32) 4
  | .lw r base imm => b.loadAt r (c.base base + sext imm) 4 false
  | .lh r base imm => b.loadAt r (c.base base + sext imm) 2 true
  | .lhu r base imm => b.loadAt r (c.base base + sext imm) 2 false
  | .lb r base imm => b.loadAt r (c.base base + sext imm) 1 true
  | .lbu r base imm => b.loadAt r (c.base base + sext imm) 1 false
  | .sw r base imm => c.storeAt (c.get r) (c.base base + sext imm) 4
  | .sh r base imm => c.storeAt (c.get r) (c.base base + sext imm) 2
  | .sb r base imm => c.storeAt (c.get r) (c.base base + sext imm) 1
  | .beqz rd imm => c.branch (decide (c.get rd = 0)) imm
  | .bnez rd imm => c.branch (decide (c.get rd ≠ 0)) imm
  | .beq ra rb imm => c.branch (decide (c.get ra = c.get rb)) imm
  | .bne ra rb imm => c.branch (decide (c.get ra ≠ c.get rb)) imm
  | .blt ra rb imm => c.branch ((c.get ra).slt (c.get rb)) imm
  | .bge ra rb imm => c.branch (!(c.get ra).slt (c.get rb)) imm
  | .bltu ra rb imm => c.branch ((c.get ra).ult (c.get rb)) imm
  | .bgeu ra rb imm => c.branch (!(c.get ra).ult (c.get rb)) imm
  | .jump (.short imm) => c.goto (c.pc + 2 * sext imm)
  | .jump (.long imm) => c.goto (c.pc + 2 * sext imm)
  | .call imm => c.push 4 (c.pc + 2 * sext imm)
  | .callr rb => c.push 2 (c.get rb)
  | .jr rb => c.goto (c.get rb)
  | .ret => c.pop
  | .mul (.short rd rb) => { ctx := c, prod := some (product true (c.get rd) (c.get rb)) }
  | .mul (.long ra rb) => { ctx := c, prod := some (product true (c.get ra) (c.get rb)) }
  | .mulu (.short rd rb) => { ctx := c, prod := some (product false (c.get rd) (c.get rb)) }
  | .mulu (.long ra rb) => { ctx := c, prod := some (product false (c.get ra) (c.get rb)) }
  | .mfs rd idx => b.readSpecial rd idx
  | .mts rd idx => c.writeSpecial rd idx
  | .adj imm => { ctx := { c with dsp := c.dsp + 4 * sext imm } }
  | .adjl imm => { ctx := { c with dsp := c.dsp + 4 * sext imm } }
  | .nop => { ctx := c }
  | .wfe => { ctx := c, isWfe := true, isCommit := true }
  | .commit => { ctx := c, isCommit := true }
  | .tret =>
    let o := c.goto c.epc
    match o.nxt with
    | .trap _ => o
    | _ => { o with ctx := { o.ctx with inTrap := false } }
  | .brk => c.trap 11
  | .etch rd ra rb i => b.etchOp rd ra rb i

/-- Bytes an operation occupies (R286). -/
def BuOp.len (o : BuOp) : Nat :=
  match encodeBu o with
  | .short _ => 2
  | .long _ _ => 4

/-- Lands the loads that `p` picks, oldest first (R281). -/
def BuCtx.landLoads (c : BuCtx) (ls : List PendLoad) : BuCtx :=
  ls.foldl (fun c l => c.set (BitVec.ofNat 5 l.rd) l.val) c

/-- What the instruction at hand sees: loads whose delay slot has passed, and products that have landed (R281,
R282). -/
def Burin.settle (b : Burin) : Burin :=
  let c := b.ctx.landLoads (b.loads.filter (·.slotDone))
  let p := landed b.products b.cycle (c.mhi, c.mlo)
  { b with ctx := { c with mhi := p.1, mlo := p.2 }, loads := b.loads.filter (fun l => !l.slotDone),
           products := b.products.filter (fun q => decide (b.cycle < q.issued + 4)) }

/-- Stores bytes to data SRAM or to the data view of instruction SRAM, logging the old words of data SRAM (R276). -/
def Burin.store (b : Burin) (a : Nat) (l : List Byte) : Burin :=
  if a < 0x40000 then
    { b with dmem := b.dmem.writeBytes a l,
             undo := (a / 4 * 4, BitVec.ofNat 32 (leNat (b.dmem.readBytes (a / 4 * 4) 4))) :: b.undo }
  else { b with imem := b.imem.writeBytes a l }

/-- A trap (R285): a second one while INTRAP is 1 halts Burin. Loads in flight complete first (R281). The handler's address
says whether routine code goes on, so a trap leaves INROUTINE. -/
def Burin.takeTrap (b : Burin) (cause : Nat) : Burin :=
  let c := b.ctx.landLoads b.loads
  if c.inTrap then { b with ctx := c, loads := [], state := .halted }
  else
    { b with loads := [], cycle := b.cycle + 1,
             ctx := { c with epc := c.pc, cause := BitVec.ofNat 4 cause, inTrap := true, pc := c.tvec,
                             inRoutine := inArea c.tvec } }

/-- Retires an instruction that touches no block register: its results land, the program counter moves, the cycle count
advances (R281–R287). -/
def Burin.retire (b : Burin) (len : Nat) (o : BuOut) : Burin :=
  match o.nxt with
  | .trap cause => b.takeTrap cause
  | n =>
    let pc := match n with
      | .goto t => t
      | _ => b.ctx.pc + BitVec.ofNat 32 len
    let b1 := o.stores.foldl (fun b p => b.store p.1 p.2) b
    { b1 with
      ctx := { o.ctx with pc := pc },
      loads := b.loads.map (fun l => { l with slotDone := true }) ++
        (match o.load with
         | some (rd, v) => [{ rd := rd, val := v }]
         | none => []),
      products := match o.prod with
        | some (hi, lo) => b.products ++ [{ issued := b.cycle, hi := hi, lo := lo }]
        | none => b.products,
      evt := b.evt &&& ~~~o.evtClear,
      cycle := b.cycle + o.cost }

end Sys2Proof.Machine
end

