-- ==== Sys2Proof/Machine/Rsa.lean ====
section
/-! DEFINITION. Modular arithmetic and RSA: OAEP, PSS, PKCS #1 v1.5 (08_public_key.md R195–R204; RFC 8017). The algorithms
are those of the standards the manual names (PRESUMED, log 24). -/

namespace Sys2Proof.Machine

/-- `b ^ e mod m`, by the `n` low bits of the exponent, highest first. -/
def powModBits (b e m n : Nat) (acc : Nat) : Nat :=
  match n with
  | 0 => acc
  | k + 1 =>
    let sq := acc * acc % m
    powModBits b e m k (if e / 2 ^ k % 2 = 1 then sq * b % m else sq)

/-- `b ^ e mod m`. -/
def powMod (b e m : Nat) : Nat := powModBits (b % m) e m (Nat.log2 e + 1) (1 % m)

/-- The extended Euclidean algorithm. -/
def egcd (fuel : Nat) (a b : Nat) (x y : Int) : Nat × Int :=
  match fuel with
  | 0 => (a, x)
  | n + 1 => if b = 0 then (a, x) else egcd n b (a % b) y (x - (a / b : Nat) * y)

/-- Inverse modulo `m`, 0 where there is none. -/
def invMod (a m : Nat) : Nat :=
  let (g, x) := egcd (2 * Nat.log2 m + 4) (a % m) m 1 0
  if g = 1 then (x % (m : Int)).toNat else 0

/-- Bits of a number. -/
def bitLen (n : Nat) : Nat := if n = 0 then 0 else Nat.log2 n + 1

/-- MGF1. -/
def mgf1 (alg : Nat) (seed : List Byte) (n : Nat) : List Byte :=
  let h := hashLen alg
  (((List.range ((n + h - 1) / h)).map (fun i => hash alg (seed ++ beBytes 4 i))).flatten).take n

/-- EME-OAEP encoding with a seed of the hash's length. -/
def oaepEncode (alg : Nat) (label m seed : List Byte) (k : Nat) : List Byte :=
  let h := hashLen alg
  let db := hash alg label ++ zeros (k - m.length - 2 * h - 2) ++ [0x01] ++ m
  let mdb := xorBytes db (mgf1 alg seed (k - h - 1))
  [0x00] ++ xorBytes seed (mgf1 alg mdb h) ++ mdb

/-- EME-OAEP decoding. -/
def oaepDecode (alg : Nat) (label em : List Byte) (k : Nat) : Option (List Byte) :=
  let h := hashLen alg
  let ms := (em.drop 1).take h
  let mdb := em.drop (h + 1)
  let seed := xorBytes ms (mgf1 alg mdb h)
  let db := xorBytes mdb (mgf1 alg seed (k - h - 1))
  let rest := (db.drop h).dropWhile (fun b => b = 0)
  if em.headD 1 = 0 ∧ db.take h = hash alg label ∧ rest.headD 0 = 1 ∧ 2 * h + 2 ≤ k then some (rest.drop 1) else none

/-- Clears the `top` leftmost bits of the first byte. -/
def topMask (top : Nat) (l : List Byte) : List Byte :=
  match l with
  | [] => []
  | b :: r => (b &&& BitVec.ofNat 8 (0xFF / 2 ^ top)) :: r

/-- EMSA-PSS encoding into `bits` bits. -/
def pssEncode (alg : Nat) (mHash salt : List Byte) (bits : Nat) : Option (List Byte) :=
  let h := hashLen alg
  let n := (bits + 7) / 8
  if n < h + salt.length + 2 then none
  else
    let hh := hash alg (zeros 8 ++ mHash ++ salt)
    let db := zeros (n - salt.length - h - 2) ++ [0x01] ++ salt
    some (topMask (8 * n - bits) (xorBytes db (mgf1 alg hh (n - h - 1))) ++ hh ++ [0xBC])

/-- EMSA-PSS verification with the salt length. -/
def pssVerify (alg : Nat) (mHash em : List Byte) (saltLen bits : Nat) : Bool :=
  let h := hashLen alg
  let n := (bits + 7) / 8
  if n < h + saltLen + 2 then false
  else
    let mdb := em.take (n - h - 1)
    let hh := (em.drop (n - h - 1)).take h
    let db := topMask (8 * n - bits) (xorBytes mdb (mgf1 alg hh (n - h - 1)))
    decide (em.drop (n - 1) = [0xBC]) && decide (topMask (8 * n - bits) mdb = mdb) &&
    decide (db.take (n - h - saltLen - 1) = zeros (n - h - saltLen - 2) ++ [0x01]) &&
    decide (hash alg (zeros 8 ++ mHash ++ db.drop (n - h - saltLen - 1)) = hh)

/-- EMSA-PKCS1-v1_5 with the DigestInfo of the hash. -/
def pkcs1Encode (alg : Nat) (mHash : List Byte) (k : Nat) : List Byte :=
  let (total, code) : Byte × Byte := match alg with
    | 0x02 => (0x31, 0x01)
    | 0x03 => (0x41, 0x02)
    | _ => (0x51, 0x03)
  let t : List Byte := [0x30, total, 0x30, 0x0D, 0x06, 0x09, 0x60, 0x86, 0x48, 0x01, 0x65, 0x03, 0x04, 0x02, code, 0x05, 0x00,
    0x04, BitVec.ofNat 8 mHash.length] ++ mHash
  [0x00, 0x01] ++ List.replicate (k - t.length - 3) 0xFF ++ [0x00] ++ t

/-- An RSA private key in CRT components. -/
structure RsaKey where
  k : Nat
  n : Nat
  e : Nat
  p : Nat
  q : Nat
  dp : Nat
  dq : Nat
  qinv : Nat

/-- The private operation by CRT. -/
def RsaKey.priv (r : RsaKey) (c : Nat) : Nat :=
  let m1 := powMod c r.dp r.p
  let m2 := powMod c r.dq r.q
  m2 + r.q * (r.qinv * (m1 + r.p - m2 % r.p) % r.p)

/-- A public modulus and exponent that R195 allows. -/
def rsaPublicOk (k n e : Nat) : Bool :=
  decide (256 ≤ k ∧ k ≤ 1024 ∧ 2 ^ (8 * (k - 1)) ≤ n ∧ n % 2 = 1 ∧ e % 2 = 1 ∧ 3 ≤ e)

end Sys2Proof.Machine
end

