-- ==== Sys2Proof/Machine/HashSig.lean ====
section
/-! DEFINITION. Hash-based signatures, verification only: LMS and HSS (SP 800-208), SLH-DSA (FIPS 205)
(08_public_key.md R195, R198). The algorithms are those of the standards the manual names (PRESUMED, log 24). -/

namespace Sys2Proof.Machine

/-! LMS and HSS -/

/-- A one-time signature type: hash, n and w. -/
structure OtsType where
  shake : Bool
  n : Nat
  w : Nat

/-- LM-OTS type codes. -/
def otsType (code : Nat) : Option OtsType :=
  if 1 ≤ code ∧ code ≤ 16 then
    let g := (code - 1) / 4
    some { shake := decide (2 ≤ g), n := if g % 2 = 0 then 32 else 24, w := 2 ^ ((code - 1) % 4) }
  else none

/-- LMS type codes: hash, m and the tree's height. -/
def lmsType (code : Nat) : Option (Bool × Nat × Nat) :=
  if 5 ≤ code ∧ code ≤ 24 then
    let g := (code - 5) / 5
    some (decide (2 ≤ g), if g % 2 = 0 then 32 else 24, 5 + 5 * ((code - 5) % 5))
  else none

/-- Digits of the message part, and of the checksum. -/
def OtsType.u (t : OtsType) : Nat := (8 * t.n + t.w - 1) / t.w
def OtsType.v (t : OtsType) : Nat := (Nat.log2 ((2 ^ t.w - 1) * t.u) + 1 + t.w - 1) / t.w

/-- p: the chains of a one-time signature. -/
def OtsType.p (t : OtsType) : Nat := t.u + t.v

/-- The hash of a type, cut to n bytes. -/
def lmHash (shake : Bool) (n : Nat) (m : List Byte) : List Byte := if shake then shake256 m n else (sha256 m).take n

/-- Digit `i` of `w` bits. -/
def lmDigit (l : List Byte) (i w : Nat) : Nat := (l.getD (i * w / 8) 0).toNat / 2 ^ (8 - w - i * w % 8) % 2 ^ w

/-- Runs a chain from step `j`. -/
def lmChain (h : List Byte → List Byte) (pre : List Byte) (fuel j : Nat) (x : List Byte) : List Byte :=
  match fuel with
  | 0 => x
  | n + 1 => lmChain h pre n (j + 1) (h (pre ++ [BitVec.ofNat 8 j] ++ x))

/-- The candidate one-time public key of a signature. -/
def otsCandidate (t : OtsType) (ident : List Byte) (q : Nat) (c : List Byte) (y : List (List Byte)) (m : List Byte) : List Byte :=
  let h := lmHash t.shake t.n
  let pre := ident ++ beBytes 4 q
  let d := h (pre ++ [0x81, 0x81] ++ c ++ m)
  let top := 2 ^ t.w - 1
  let sum := ((List.range t.u).map (fun i => top - lmDigit d i t.w)).sum
  let all := d ++ beBytes 2 (sum * 2 ^ (16 - t.v * t.w))
  let z := (List.range t.p).map (fun i =>
    let a := lmDigit all i t.w
    lmChain h (pre ++ beBytes 2 i) (top - a) a (y.getD i []))
  h (pre ++ [0x80, 0x80] ++ z.flatten)

/-- Climbs the tree from a leaf. -/
def lmsClimb (h : List Byte → List Byte) (ident : List Byte) (node : Nat) (x : List Byte) (path : List (List Byte)) : List Byte :=
  match path with
  | [] => x
  | s :: r =>
    lmsClimb h ident (node / 2)
      (h (ident ++ beBytes 4 (node / 2) ++ [0x83, 0x83] ++ (if node % 2 = 1 then s ++ x else x ++ s))) r

/-- The lengths of an LMS public key and of the signature at the head of `sig` under it; `none` when a type is
unknown or they disagree. -/
def lmsShape (pub sig : List Byte) : Option (Nat × Nat × OtsType × Bool × Nat × Nat) :=
  match lmsType (beNat (pub.take 4)), otsType (beNat ((pub.drop 4).take 4)) with
  | some (shake, m, height), some t =>
    let off := 8 + t.n + t.p * t.n
    if t.shake = shake ∧ t.n = m ∧ beNat ((sig.drop 4).take 4) = beNat ((pub.drop 4).take 4) ∧
        beNat ((sig.drop off).take 4) = beNat (pub.take 4) then
      some (24 + m, off + 4 + height * m, t, shake, m, height)
    else none
  | _, _ => none

/-- LMS verification. -/
def lmsVerify (pub m sig : List Byte) : Bool :=
  match lmsShape pub sig with
  | none => false
  | some (_, len, t, shake, n, height) =>
    let q := beNat (sig.take 4)
    let h := lmHash shake n
    let ident := (pub.drop 8).take 16
    if sig.length ≠ len ∨ 2 ^ height ≤ q then false
    else
      let c := (sig.drop 8).take t.n
      let y := chunks t.n ((sig.drop (8 + t.n)).take (t.p * t.n))
      let kc := otsCandidate t ident q c y m
      let leaf := h (ident ++ beBytes 4 (2 ^ height + q) ++ [0x82, 0x82] ++ kc)
      let path := chunks n (sig.drop (12 + t.n + t.p * t.n))
      decide (lmsClimb h ident (2 ^ height + q) leaf path = pub.drop 24)

/-- The levels below the top: each signs the next public key. -/
def hssLevels (fuel : Nat) (pub m sig : List Byte) : Bool :=
  match lmsShape pub sig with
  | none => false
  | some (_, len, _) =>
    match fuel with
    | 0 => lmsVerify pub m sig
    | n + 1 =>
      let rest := sig.drop len
      match lmsType (beNat (rest.take 4)) with
      | none => false
      | some (_, mm, _) =>
        let next := rest.take (24 + mm)
        decide (next.length = 24 + mm) && lmsVerify pub next (sig.take len) && hssLevels n next m (rest.drop (24 + mm))

/-- HSS verification: the level count of the key and of the signature agree (Table 8.2). -/
def hssVerify (pub m sig : List Byte) : Bool :=
  let l := beNat (pub.take 4)
  decide (1 ≤ l ∧ l ≤ 8 ∧ 4 ≤ sig.length ∧ beNat (sig.take 4) + 1 = l) &&
  decide (pub.length = 28 + (match lmsType (beNat ((pub.drop 4).take 4)) with
    | some (_, m, _) => m
    | none => 0)) &&
  hssLevels (l - 1) (pub.drop 4) m (sig.drop 4)

/-! SLH-DSA -/

/-- A parameter set of SLH-DSA. -/
structure SlhP where
  shake : Bool
  n : Nat
  h : Nat
  d : Nat
  a : Nat
  k : Nat
  m : Nat

/-- The parameter set of an ALG code 0x48–0x53 (Table 8.2). -/
def slhOf (alg : Nat) : SlhP :=
  let i := alg - 0x48
  let sh := decide (i % 2 = 1)
  match i / 2 with
  | 0 => { shake := sh, n := 16, h := 63, d := 7, a := 12, k := 14, m := 30 }
  | 1 => { shake := sh, n := 16, h := 66, d := 22, a := 6, k := 33, m := 34 }
  | 2 => { shake := sh, n := 24, h := 63, d := 7, a := 14, k := 17, m := 39 }
  | 3 => { shake := sh, n := 24, h := 66, d := 22, a := 8, k := 33, m := 42 }
  | 4 => { shake := sh, n := 32, h := 64, d := 8, a := 14, k := 22, m := 47 }
  | _ => { shake := sh, n := 32, h := 68, d := 17, a := 9, k := 35, m := 49 }

/-- Chains of a WOTS+ signature. -/
def SlhP.len (p : SlhP) : Nat := 2 * p.n + 3

/-- Bytes of a signature. -/
def SlhP.sigLen (p : SlhP) : Nat := (1 + p.k * (1 + p.a) + p.h + p.d * p.len) * p.n

/-- An address: layer, tree, type, key pair, chain or height, hash or index. -/
structure Adrs where
  layer : Nat := 0
  tree : Nat := 0
  type : Nat := 0
  pair : Nat := 0
  hi : Nat := 0
  lo : Nat := 0

/-- The 32 bytes of an address, or its 22 compressed bytes. -/
def Adrs.bytes (x : Adrs) (compressed : Bool) : List Byte :=
  let tail := beBytes 4 x.pair ++ beBytes 4 x.hi ++ beBytes 4 x.lo
  if compressed then beBytes 1 x.layer ++ beBytes 8 x.tree ++ beBytes 1 x.type ++ tail
  else beBytes 4 x.layer ++ beBytes 12 x.tree ++ beBytes 4 x.type ++ tail

/-- F (one input), H and T (more): the tweakable hashes. -/
def SlhP.thash (p : SlhP) (one : Bool) (seed : List Byte) (x : Adrs) (m : List Byte) : List Byte :=
  if p.shake then shake256 (seed ++ x.bytes false ++ m) p.n
  else if one || decide (p.n = 16) then (sha256 (seed ++ zeros (64 - p.n) ++ x.bytes true ++ m)).take p.n
  else (sha512 (seed ++ zeros (128 - p.n) ++ x.bytes true ++ m)).take p.n

/-- The message digest. -/
def SlhP.hmsg (p : SlhP) (r seed root m : List Byte) : List Byte :=
  if p.shake then shake256 (r ++ seed ++ root ++ m) p.m
  else
    let alg := if p.n = 16 then 0x02 else 0x04
    mgf1 alg (r ++ seed ++ hash alg (r ++ seed ++ root ++ m)) p.m

/-- The first `count` digits of `b` bits, highest first. -/
def base2b (l : List Byte) (b count : Nat) : List Nat :=
  let n := beNat l
  let total := 8 * l.length
  (List.range count).map (fun i => n / 2 ^ (total - b * (i + 1)) % 2 ^ b)

/-- A chain of F. -/
def SlhP.chain (p : SlhP) (seed : List Byte) (x : Adrs) (fuel j : Nat) (v : List Byte) : List Byte :=
  match fuel with
  | 0 => v
  | n + 1 => p.chain seed x n (j + 1) (p.thash true seed { x with lo := j } v)

/-- The WOTS+ public key of a signature. -/
def SlhP.wots (p : SlhP) (seed : List Byte) (x : Adrs) (sig : List (List Byte)) (m : List Byte) : List Byte :=
  let msg := base2b m 4 (2 * p.n)
  let sum := (msg.map (fun d => 15 - d)).sum
  let ds := msg ++ base2b (beBytes 2 (sum * 16)) 4 3
  let ends := (List.range p.len).map (fun i =>
    let d := ds.getD i 0
    p.chain seed { x with type := 0, hi := i } (15 - d) d (sig.getD i []))
  p.thash false seed { x with type := 1, hi := 0, lo := 0 } ends.flatten

/-- Climbs a tree: `idx` at height `j`. -/
def SlhP.climb (p : SlhP) (seed : List Byte) (x : Adrs) (idx j : Nat) (v : List Byte) (path : List (List Byte)) : List Byte :=
  match path with
  | [] => v
  | s :: r =>
    p.climb seed x (idx / 2) (j + 1)
      (p.thash false seed { x with hi := j + 1, lo := idx / 2 } (if idx % 2 = 0 then v ++ s else s ++ v)) r

/-- The layers of the hypertree: the root they reach. -/
def SlhP.hyper (p : SlhP) (seed : List Byte) (layer tree leaf : Nat) (m : List Byte) (sigs : List (List (List Byte))) : List Byte :=
  match sigs with
  | [] => m
  | s :: r =>
    let x : Adrs := { layer := layer, tree := tree, pair := leaf }
    let w := p.wots seed x (s.take p.len) m
    let node := p.climb seed { x with type := 2, pair := 0 } leaf 0 w (s.drop p.len)
    p.hyper seed (layer + 1) (tree / 2 ^ (p.h / p.d)) (tree % 2 ^ (p.h / p.d)) node r

/-- SLH-DSA verification of a message with an empty context. -/
def slhVerify (alg : Nat) (pub m sig : List Byte) : Bool :=
  let p := slhOf alg
  let n := p.n
  let seed := pub.take n
  let root := pub.drop n
  let hp := p.h / p.d
  let dg := p.hmsg (sig.take n) seed root ([0, 0] ++ m)
  let mdLen := (p.k * p.a + 7) / 8
  let trLen := (p.h - hp + 7) / 8
  let lfLen := (hp + 7) / 8
  let tree := beNat ((dg.drop mdLen).take trLen) % 2 ^ (p.h - hp)
  let leaf := beNat ((dg.drop (mdLen + trLen)).take lfLen) % 2 ^ hp
  let idx := base2b (dg.take mdLen) p.a p.k
  let fors := chunks ((1 + p.a) * n) ((sig.drop n).take (p.k * (1 + p.a) * n))
  let x : Adrs := { tree := tree, type := 3, pair := leaf }
  let roots := (List.range p.k).map (fun i =>
    let part := chunks n (fors.getD i [])
    let id := i * 2 ^ p.a + idx.getD i 0
    p.climb seed x id 0 (p.thash true seed { x with lo := id } (part.headD [])) (part.drop 1))
  let pk := p.thash false seed { x with type := 4 } roots.flatten
  let ht := sig.drop (n + p.k * (1 + p.a) * n)
  decide (pub.length = 2 * n ∧ sig.length = p.sigLen) &&
  decide (p.hyper seed 0 tree leaf pk ((chunks ((hp + p.len) * n) ht).map (chunks n)) = root)

end Sys2Proof.Machine
end

