-- ==== Sys2Proof/Machine/Chacha.lean ====
section
/-! DEFINITION. ChaCha20-Poly1305 (RFC 8439; 06_cipher_lanes.md R144, R147). The algorithm is that of the standard the
manual names (PRESUMED, log 24). -/

namespace Sys2Proof.Machine

/-- The quarter round on entries a, b, c, d. -/
def quarter (s : Array Word) (a b c d : Nat) : Array Word :=
  let va := s.getD a 0
  let vb := s.getD b 0
  let vc := s.getD c 0
  let vd := s.getD d 0
  let va := va + vb
  let vd := (vd ^^^ va).rotateLeft 16
  let vc := vc + vd
  let vb := (vb ^^^ vc).rotateLeft 12
  let va := va + vb
  let vd := (vd ^^^ va).rotateLeft 8
  let vc := vc + vd
  let vb := (vb ^^^ vc).rotateLeft 7
  (((s.setIfInBounds a va).setIfInBounds b vb).setIfInBounds c vc).setIfInBounds d vd

/-- A double round. -/
def doubleRound (s : Array Word) : Array Word :=
  let s := quarter (quarter (quarter (quarter s 0 4 8 12) 1 5 9 13) 2 6 10 14) 3 7 11 15
  quarter (quarter (quarter (quarter s 0 5 10 15) 1 6 11 12) 2 7 8 13) 3 4 9 14

/-- The 64 bytes of key stream of a block. -/
def chachaBlock (key nonce : List Byte) (ctr : Nat) : List Byte :=
  let w (l : List Byte) : List Word := (chunks 4 l).map (fun b => BitVec.ofNat 32 (leNat b))
  let init := ([0x61707865, 0x3320646e, 0x79622d32, 0x6b206574] ++ w key ++ [BitVec.ofNat 32 ctr] ++ w nonce).toArray
  let fin := (List.range 10).foldl (fun s _ => doubleRound s) init
  ((List.zipWith (· + ·) fin.toList init.toList).map (fun x => leBytes 4 x.toNat)).flatten

/-- ChaCha20 from block counter `ctr` on. -/
def chachaXor (key nonce : List Byte) (ctr : Nat) (bs : List (List Byte)) : List Byte :=
  match bs with
  | [] => []
  | b :: r => xorBytes b (chachaBlock key nonce ctr) ++ chachaXor key nonce (ctr + 1) r

/-- Poly1305. -/
def poly1305 (key msg : List Byte) : List Byte :=
  let r := leNat (key.take 16) &&& 0x0ffffffc0ffffffc0ffffffc0fffffff
  let s := leNat (key.drop 16)
  let acc := (chunks 16 msg).foldl (fun a b => (a + leNat (b ++ [1])) * r % (2 ^ 130 - 5)) 0
  leBytes 16 (acc + s)

/-- The tag of RFC 8439. -/
def ccpTag (key nonce aad c : List Byte) : List Byte :=
  let pad (l : List Byte) : List Byte := l ++ zeros ((16 - l.length % 16) % 16)
  poly1305 ((chachaBlock key nonce 0).take 32)
    (pad aad ++ pad c ++ leBytes 8 aad.length ++ leBytes 8 c.length)

/-- Encrypts or decrypts the text. -/
def ccpCrypt (key nonce p : List Byte) : List Byte := chachaXor key nonce 1 (chunks 64 p)

end Sys2Proof.Machine
end

