-- ==== Sys2Proof/Machine/DigestCtx.lean ====
section
/-! DEFINITION. Digest contexts: residence, spill, restore, clearing (07_digest.md R177–R191). -/

namespace Sys2Proof.Machine

/-- Changes the digest control's part of the state. -/
def State.modDg (s : State) (f : DigestSt → DigestSt) : State := { s with dg := f s.dg }

/-- Key of a session context. -/
def sessKey (fn ctx : Nat) : Nat := 16384 + fn * 64 + ctx

/-- A context, if it exists. -/
def State.dctx (s : State) (k : Nat) : Option DCtx := (s.dg.ctxs.find? (fun p => p.1 == k)).map (·.2)

/-- Puts a context, used now. -/
def State.putDctx (s : State) (k : Nat) (c : DCtx) : State :=
  s.modDg (fun d => { d with
    useNo := d.useNo + 1, ctxs := d.ctxs.filter (fun p => p.1 != k) ++ [(k, { c with used := d.useNo })] })

/-- Removes a context. -/
def State.dropDctx (s : State) (k : Nat) : State :=
  s.modDg (fun d => { d with ctxs := d.ctxs.filter (fun p => p.1 != k) })

/-- The lane whose entry a context occupies. -/
def CtxPlace.lane? : CtxPlace → Option Nat
  | .lane u => some u
  | .spilling u _ => some u
  | _ => none

/-- A context that is in the spill area. -/
def CtxPlace.isSpilled : CtxPlace → Bool
  | .spilled _ => true
  | .restoring _ => true
  | _ => false

/-- Resident context entries in use on a lane (DL_LANE_STAT.RESIDENT). -/
def State.residents (s : State) (u : Nat) : Nat :=
  (s.dg.ctxs.filter (fun p => p.2.place.lane? == some u)).length

/-- The body of a spilled context (the layout is the block's own, R182; log 31). -/
def ctxBody (c : DCtx) : List Byte :=
  let st (l : List DWord) (n : Nat) : List Byte := fit (8 * n) ((l.map (fun x => leBytes 8 x.toNat)).flatten)
  let o := c.outer.getD {}
  fit 480 ([c.hash.alg, BitVec.ofNat 8 (b2n c.outer.isSome), BitVec.ofNat 8 c.hash.buf.length] ++
    leBytes 16 c.hash.total ++ st c.hash.st 25 ++ fit 168 c.hash.buf ++ st o.st 8)

/-- A context from its body. -/
def ctxOfBody (b : List Byte) : DCtx :=
  let alg := b.headD 0
  let n := if alg.toNat < 8 then 8 else 25
  let st (o k : Nat) : List DWord := (List.range k).map (fun i => BitVec.ofNat 64 (fieldAt b (o + 8 * i) 8))
  { hash := { alg := alg, st := st 19 n, buf := (slice b 219 168).take (b.getD 2 0).toNat, total := fieldAt b 3 16 },
    outer := if b.getD 1 0 = 0 then none
      else some { alg := alg, st := st 387 8, total := hashBlock alg.toNat } }

/-- Address of a context in the spill area (Table 7.7). -/
def DigestSt.place (d : DigestSt) (k : Nat) : Nat :=
  d.spillAddr.toNat * 2 ^ 21 + (if k < 16384 then k * 512 else 0x800000 + (k - 16384) * 512)

/-- Owner fields of a spilled record: function, index, kind (Table 7.8). -/
def State.ctxOwner (s : State) (k : Nat) : Nat × Nat × Nat :=
  if k < 16384 then (((s.tag? k).map (·.fn)).getD 0, k, 1) else ((k - 16384) / 64, (k - 16384) % 64, 2)

/-- The initiator of a context's spill traffic. -/
def ctxWho (k : Nat) : Who := if k < 16384 then .linkContext k else .context ((k - 16384) / 64) ((k - 16384) % 64)

/-- The spilled record (Table 7.8). -/
def State.ctxRecord (s : State) (k : Nat) (c : DCtx) (ctr : Nat) : List Byte :=
  let (f, i, kind) := s.ctxOwner k
  let head := leBytes 8 ctr ++ leBytes 2 f ++ leBytes 2 i ++ [BitVec.ofNat 8 kind,
    if c.outer.isSome then 0x10 else c.hash.alg, 0, 0]
  let (b, t) := gcmSeal s.dg.spillKey (zeros 4 ++ beBytes 8 ctr) head (ctxBody c)
  head ++ b ++ t

/-- The unit a link occupies. -/
def Phase.unit? : Phase → Option Nat
  | .running u => some u
  | .missWait u => some u
  | _ => none

/-- A lane clears a set of contexts: sessions close, suspended links end with CONTEXT_LOST (R185); a link that runs is left
to the caller. The answer lists the tags of those links. -/
def State.clearCtxs (s : State) (p : Nat → DCtx → Bool) : List Nat × State :=
  let gone := s.dg.ctxs.filter (fun x => p x.1 x.2)
  let tags := (gone.filter (fun x => decide (x.1 < 16384))).map (·.1)
  let s := s.modDg (fun d => { d with
    ctxs := d.ctxs.filter (fun x => !p x.1 x.2), ctxLost := d.ctxLost + BitVec.ofNat 64 gone.length })
  (tags, tags.foldl (fun s t =>
    match s.tag? t with
    | some e =>
      if e.phase.unit?.isSome then s else s.setTag t { e with phase := .ended, status := .contextLost, outBytes := 0, result := 0 }
    | none => s) s)

/-- A lane clears its entries (R185). -/
def State.clearLane (s : State) (u : Nat) : State := (s.clearCtxs (fun _ c => decide (c.place.lane? = some u))).2

/-- Spills the least recently used entry of a lane that runs a link, when no entry is free (R179, R182). The answer is false
when the region table denies the write: the lane has cleared its entries (R185). -/
def State.spillOne (s : State) (u : Nat) (running : Nat) : Bool × State :=
  if !s.dg.spillEn || decide (s.residents u < 8) || s.dg.ctxs.any (fun p => decide (p.2.place.lane? = some u) &&
      !decide (p.2.place = .lane u)) then (true, s)
  else
    let best := s.dg.ctxs.foldl (fun b p =>
      if p.2.place = .lane u ∧ p.1 ≠ running then
        match b with
        | none => some p
        | some (q : Nat × DCtx) => if p.2.used < q.2.used then some p else b
      else b) none
    match best with
    | none => (true, s)
    | some (k, c) =>
      let ctr := s.dg.spillCtr
      let s := s.modDg (fun d => { d with
        spillCtr := ctr + 1,
        ctxs := d.ctxs.map (fun p => if p.1 = k then (k, { c with place := .spilling u ctr }) else p) })
      let (ok, s) := s.fabWrite (ctxWho k) 0 (s.dg.place k) (s.ctxRecord k c ctr) false
      (ok, if ok then s else s.clearLane u)

/-- The spill's write response: the entry is free (R182). -/
def State.spillDone (s : State) (k : Nat) : State :=
  match s.dctx k with
  | none => s
  | some c =>
    match c.place with
    | .spilling _ ctr =>
      s.modDg (fun d => { d with
        spills := satAdd d.spills 1,
        ctxs := d.ctxs.map (fun p => if p.1 = k then (k, { c with hash := {}, outer := none, place := .spilled ctr }) else p) })
    | _ => s

/-- A spill read failed or was denied: the lane clears its entries; the record in the spill area stays as it is, for a
session (R185). -/
def State.restoreFails (s : State) (k u : Nat) : State :=
  let s := s.clearLane u
  if k < 16384 then s.dropDctx k
  else s.modDg (fun d => { d with ctxs := d.ctxs.map (fun p => match p.2.place with
    | .restoring ctr => if p.1 = k then (k, { p.2 with place := .spilled ctr }) else p
    | _ => p) })

/-- Context `k` is on lane `u`, or does not exist. -/
def State.ctxOn (s : State) (k u : Nat) : Bool :=
  match s.dctx k with
  | none => true
  | some c => decide (c.place.lane? = some u)

/-- A link that owns context `k` starts on lane `u`: once the lane has a free entry, a resident context moves there and a
spilled one is read back (R179, R181). The answer is false when the region table denies the read. -/
def State.ctxTo (s : State) (k u : Nat) : Bool × State :=
  match s.dctx k with
  | none => (true, s)
  | some c =>
    if c.place.lane? ≠ some u ∧ 8 ≤ s.residents u then (true, s)
    else match c.place with
    | .lane _ => (true, s.putDctx k { c with place := .lane u })
    | .spilling _ _ => (true, s.putDctx k { c with place := .lane u })
    | .spilled ctr =>
      let s := s.putDctx k { c with place := .restoring ctr }
      let (ok, s) := s.fabRead (ctxWho k) 0 (s.dg.place k) 512 false
      (ok, if ok then s else s.restoreFails k u)
    | .restoring _ => (true, s)

/-- The session context that a session opcode names (R177). -/
def sessionOf (e : TagEnt) : Option Nat :=
  if 0x2F0 ≤ e.desc.opcode.toNat ∧ e.desc.opcode.toNat ≤ 0x2F3 then some (sessKey e.fn (e.desc.aux.toNat % 64)) else none

/-- Links that name one context start in issue order, each after the previous one has ended (R178). -/
def State.sessionBlocked (s : State) (e : TagEnt) : Bool :=
  match sessionOf e with
  | none => false
  | some k => s.sq.tags.any (fun p => decide (sessionOf p.2 = some k) && decide (p.2.phase ≠ .ended) &&
      decide (p.2.pkt < e.pkt ∨ (p.2.pkt = e.pkt ∧ p.2.link < e.link)))

/-- The session context that a link goes on with: SESS_START replaces it instead (R177). -/
def sessionUsed (e : TagEnt) : Option Nat := if e.desc.opcode = 0x2F0 then none else sessionOf e

/-- The lane has the contexts that a link needs, and an entry for the session that it opens (R179, R181). -/
def State.ctxsReady (s : State) (t u : Nat) (e : TagEnt) : Bool :=
  s.ctxOn t u && (match sessionUsed e with
    | some k => s.ctxOn k u
    | none => true) &&
  (decide (e.desc.opcode ≠ 0x2F0) || decide (s.residents u < 8) || (match sessionOf e with
    | some k => decide ((s.dctx k).bind (·.place.lane?) = some u)
    | none => true))

/-- The contexts of a link and of its session come to the lane that runs it, and the lane keeps an entry free. The answer is
false when an access for that is denied, which ends the link (R185). -/
def State.digestStart (s : State) (t u : Nat) (e : TagEnt) : Bool × State :=
  let (ok, s) := s.ctxTo t u
  let (ok', s) := match sessionUsed e with
    | some k => if s.ctxOn t u then s.ctxTo k u else (true, s)
    | none => (true, s)
  let (ok'', s) := s.spillOne u ((sessionUsed e).getD t)
  (ok && ok' && ok'', s)

/-- A restored record is authenticated and checked against the directory: the context, or CONTEXT_LOST with
DL_SPILL_AUTH (R183). The answer is false when the context is lost. -/
def State.restoreCtx (s : State) (k u : Nat) (b : List Byte) : Bool × State :=
  match s.dctx k with
  | none => (true, s)
  | some c =>
    match c.place with
    | .restoring ctr =>
      let (f, i, kind) := s.ctxOwner k
      let good := decide (fieldAt b 0 4 = ctr % 2 ^ 32 ∧ fieldAt b 8 2 = f ∧ fieldAt b 0x0A 2 = i ∧ (b.getD 0x0C 0).toNat = kind)
      match gcmOpen s.dg.spillKey (zeros 4 ++ beBytes 8 (fieldAt b 0 8)) (b.take 16) ((b.drop 16).take 480) (b.drop 496) with
      | some body =>
        if good && !s.dg.spillKey.isEmpty then
          (true, (s.putDctx k { ctxOfBody body with place := .lane u }).modDg (fun d => { d with restores := satAdd d.restores 1 }))
        else (false, ((s.clearCtxs (fun j _ => decide (j = k))).2).raise u 0x23 (formA (s.dg.place k)))
      | none => (false, ((s.clearCtxs (fun j _ => decide (j = k))).2).raise u 0x23 (formA (s.dg.place k)))
    | _ => (true, s)

end Sys2Proof.Machine
end

