-- ==== Sys2Proof/Machine/Sched.lean ====
section
/-! DEFINITION. Unit kinds, queues and the assignment of links to units (04_chains.md R90–R110, R384). -/

namespace Sys2Proof.Machine

/-- The unit kinds of the queues (R98). -/
inductive Kind where
  | none | cipher | digest | modular | ntt | stipple | drbg | vault | burin
  deriving DecidableEq, Repr

/-- Number of a kind. -/
def Kind.no : Kind → Nat
  | .none => 0 | .cipher => 1 | .digest => 2 | .modular => 3 | .ntt => 4 | .stipple => 5 | .drbg => 6
  | .vault => 7 | .burin => 8

/-- The kind an opcode needs (Table 3.5). -/
def kindOf (op : BitVec 12) : Kind :=
  let o := op.toNat
  if o = 0 then .none
  else if o < 0x100 then .burin
  else if o < 0x200 then .cipher
  else if o < 0x300 then .digest
  else if o < 0x400 then .modular
  else if o < 0x500 then .ntt
  else if o < 0x600 then .stipple
  else if o < 0x700 then .vault
  else if o < 0x800 then .drbg
  else .burin

/-- Source numbers of the units of a kind (Table 13.2). -/
def Kind.units : Kind → List Nat
  | .none => []
  | .cipher => (List.range 18).map (0x100 + ·)
  | .digest => (List.range 9).map (0x120 + ·)
  | .modular => (List.range 6).map (0x140 + ·)
  | .ntt => [0x146, 0x147]
  | .stipple => [0x00C]
  | .drbg => [0x00B]
  | .vault => [0x004]
  | .burin => [0x003]

/-- The kind a unit belongs to. -/
def unitKind (u : Nat) : Kind :=
  if 0x100 ≤ u ∧ u < 0x112 then .cipher
  else if 0x120 ≤ u ∧ u < 0x129 then .digest
  else if 0x140 ≤ u ∧ u < 0x146 then .modular
  else if u = 0x146 ∨ u = 0x147 then .ntt
  else if u = 0x00C then .stipple
  else if u = 0x00B then .drbg
  else if u = 0x004 then .vault
  else if u = 0x003 then .burin
  else .none

/-- The power domain of a unit (Table 15.1). -/
def unitDomain (u : Nat) : Option Nat :=
  if 0x100 ≤ u ∧ u < 0x112 then some (10 + (u - 0x100))
  else if 0x120 ≤ u ∧ u < 0x129 then some (28 + (u - 0x120))
  else if 0x140 ≤ u ∧ u < 0x148 then some (37 + (u - 0x140))
  else if 0x200 ≤ u ∧ u < 0x240 then some (46 + (u - 0x200) / 16)
  else if u = 0x003 then some 2
  else if u = 0x004 then some 8
  else if u = 0x008 then some 3
  else if u = 0x009 then some 4
  else if u = 0x00A then some 7
  else if u = 0x00B then some 9
  else if u = 0x00C then some 45
  else if u = 0x00D then some 50
  else if u = 0x00E then some 51
  else if u = 0x010 ∨ u = 0x005 then some 5
  else if u = 0x011 ∨ u = 0x006 then some 6
  else none

/-- The unit a domain holds for repair (Tables 13.2, 15.1). -/
def domainUnit (d : Nat) : Option Nat :=
  if d = 2 then some 0x003
  else if d = 3 then some 0x008
  else if d = 4 then some 0x009
  else if d = 5 then some 0x010
  else if d = 6 then some 0x011
  else if d = 7 then some 0x00A
  else if d = 8 then some 0x004
  else if d = 9 then some 0x00B
  else if 10 ≤ d ∧ d < 28 then some (0x100 + (d - 10))
  else if 28 ≤ d ∧ d < 37 then some (0x120 + (d - 28))
  else if 37 ≤ d ∧ d < 45 then some (0x140 + (d - 37))
  else if d = 45 then some 0x00C
  else if 46 ≤ d ∧ d < 50 then some (0x200 + 16 * (d - 46))
  else if d = 50 then some 0x00D
  else if d = 51 then some 0x00E
  else none

/-- A unit takes work: WORKING or RESERVED. -/
def Role.inService : Role → Bool
  | .working | .reserved => true
  | _ => false

/-- Units of a kind with a role. -/
def State.countRole (s : State) (k : Kind) (p : Role → Bool) : Nat :=
  (k.units.filter (fun u => p (s.unit u).role)).length

/-- The reserve of the profile in force with GC_OVERRIDE (Table 4.3, GC_OVERRIDE). -/
def State.reserve (s : State) (k : Kind) : Nat :=
  match k with
  | .cipher => if s.pf.dEn then s.pf.dCipher.toNat else if s.pf.current = 1 then 0 else 4
  | .digest => if s.pf.dEn then s.pf.dDigest.toNat else if s.pf.current = 1 then 0 else 2
  | _ => 0

/-- Working units a kind has in a profile (R337). -/
def profileCount (k : Kind) (profile : BitVec 2) : Nat :=
  match k with
  | .cipher => if profile = 1 then 18 else 16
  | .digest => if profile = 1 then 9 else 8
  | .modular => 5
  | .ntt => 2
  | _ => 1

/-- Marks the first `r` working lanes of a kind RESERVED and the others WORKING (R100, R106; which lanes: log 13). -/
def markReserve (units : List Nat) (r : Nat) (s : State) : State :=
  match units with
  | [] => s
  | u :: rest =>
    if (s.unit u).role.inService then
      markReserve rest (r - 1) (s.modUnit u (fun x => { x with role := if r = 0 then .working else .reserved }))
    else markReserve rest r s

/-- A lane that takes over a link in BULK: it proofs 50 times before it runs it (R346). -/
def State.unproofed (s : State) (u : Nat) : Bool := (s.unit u).role.inService && decide ((s.unit u).need = 50)

/-- Renews the reserve of the cipher and digest lanes. -/
def State.renewReserve (s : State) : State :=
  let s := markReserve Kind.cipher.units (s.reserve .cipher) s
  markReserve Kind.digest.units (s.reserve .digest) s

/-- A link's place in the order of service (R98, R99): class D by deadline, then priorities 7 to 0, then class B; a
suspended link at the head of its place; then the round robin; then the packet's issue order. -/
structure Rank where
  tier : Nat
  key : Nat
  fresh : Nat
  fnTurn : Nat
  ringTurn : Nat
  order : Nat

/-- Lexicographic order of ranks. -/
def Rank.before (a b : Rank) : Bool :=
  if a.tier ≠ b.tier then a.tier < b.tier
  else if a.key ≠ b.key then a.key < b.key
  else if a.fresh ≠ b.fresh then a.fresh < b.fresh
  else if a.fnTurn ≠ b.fnTurn then a.fnTurn < b.fnTurn
  else if a.ringTurn ≠ b.ringTurn then a.ringTurn < b.ringTurn
  else a.order < b.order

/-- Position of `x` in the turn that starts after the one last served (`last` is that number plus 1). -/
def turn (n last x : Nat) : Nat := (x + n - last % n) % n

/-- The level at which a link is served round robin: priorities 0 to 7 with its aging, then class B; class D has none
(R98, R99). -/
def State.level (s : State) (e : TagEnt) : Option Nat :=
  let fl := s.flight e.pkt
  match fl.cls with
  | .d => none
  | .p => some (min 7 (fl.prio.toNat + e.aged))
  | .b => some (if e.aged = 0 then 8 else min 7 (e.aged - 1))

/-- Where the turn of the functions stands at a kind and level, and that of a function's rings (R98). -/
def fnTurnAt (k : Kind) (level : Nat) : Nat := k.no * 16 + level
def ringTurnAt (k : Kind) (level fn : Nat) : Nat := 4096 + fnTurnAt k level * 1024 + fn

/-- The rank of a queued link. A link that a repair interrupted on a unit without a spare goes before all others
(R239). -/
def State.rank (s : State) (k : Kind) (e : TagEnt) : Rank :=
  let head := if e.first then 0 else 1
  match s.level e with
  | none => { tier := head, key := (s.flight e.pkt).deadline.toNat, fresh := 0, fnTurn := 0, ringTurn := 0, order := e.pkt }
  | some v =>
    { tier := if v = 8 then head * 3 else head * 2, key := if v = 8 then 0 else 7 - v,
      fresh := if e.phase = .suspended then 0 else 1,
      fnTurn := turn 1024 (s.sq.served.get 0 (fnTurnAt k v)) e.fn,
      ringTurn := turn 16384 (s.sq.served.get 0 (ringTurnAt k v e.fn)) e.ring, order := e.pkt }

/-- A link waits in the queue of kind `k`. -/
def TagEnt.waitsFor (e : TagEnt) (k : Kind) : Bool :=
  (decide (e.phase = .queued) || decide (e.phase = .suspended)) && decide (kindOf e.desc.opcode = k)

/-- A class D link waits for the kind (R100). -/
def State.dWaits (s : State) (k : Kind) : Bool :=
  s.sq.tags.any (fun p => p.2.waitsFor k && decide ((s.flight p.2.pkt).cls = .d))

/-- A class D link waits for the kind that could start on a unit that falls free (R100). -/
def State.dReady (s : State) (k : Kind) : Bool :=
  s.sq.tags.any (fun p => p.2.waitsFor k && decide ((s.flight p.2.pkt).cls = .d) && !s.sessionBlocked p.2)

/-- The power estimate of the moment, a free value (log 22). -/
def State.estimate (s : State) : State :=
  let (i, s) := s.draw
  { s with pw := { s.pw with est := Config.powerEstimate i } }

/-- The estimated power exceeds LEAN's cap, or FLOOR where that is higher (R108). -/
def State.powerOver (s : State) : Bool := decide (max s.pf.cap.toNat 7 * 10 < s.pw.est.toNat)

/-- Links issued under LEAN run, so the estimate counts (R108, R109). -/
def State.lean (s : State) : Bool := decide (s.pf.current = 2) || s.sq.flights.any (fun p => decide (p.2.profile = 2))

/-- LEAN's power cap holds a class P or B link that was issued under LEAN in its queue (R108, R109). -/
def State.capHolds (s : State) (e : TagEnt) : Bool :=
  s.powerOver && decide ((s.flight e.pkt).profile = 2) && decide ((s.flight e.pkt).cls ≠ .d)

/-- The reserve of a kind that was in force when a link was issued: it holds for the link until it ends (R109, R110). -/
def State.reserveOf (s : State) (k : Kind) (e : TagEnt) : Nat :=
  match k with
  | .cipher => (s.flight e.pkt).resCipher
  | .digest => (s.flight e.pkt).resDigest
  | _ => 0

/-- A lane belongs to the reserve that holds for a link (R100, R109, R110; which lanes: log 13). -/
def State.reservedFor (s : State) (k : Kind) (e : TagEnt) (u : Nat) : Bool :=
  ((k.units.filter (fun u => (s.unit u).role.inService)).take (s.reserveOf k e)).contains u

/-- A reserved lane of the kind is free (R100). -/
def State.reservedFree (s : State) (k : Kind) : Bool :=
  k.units.any (fun u => decide ((s.unit u).role = .reserved) && decide ((s.unit u).busy = none))

/-- The lane that holds a link's context (R181). -/
def State.homeLane (s : State) (t : Nat) (e : TagEnt) : Option Nat :=
  match s.dctx ((sessionOf e).getD t) with
  | some c => c.place.lane?
  | none => none

/-- A reserved lane may be lent: not a digest lane whose entries are all used while none can spill (R180). -/
def State.mayLend (s : State) (k : Kind) (u : Nat) : Bool :=
  decide (k ≠ .digest) || s.dg.spillEn || decide (s.residents u < 8)

/-- A free unit that may take the link now (R98, R100): the lane that holds its context, else the lowest number; a
reserved lane only for class D, or borrowed while no class D link waits. The reserve is that of the link's issue
(R109, R110). -/
def State.freeUnit (s : State) (k : Kind) (e : TagEnt) (home : Option Nat) : Option Nat :=
  let free (u : Nat) : Bool := decide ((s.unit u).busy = none) && (s.unit u).role.inService &&
    (decide (k ≠ .digest) || s.dg.spillEn || decide (home = none) || decide (home = some u) || decide (s.residents u < 8))
  let pick (p : Nat → Bool) : Option Nat :=
    match home with
    | some u => if k.units.contains u && p u then some u else k.units.find? p
    | none => k.units.find? p
  if (s.flight e.pkt).cls = .d then
    match pick (fun u => free u && s.reservedFor k e u) with
    | some u => some u
    | none => pick free
  else
    match pick (fun u => free u && !s.reservedFor k e u) with
    | some u => some u
    | none => if s.dWaits k then none else pick (fun u => free u && s.mayLend k u)

/-- The waiting link of kind `k` that is served first. -/
def State.firstQueued (s : State) (k : Kind) : Option (Nat × TagEnt) :=
  s.sq.tags.foldl (fun best p =>
    if p.2.waitsFor k && !s.capHolds p.2 && !s.sessionBlocked p.2 then
      match best with
      | none => some p
      | some b => if (s.rank k p.2).before (s.rank k b.2) then some p else best
    else best) none

/-- A modular or NTT link holds an impression entry from its start on (R207). -/
def State.holdImpression (s : State) (k : Kind) (t : Nat) : State :=
  if k = .modular ∨ k = .ntt then
    let l := addSet s.pk.imps t
    { s with pk := { s.pk with imps := l, hwm := BitVec.ofNat 8 (max s.pk.hwm.toNat l.length) } }
  else s

/-- A link ends without running. -/
def State.endLink (s : State) (t : Nat) (st : Status) (out : Nat) (result : DWord) : State :=
  match s.tag? t with
  | some e => s.setTag t { e with phase := .ended, status := st, outBytes := out, result := result }
  | none => s

/-- A link starts on a unit. -/
def State.startLink (s : State) (k : Kind) (t u : Nat) (e : TagEnt) : State :=
  let level := s.level e
  let s := (s.setTag t { e with phase := .running u, started := true, lastUnit := u, first := false }).holdImpression k t
  let (ok, s) : Bool × State := if k = .digest then s.digestStart t u e else (true, s)
  let s := if ok then s.modUnit u (fun x => { x with busy := some t }) else s.endLink t .busError 0 0
  let s : State := if k = .burin then { s with bu := s.bu.arrive 0x08 } else s
  match level with
  | none => s
  | some v =>
    { s with sq := { s.sq with
        served := (s.sq.served.set 0 (fnTurnAt k v) (e.fn + 1)).set 0 (ringTurnAt k v e.fn) (e.ring + 1) } }

/-- No unit of the kind works and none is on its way back within the restart bound: OVERLOAD under R340. The digest
and cipher lanes that are gated can be woken (R384). Stipple out of service: R240. -/
def State.exhausted (s : State) (k : Kind) : Bool :=
  (decide (k = .stipple) && (s.unit 0x00C).outOfService) ||
  decide (k ∈ [.cipher, .digest, .modular, .ntt]) &&
  !(k.units.any (fun u => (s.unit u).role.inService || decide ((s.unit u).role = .gated)))

/-- Serves the queue of one kind while a unit is free. -/
def State.serve (fuel : Nat) (k : Kind) (s : State) : State :=
  match fuel with
  | 0 => s
  | n + 1 =>
    match s.firstQueued k with
    | none => s
    | some (t, e) =>
      if s.exhausted k then State.serve n k (s.endLink t .overload 0 0)
      else
        match s.freeUnit k e (s.homeLane t e) with
        | some u =>
          if (k = .modular ∨ k = .ntt) ∧ 128 ≤ s.pk.imps.length ∧ s.pk.imps.contains t = false then s
          else State.serve n k (s.startLink k t u e)
        | none => s

/-! Ramps (R379) -/

/-- Domains that ramp; `restarts`: those of restarts after a fault are counted too. -/
def State.ramping (s : State) (restarts : Bool) : Nat :=
  (s.pw.doms.filter (fun p => decide (p.2.state = .ramp) && (restarts || decide (p.2.why ≠ .restart)))).length

/-- Starts the ramp of a domain that waits for a place (R378, R379): a restart first switches off. -/
def State.pumpDom (s : State) (d : Nat) : State :=
  let x := s.dom d
  let waits := decide (x.why = .startup) || decide (x.why = .wake) || decide (x.why = .release)
  let off := decide (x.state = .off) || decide (x.state = .heldOff) || decide (x.state = .gated)
  let place := decide (s.ramping true < 4) && (decide (x.why = .restart) || decide (s.ramping false < 3))
  if (x.why = .restart ∨ x.why = .release) ∧ x.state = .on ∧ place then
    s.setDom d { x with state := .ramp, req := false, reqAt := s.po.tm, late := false }
  else if waits && off && !x.req && place then
    s.setDom d { x with state := .ramp, req := true, reqAt := s.po.tm, late := false }
  else s

/-- Starts every ramp that has a place. -/
def State.pump (s : State) : State := (s.pw.doms.map (·.1)).foldl (fun s d => s.pumpDom d) s

/-- A gated lane is woken when its queue holds a link that no powered lane can start (R384): its power request
rises. -/
def State.wakeLane (s : State) (k : Kind) : State :=
  if s.sq.tags.any (fun p => p.2.waitsFor k) then
    match k.units.find? (fun u => decide ((s.unit u).role = .gated) && !(s.unit u).gatedSpare) with
    | none => s
    | some u =>
      match unitDomain u with
      | none => s
      | some d =>
        if (s.dom d).state = .gated then (s.setDom d { s.dom d with why := .wake }).pump else s
  else s

/-- Serves every queue (R98). After a block halt nothing starts (R326), nor while the sequencer is fenced (R19); under LEAN
the power estimated at that moment counts (R108). -/
def State.schedule (s : State) : State :=
  if s.fc.halted || s.stopped 0x00A then s
  else
    let n := s.sq.tags.length + 1
    let s := if s.lean then s.estimate else s
    let s := [Kind.cipher, .digest, .modular, .ntt, .stipple, .drbg, .vault, .burin].foldl
      (fun s k => State.serve n k s) s
    (s.wakeLane .cipher).wakeLane .digest

/-- Frees a unit. -/
def State.freeOf (s : State) (u : Nat) : State := s.modUnit u (fun x => { x with busy := none, idleSince := s.po.tm })

/-- Returns a link's chain-buffer reservation (R95). -/
def State.releaseOut (s : State) (t : Nat) : State :=
  match s.tag? t with
  | none => s
  | some e =>
    let s := { s with sq := { s.sq with chUsed := s.sq.chUsed - e.blocks } }
    s.setTag t { e with chainOut := [], blocks := 0, spillUnits := [] }

/-- Releases a tag: its reservation, its unit and its entry. -/
def State.releaseTag (s : State) (t : Nat) : State :=
  match s.tag? t with
  | none => s
  | some e =>
    let s := s.releaseOut t
    let s := match e.phase.unit? with
      | some u => s.freeOf u
      | none => s
    let s := s.dropDctx t
    { s with
      sq := { s.sq with tags := s.sq.tags.erase t },
      pk := { s.pk with imps := s.pk.imps.filter (· != t), rng := { s.pk.rng with waiting := s.pk.rng.waiting.filter (· != t) } },
      vt := { s.vt with waiters := s.vt.waiters.filter (fun w => w.1 != t) } }

/-- A running link ends: its unit is free and the queues are served (R98). -/
def State.finish (s : State) (t : Nat) (st : Status) (out : Nat) (result : DWord) : State :=
  match s.tag? t with
  | none => s
  | some e =>
    let s := s.endLink t st out result
    let s := match e.phase.unit? with
      | some u => s.freeOf u
      | none => s
    s.schedule

/-- Puts a running link back into its queue: at its suspension point, or for a replay after a repair (R100, R164). -/
def State.requeue (s : State) (t : Nat) (replay : Bool) : State :=
  match s.tag? t with
  | none => s
  | some e =>
    match e.phase.unit? with
    | none => s
    | some u =>
      (s.setTag t { e with phase := .suspended, replayed := e.replayed || replay, since := s.po.tm }).freeOf u

/-- Puts a link whose predecessor has ended, or link 0, into its queue (R98). -/
def State.enqueue (s : State) (t : Nat) : State :=
  match s.tag? t with
  | none => s
  | some e =>
    s.setTag t { e with phase := .queued, since := s.po.tm }

/-- Tags held by a function. -/
def State.tagsOf (s : State) (f : Nat) : List Nat :=
  (s.sq.tags.filter (fun p => p.2.fn == f)).map (·.1)

/-- Tags held by a ring (RT_STATUS.ISSUED). -/
def State.tagsOfRing (s : State) (r : Nat) : List Nat :=
  (s.sq.tags.filter (fun p => p.2.ring == r)).map (·.1)

/-- Abandons the packets that `p` picks: no record, tags and reservations released (R42, R95). -/
def State.abandon (s : State) (p : TagEnt → Bool) : State :=
  let ts := (s.sq.tags.filter (fun x => p x.2)).map (fun x => x.1)
  let fls := ((s.sq.tags.filter (fun x => p x.2)).map (fun x => x.2.pkt)).eraseDups
  let s := ts.foldl (fun s t => s.releaseTag t) s
  { s with sq := { s.sq with flights := fls.foldl (fun l n => l.erase n) s.sq.flights } }

end Sys2Proof.Machine
end

