-- ==== Sys2Proof/Machine/Ecc.lean ====
section
/-! DEFINITION. Elliptic curves: ECDSA, EdDSA, X25519 and X448 (08_public_key.md R195–R213; FIPS 186-5, RFC 5639, RFC
7748, RFC 8032). The algorithms are those of the standards the manual names (PRESUMED, log 24). -/

namespace Sys2Proof.Machine

/-! Short Weierstrass curves -/

/-- A curve y² = x³ + ax + b over p with base point (gx, gy) of prime order n; `len` bytes of a coordinate and of a
scalar. -/
structure Curve where
  p : Nat
  a : Nat
  b : Nat
  gx : Nat
  gy : Nat
  n : Nat
  len : Nat

/-- P-256. -/
def curveP256 : Curve := {
  p := 2 ^ 256 - 2 ^ 224 + 2 ^ 192 + 2 ^ 96 - 1, a := 2 ^ 256 - 2 ^ 224 + 2 ^ 192 + 2 ^ 96 - 4,
  b := 0x5ac635d8aa3a93e7b3ebbd55769886bc651d06b0cc53b0f63bce3c3e27d2604b,
  gx := 0x6b17d1f2e12c4247f8bce6e563a440f277037d812deb33a0f4a13945d898c296,
  gy := 0x4fe342e2fe1a7f9b8ee7eb4a7c0f9e162bce33576b315ececbb6406837bf51f5,
  n := 0xffffffff00000000ffffffffffffffffbce6faada7179e84f3b9cac2fc632551, len := 32 }

/-- P-384. -/
def curveP384 : Curve := {
  p := 2 ^ 384 - 2 ^ 128 - 2 ^ 96 + 2 ^ 32 - 1, a := 2 ^ 384 - 2 ^ 128 - 2 ^ 96 + 2 ^ 32 - 4,
  b := 0xb3312fa7e23ee7e4988e056be3f82d19181d9c6efe8141120314088f5013875ac656398d8a2ed19d2a85c8edd3ec2aef,
  gx := 0xaa87ca22be8b05378eb1c71ef320ad746e1d3b628ba79b9859f741e082542a385502f25dbf55296c3a545e3872760ab7,
  gy := 0x3617de4a96262c6f5d9e98bf9292dc29f8f41dbd289a147ce9da3113b5f0b8c00a60b1ce1d7e819d7a431d7c90ea0e5f,
  n := 0xffffffffffffffffffffffffffffffffffffffffffffffffc7634d81f4372ddf581a0db248b0a77aecec196accc52973,
  len := 48 }

/-- P-521. -/
def curveP521 : Curve := {
  p := 2 ^ 521 - 1, a := 2 ^ 521 - 4,
  b := 0x0051953eb9618e1c9a1f929a21a0b68540eea2da725b99b315f3b8b489918ef109e156193951ec7e937b1652c0bd3bb1bf073573df883d2c34f1ef451fd46b503f00,
  gx := 0x00c6858e06b70404e9cd9e3ecb662395b4429c648139053fb521f828af606b4d3dbaa14b5e77efe75928fe1dc127a2ffa8de3348b3c1856a429bf97e7e31c2e5bd66,
  gy := 0x011839296a789a3bc0045c8a5fb42c7d1bd998f54449579b446817afbd17273e662c97ee72995ef42640c550b9013fad0761353c7086a272c24088be94769fd16650,
  n := 0x01fffffffffffffffffffffffffffffffffffffffffffffffffffffffffffffffffa51868783bf2f966b7fcc0148f709a5d03bb5c9b8899c47aebb6fb71e91386409,
  len := 66 }

/-- brainpoolP256r1. -/
def curveB256 : Curve := {
  p := 0xA9FB57DBA1EEA9BC3E660A909D838D726E3BF623D52620282013481D1F6E5377,
  a := 0x7D5A0975FC2C3057EEF67530417AFFE7FB8055C126DC5C6CE94A4B44F330B5D9,
  b := 0x26DC5C6CE94A4B44F330B5D9BBD77CBF958416295CF7E1CE6BCCDC18FF8C07B6,
  gx := 0x8BD2AEB9CB7E57CB2C4B482FFC81B7AFB9DE27E1E3BD23C23A4453BD9ACE3262,
  gy := 0x547EF835C3DAC4FD97F8461A14611DC9C27745132DED8E545C1D54C72F046997,
  n := 0xA9FB57DBA1EEA9BC3E660A909D838D718C397AA3B561A6F7901E0E82974856A7, len := 32 }

/-- brainpoolP384r1. -/
def curveB384 : Curve := {
  p := 0x8CB91E82A3386D280F5D6F7E50E641DF152F7109ED5456B412B1DA197FB71123ACD3A729901D1A71874700133107EC53,
  a := 0x7BC382C63D8C150C3C72080ACE05AFA0C2BEA28E4FB22787139165EFBA91F90F8AA5814A503AD4EB04A8C7DD22CE2826,
  b := 0x04A8C7DD22CE28268B39B55416F0447C2FB77DE107DCD2A62E880EA53EEB62D57CB4390295DBC9943AB78696FA504C11,
  gx := 0x1D1C64F068CF45FFA2A63A81B7C13F6B8847A3E77EF14FE3DB7FCAFE0CBD10E8E826E03436D646AAEF87B2E247D4AF1E,
  gy := 0x8ABE1D7520F9C2A45CB1EB8E95CFD55262B70B29FEEC5864E19C054FF99129280E4646217791811142820341263C5315,
  n := 0x8CB91E82A3386D280F5D6F7E50E641DF152F7109ED5456B31F166E6CAC0425A7CF3AB6AF6B7FC3103B883202E9046565,
  len := 48 }

/-- brainpoolP512r1. -/
def curveB512 : Curve := {
  p := 0xAADD9DB8DBE9C48B3FD4E6AE33C9FC07CB308DB3B3C9D20ED6639CCA703308717D4D9B009BC66842AECDA12AE6A380E62881FF2F2D82C68528AA6056583A48F3,
  a := 0x7830A3318B603B89E2327145AC234CC594CBDD8D3DF91610A83441CAEA9863BC2DED5D5AA8253AA10A2EF1C98B9AC8B57F1117A72BF2C7B9E7C1AC4D77FC94CA,
  b := 0x3DF91610A83441CAEA9863BC2DED5D5AA8253AA10A2EF1C98B9AC8B57F1117A72BF2C7B9E7C1AC4D77FC94CADC083E67984050B75EBAE5DD2809BD638016F723,
  gx := 0x81AEE4BDD82ED9645A21322E9C4C6A9385ED9F70B5D916C1B43B62EEF4D0098EFF3B1F78E2D0D48D50D1687B93B97D5F7C6D5047406A5E688B352209BCB9F822,
  gy := 0x7DDE385D566332ECC0EABFA9CF7822FDF209F70024A57B1AA000C55B881F8111B2DCDE494A5F485E5BCA4BD88A2763AED1CA2B2FA8F0540678CD1E0F3AD80892,
  n := 0xAADD9DB8DBE9C48B3FD4E6AE33C9FC07CB308DB3B3C9D20ED6639CCA70330870553E5C414CA92619418661197FAC10471DB1D381085DDADDB58796829CA90069,
  len := 64 }

/-- The curve of an ALG code (Table 8.2). -/
def curveOf (alg : Nat) : Curve :=
  match alg with
  | 0x01 => curveP256
  | 0x02 => curveP384
  | 0x03 => curveP521
  | 0x04 => curveB256
  | 0x05 => curveB384
  | _ => curveB512

/-- An affine point; `none` is the point at infinity. -/
abbrev Point := Option (Nat × Nat)

/-- The sum of two points. -/
def Curve.add (c : Curve) (u v : Point) : Point :=
  match u, v with
  | none, w => w
  | w, none => w
  | some (x1, y1), some (x2, y2) =>
    if x1 = x2 ∧ (y1 + y2) % c.p = 0 then none
    else
      let l := if x1 = x2 then (3 * x1 * x1 + c.a) * invMod (2 * y1) c.p % c.p
               else (y2 + c.p - y1) * invMod (x2 + c.p - x1) c.p % c.p
      let x3 := (l * l + 2 * c.p - x1 - x2) % c.p
      some (x3, (l * (x1 + c.p - x3) + c.p - y1) % c.p)

/-- `k` times a point, by the `n` low bits of `k`. -/
def Curve.mulBits (c : Curve) (k : Nat) (g : Point) (n : Nat) (acc : Point) : Point :=
  match n with
  | 0 => acc
  | m + 1 =>
    let d := c.add acc acc
    c.mulBits k g m (if k / 2 ^ m % 2 = 1 then c.add d g else d)

/-- `k` times a point. -/
def Curve.mul (c : Curve) (k : Nat) (g : Point) : Point := c.mulBits k g (bitLen k) none

/-- The base point. -/
def Curve.base (c : Curve) : Point := some (c.gx, c.gy)

/-- A point on the curve. -/
def Curve.onCurve (c : Curve) (x y : Nat) : Bool :=
  decide (x < c.p ∧ y < c.p ∧ y * y % c.p = (x * x * x + c.a * x + c.b) % c.p)

/-- The uncompressed encoding (R195). -/
def Curve.encode (c : Curve) (u : Point) : List Byte :=
  match u with
  | some (x, y) => [0x04] ++ beBytes c.len x ++ beBytes c.len y
  | none => []

/-- Decodes and validates an uncompressed public key (R199). -/
def Curve.decode (c : Curve) (l : List Byte) : Option (Nat × Nat) :=
  let x := beNat ((l.drop 1).take c.len)
  let y := beNat ((l.drop (1 + c.len)).take c.len)
  if l.headD 0 = 0x04 ∧ l.length = 2 * c.len + 1 ∧ c.onCurve x y then some (x, y) else none

/-- The compressed encoding of Table 10.5. -/
def Curve.compress (c : Curve) (u : Point) : List Byte :=
  match u with
  | some (x, y) => [BitVec.ofNat 8 (2 + y % 2)] ++ beBytes c.len x
  | none => []

/-- The hash as an integer, cut to the order's bits (R198). -/
def Curve.hashInt (c : Curve) (h : List Byte) : Nat :=
  let z := beNat h
  let n := bitLen c.n
  if n < 8 * h.length then z / 2 ^ (8 * h.length - n) else z

/-- ECDSA with the per-message secret `k`. -/
def Curve.sign (c : Curve) (d k : Nat) (h : List Byte) : Option (List Byte) :=
  match c.mul k c.base with
  | none => none
  | some (x, _) =>
    let r := x % c.n
    let s := invMod k c.n * (c.hashInt h + r * d) % c.n
    if r = 0 ∨ s = 0 then none else some (beBytes c.len r ++ beBytes c.len s)

/-- ECDSA verification. -/
def Curve.verify (c : Curve) (q : Nat × Nat) (h sig : List Byte) : Bool :=
  let r := beNat (sig.take c.len)
  let s := beNat (sig.drop c.len)
  if r = 0 ∨ c.n ≤ r ∨ s = 0 ∨ c.n ≤ s then false
  else
    let w := invMod s c.n
    match c.add (c.mul (c.hashInt h * w % c.n) c.base) (c.mul (r * w % c.n) (some q)) with
    | none => false
    | some (x, _) => decide (x % c.n = r)

/-! Edwards curves -/

/-- An Edwards curve ax² + y² = 1 + dx²y², in projective coordinates. -/
structure Edwards where
  p : Nat
  a : Nat
  d : Nat
  gx : Nat
  gy : Nat
  l : Nat
  len : Nat
  cof : Nat
  is448 : Bool

/-- Ed25519. -/
def ed25519 : Edwards := {
  p := 2 ^ 255 - 19, a := 2 ^ 255 - 20,
  d := 37095705934669439343138083508754565189542113879843219016388785533085940283555,
  gx := 15112221349535400772501151409588531511454012693041857206046113283949847762202,
  gy := 46316835694926478169428394003475163141307993866256225615783033603165251855960,
  l := 2 ^ 252 + 27742317777372353535851937790883648493, len := 32, cof := 8, is448 := false }

/-- Ed448. -/
def ed448 : Edwards := {
  p := 2 ^ 448 - 2 ^ 224 - 1, a := 1, d := 2 ^ 448 - 2 ^ 224 - 1 - 39081,
  gx := 224580040295924300187604334099896036246789641632564134246125461686950415467406032909029192869357953282578032075146446173674602635247710,
  gy := 298819210078481492676017930443930673437544040154080242095928241372331506189835876003536878655418784733982303233503462500531545062832660,
  l := 2 ^ 446 - 13818066809895115352007386748515426880336692474882178609894547503885, len := 57, cof := 4, is448 := true }

/-- The Edwards curve of an ALG code. -/
def edwardsOf (alg : Nat) : Edwards := if alg = 0x11 then ed448 else ed25519

/-- A projective point. -/
abbrev EPoint := Nat × Nat × Nat

/-- The sum of two points. -/
def Edwards.add (c : Edwards) (u v : EPoint) : EPoint :=
  let (x1, y1, z1) := u
  let (x2, y2, z2) := v
  let p := c.p
  let a := z1 * z2 % p
  let b := a * a % p
  let cc := x1 * x2 % p
  let dd := y1 * y2 % p
  let e := c.d * cc % p * dd % p
  let f := (b + p - e) % p
  let g := (b + e) % p
  (a * f % p * ((x1 + y1) * (x2 + y2) % p + 2 * p - cc - dd) % p,
   a * g % p * (dd + p - c.a * cc % p) % p, f * g % p)

/-- `k` times a point, by the low bits of `k`. -/
def Edwards.mulBits (c : Edwards) (k : Nat) (g : EPoint) (n : Nat) (acc : EPoint) : EPoint :=
  match n with
  | 0 => acc
  | m + 1 =>
    let d := c.add acc acc
    c.mulBits k g m (if k / 2 ^ m % 2 = 1 then c.add d g else d)

/-- `k` times a point. -/
def Edwards.mul (c : Edwards) (k : Nat) (g : EPoint) : EPoint := c.mulBits k g (bitLen k) (0, 1, 1)

/-- The base point. -/
def Edwards.base (c : Edwards) : EPoint := (c.gx, c.gy, 1)

/-- Two projective points are equal. -/
def Edwards.same (c : Edwards) (u v : EPoint) : Bool :=
  decide (u.1 * v.2.2 % c.p = v.1 * u.2.2 % c.p ∧ u.2.1 * v.2.2 % c.p = v.2.1 * u.2.2 % c.p)

/-- The encoding of a point: y with the parity of x in the top bit. -/
def Edwards.encode (c : Edwards) (u : EPoint) : List Byte :=
  let i := invMod u.2.2 c.p
  leBytes c.len (u.2.1 * i % c.p + u.1 * i % c.p % 2 * 2 ^ (8 * c.len - 1))

/-- A square root of u / v modulo p, if there is one. -/
def Edwards.root (c : Edwards) (u v : Nat) : Option Nat :=
  let p := c.p
  let q := u * invMod v p % p
  let x := if c.is448 then powMod q ((p + 1) / 4) p
           else
             let y := powMod q ((p + 3) / 8) p
             if y * y % p = q then y else y * powMod 2 ((p - 1) / 4) p % p
  if x * x % p = q then some x else none

/-- Decodes a canonical encoding (R199). -/
def Edwards.decode (c : Edwards) (l : List Byte) : Option EPoint :=
  let n := leNat l
  let sign := n / 2 ^ (8 * c.len - 1)
  let y := n % 2 ^ (8 * c.len - 1)
  if c.p ≤ y then none
  else
    match c.root ((y * y + c.p - 1) % c.p) ((c.d * (y * y) + c.p - c.a) % c.p) with
    | none => none
    | some x =>
      if x = 0 ∧ sign = 1 then none
      else some (if x % 2 = sign then x else c.p - x, y, 1)

/-- The hash of EdDSA: SHA-512, or SHAKE256 with the domain prefix and context. -/
def Edwards.h (c : Edwards) (ctx m : List Byte) : List Byte :=
  if c.is448 then
    shake256 (("SigEd448".toList.map (fun ch => BitVec.ofNat 8 ch.toNat)) ++ [0, BitVec.ofNat 8 ctx.length] ++ ctx ++ m) 114
  else sha512 m

/-- The secret scalar and the prefix of a seed. -/
def Edwards.expand (c : Edwards) (seed : List Byte) : Nat × List Byte :=
  let hh := if c.is448 then shake256 seed 114 else sha512 seed
  let s := leNat (hh.take c.len)
  let s := if c.is448 then s % 2 ^ 447 / 4 * 4 + 2 ^ 447
           else s % 2 ^ 254 / 8 * 8 + 2 ^ 254
  (s, hh.drop c.len)

/-- The public key of a seed. -/
def Edwards.publicKey (c : Edwards) (seed : List Byte) : List Byte := c.encode (c.mul (c.expand seed).1 c.base)

/-- EdDSA signature. -/
def Edwards.sign (c : Edwards) (seed ctx m : List Byte) : List Byte :=
  let (s, prefx) := c.expand seed
  let a := c.encode (c.mul s c.base)
  let r := leNat (c.h ctx (prefx ++ m)) % c.l
  let rr := c.encode (c.mul r c.base)
  let k := leNat (c.h ctx (rr ++ a ++ m)) % c.l
  rr ++ leBytes c.len ((r + k * s) % c.l)

/-- A decoded item: R, S, A and k; `none` where R199 rejects an encoding. -/
def Edwards.item (c : Edwards) (pub ctx m sig : List Byte) : Option (EPoint × Nat × EPoint × Nat) :=
  let s := leNat (sig.drop c.len)
  match c.decode (sig.take c.len), c.decode pub with
  | some r, some a =>
    if c.l ≤ s then none else some (r, s, a, leNat (c.h ctx (sig.take c.len ++ pub ++ m)) % c.l)
  | _, _ => none

/-- The cofactored equation (R199). -/
def Edwards.verify (c : Edwards) (pub ctx m sig : List Byte) : Bool :=
  match c.item pub ctx m sig with
  | none => false
  | some (r, s, a, k) => c.same (c.mul (8 * s) c.base) (c.mul 8 (c.add r (c.mul k a)))

/-- The randomised check of a set with its scalars (R211). -/
def Edwards.batchCheck (c : Edwards) (l : List ((EPoint × Nat × EPoint × Nat) × Nat)) : Bool :=
  let s := (l.map (fun x => x.2 * x.1.2.1)).sum % c.l
  let rhs := l.foldl (fun acc x =>
    c.add acc (c.add (c.mul x.2 x.1.1) (c.mul (x.2 * x.1.2.2.2) x.1.2.2.1))) (0, 1, 1)
  c.same (c.mul (8 * s) c.base) (c.mul 8 rhs)

/-! X25519 and X448 -/

/-- The Montgomery ladder over the bits of `k`. -/
def ladder (p a24 k x1 : Nat) (n : Nat) (st : Nat × Nat × Nat × Nat) : Nat × Nat × Nat × Nat :=
  match n with
  | 0 => st
  | m + 1 =>
    let sw := k / 2 ^ m % 2 = 1
    let (x2, z2, x3, z3) := if sw then (st.2.2.1, st.2.2.2, st.1, st.2.1) else st
    let a := x2 + z2
    let b := x2 + p - z2
    let aa := a * a % p
    let bb := b * b % p
    let e := aa + p - bb
    let da := (x3 + p - z3) * a % p
    let cb := (x3 + z3) * b % p
    let y2 := aa * bb % p
    let w2 := e * (aa + a24 * e) % p
    let y3 := (da + cb) * (da + cb) % p
    let w3 := x1 * ((da + p - cb) * (da + p - cb) % p) % p
    ladder p a24 k x1 m (if sw then (y3, w3, y2, w2) else (y2, w2, y3, w3))

/-- X25519 or X448 of a scalar and a u coordinate. -/
def xdh (is448 : Bool) (scalar u : List Byte) : List Byte :=
  let k := leNat scalar
  if is448 then
    let p := 2 ^ 448 - 2 ^ 224 - 1
    let k := k % 2 ^ 447 / 4 * 4 + 2 ^ 447
    let x := leNat u % p
    let (x2, z2, _, _) := ladder p 39081 k x 448 (1, 0, x, 1)
    leBytes 56 (x2 * invMod z2 p % p)
  else
    let p := 2 ^ 255 - 19
    let k := k % 2 ^ 254 / 8 * 8 + 2 ^ 254
    let x := leNat u % 2 ^ 255 % p
    let (x2, z2, _, _) := ladder p 121665 k x 255 (1, 0, x, 1)
    leBytes 32 (x2 * invMod z2 p % p)

/-- The public key of a scalar. -/
def xdhPublic (is448 : Bool) (scalar : List Byte) : List Byte :=
  xdh is448 scalar (if is448 then leBytes 56 5 else leBytes 32 9)

end Sys2Proof.Machine
end

