-- ==== Sys2Proof/Machine/Lattice.lean ====
section
/-! DEFINITION. ML-KEM (FIPS 203) and ML-DSA (FIPS 204) (08_public_key.md R195–R212). The algorithms are those of the
standards the manual names (PRESUMED, log 24). -/

namespace Sys2Proof.Machine

/-- A polynomial of 256 coefficients, lowest first. -/
abbrev Poly := List Nat

/-- The `n` low bits of `k`, reversed. -/
def bitRev (n k : Nat) : Nat := (List.range n).foldl (fun a i => a * 2 + k / 2 ^ i % 2) 0

/-- The transform below node `k`, `depth` levels deep; `zeta k` is the factor of a node. -/
def nttRec (q : Nat) (zeta : Nat → Nat) (depth k : Nat) (f : Poly) : Poly :=
  match depth with
  | 0 => f
  | d + 1 =>
    let h := f.length / 2
    let lo := f.take h
    let t := (f.drop h).map (fun x => x * zeta k % q)
    nttRec q zeta d (2 * k) (List.zipWith (fun a b => (a + b) % q) lo t) ++
    nttRec q zeta d (2 * k + 1) (List.zipWith (fun a b => (a + q - b) % q) lo t)

/-- The inverse transform; `zinv k` is the inverse factor. -/
def inttRec (q : Nat) (zinv : Nat → Nat) (depth k : Nat) (f : Poly) : Poly :=
  match depth with
  | 0 => f
  | d + 1 =>
    let h := f.length / 2
    let a := inttRec q zinv d (2 * k) (f.take h)
    let b := inttRec q zinv d (2 * k + 1) (f.drop h)
    let half := (q + 1) / 2
    List.zipWith (fun x y => (x + y) * half % q) a b ++
    List.zipWith (fun x y => (x + q - y) % q * half % q * zinv k % q) a b

/-- Sum of polynomials. -/
def polyAdd (q : Nat) (a b : Poly) : Poly := List.zipWith (fun x y => (x + y) % q) a b

/-- Difference of polynomials. -/
def polySub (q : Nat) (a b : Poly) : Poly := List.zipWith (fun x y => (x + q - y) % q) a b

/-- The zero polynomial. -/
def poly0 : Poly := List.replicate 256 0

/-- Packs values of `bits` bits, lowest bit first. -/
def packBits (bits : Nat) (l : List Nat) : List Byte :=
  (chunks 8 l).foldr (fun g acc =>
    leBytes bits (g.foldr (fun x a => a * 2 ^ bits + x) 0) ++ acc) []

/-- Unpacks values of `bits` bits from groups of `bits` bytes. -/
def unpackBits (bits : Nat) (l : List Byte) : List Nat :=
  ((chunks bits l).map (fun g => let n := leNat g; (List.range 8).map (fun i => n / 2 ^ (bits * i) % 2 ^ bits))).flatten

/-- A product of a matrix, given by rows, and a vector. -/
def matVec (q : Nat) (mul : Poly → Poly → Poly) (m : List (List Poly)) (v : List Poly) : List Poly :=
  m.map (fun row => (List.zipWith mul row v).foldl (polyAdd q) poly0)

/-! ML-KEM -/

/-- The modulus of ML-KEM. -/
def kemQ : Nat := 3329

/-- A parameter set of ML-KEM. -/
structure KemP where
  k : Nat
  eta1 : Nat
  du : Nat
  dv : Nat

/-- The parameter set of an ALG code (Table 8.2). -/
def kemOf (alg : Nat) : KemP :=
  match alg with
  | 0x30 => { k := 2, eta1 := 3, du := 10, dv := 4 }
  | 0x31 => { k := 3, eta1 := 2, du := 10, dv := 4 }
  | _ => { k := 4, eta1 := 2, du := 11, dv := 5 }

/-- The powers of 17 of the nodes. -/
def kemZetas : Array Nat := ((List.range 128).map (fun k => powMod 17 (bitRev 7 k) kemQ)).toArray

/-- Their inverses. -/
def kemZinvs : Array Nat := (kemZetas.toList.map (fun z => invMod z kemQ)).toArray

/-- NTT of ML-KEM. -/
def kemNtt (f : Poly) : Poly := nttRec kemQ (fun k => kemZetas.getD k 0) 7 1 f

/-- Its inverse. -/
def kemIntt (f : Poly) : Poly := inttRec kemQ (fun k => kemZinvs.getD k 0) 7 1 f

/-- The product of two transforms, pair by pair; `i` numbers the pair. -/
def kemMulPairs (i : Nat) (a b : Poly) : Poly :=
  match a, b with
  | a0 :: a1 :: ar, b0 :: b1 :: br =>
    let g := powMod 17 (2 * bitRev 7 i + 1) kemQ
    (a0 * b0 + a1 * b1 % kemQ * g) % kemQ :: (a0 * b1 + a1 * b0) % kemQ :: kemMulPairs (i + 1) ar br
  | _, _ => []

/-- The product of two transforms. -/
def kemMul (a b : Poly) : Poly := kemMulPairs 0 a b

/-- Rejection sampling of 12-bit values. -/
def kemReject (l : List Byte) : List Nat :=
  ((chunks 3 l).map (fun g => let n := leNat g; [n % 4096, n / 4096])).flatten.filter (fun x => decide (x < kemQ))

/-- SampleNTT. -/
def kemSampleNtt (seed : List Byte) : Poly := (kemReject (shake128 seed 1344)).take 256

/-- SamplePolyCBD of `64 eta` bytes. -/
def kemCbd (eta : Nat) (b : List Byte) : Poly :=
  let n := leNat b
  (List.range 256).map (fun i =>
    let w := n / 2 ^ (2 * eta * i)
    let ones (o : Nat) : Nat := ((List.range eta).map (fun j => w / 2 ^ (o + j) % 2)).sum
    (ones 0 + kemQ - ones eta) % kemQ)

/-- Compression to `d` bits. -/
def kemCompress (d : Nat) (x : Nat) : Nat := (x * 2 ^ d * 2 + kemQ) / (2 * kemQ) % 2 ^ d

/-- Decompression from `d` bits. -/
def kemDecompress (d : Nat) (y : Nat) : Nat := (y * kemQ * 2 + 2 ^ d) / 2 ^ (d + 1)

/-- The matrix; `tr` transposes it. -/
def kemMatrix (p : KemP) (rho : List Byte) (tr : Bool) : List (List Poly) :=
  (List.range p.k).map (fun i => (List.range p.k).map (fun j =>
    kemSampleNtt (rho ++ (if tr then [BitVec.ofNat 8 i, BitVec.ofNat 8 j] else [BitVec.ofNat 8 j, BitVec.ofNat 8 i]))))

/-- `n` noise polynomials from number `o` on. -/
def kemNoise (eta : Nat) (seed : List Byte) (o n : Nat) : List Poly :=
  (List.range n).map (fun i => kemCbd eta (shake256 (seed ++ [BitVec.ofNat 8 (o + i)]) (64 * eta)))

/-- K-PKE.KeyGen: encryption and decryption key. -/
def kemPkeKeygen (p : KemP) (d : List Byte) : List Byte × List Byte :=
  let g := hash 0x0B (d ++ [BitVec.ofNat 8 p.k])
  let rho := g.take 32
  let s := (kemNoise p.eta1 (g.drop 32) 0 p.k).map kemNtt
  let e := (kemNoise p.eta1 (g.drop 32) p.k p.k).map kemNtt
  let t := List.zipWith (polyAdd kemQ) (matVec kemQ kemMul (kemMatrix p rho false) s) e
  ((t.map (packBits 12)).flatten ++ rho, (s.map (packBits 12)).flatten)

/-- K-PKE.Encrypt. -/
def kemPkeEncrypt (p : KemP) (ek m r : List Byte) : List Byte :=
  let t := (chunks 384 (ek.take (384 * p.k))).map (unpackBits 12)
  let rho := ek.drop (384 * p.k)
  let y := (kemNoise p.eta1 r 0 p.k).map kemNtt
  let e1 := kemNoise 2 r p.k p.k
  let e2 := (kemNoise 2 r (2 * p.k) 1).headD []
  let u := List.zipWith (polyAdd kemQ) ((matVec kemQ kemMul (kemMatrix p rho true) y).map kemIntt) e1
  let mu := (unpackBits 1 m).map (kemDecompress 1)
  let v := polyAdd kemQ (polyAdd kemQ (kemIntt ((List.zipWith kemMul t y).foldl (polyAdd kemQ) poly0)) e2) mu
  (u.map (fun f => packBits p.du (f.map (kemCompress p.du)))).flatten ++ packBits p.dv (v.map (kemCompress p.dv))

/-- K-PKE.Decrypt. -/
def kemPkeDecrypt (p : KemP) (dk c : List Byte) : List Byte :=
  let u := (chunks (32 * p.du) (c.take (32 * p.du * p.k))).map (fun b => (unpackBits p.du b).map (kemDecompress p.du))
  let v := (unpackBits p.dv (c.drop (32 * p.du * p.k))).map (kemDecompress p.dv)
  let s := (chunks 384 dk).map (unpackBits 12)
  let w := polySub kemQ v (kemIntt ((List.zipWith kemMul s (u.map kemNtt)).foldl (polyAdd kemQ) poly0))
  packBits 1 (w.map (kemCompress 1))

/-- The encapsulation key of a seed d ∥ z. -/
def kemPublic (alg : Nat) (seed : List Byte) : List Byte := (kemPkeKeygen (kemOf alg) (seed.take 32)).1

/-- An encapsulation key whose coefficients are below q. -/
def kemPublicOk (alg : Nat) (ek : List Byte) : Bool :=
  let p := kemOf alg
  decide (ek.length = 384 * p.k + 32) && (unpackBits 12 (ek.take (384 * p.k))).all (fun x => decide (x < kemQ))

/-- ML-KEM.Encaps with the message: shared secret and ciphertext. -/
def kemEncaps (alg : Nat) (ek m : List Byte) : List Byte × List Byte :=
  let g := hash 0x0B (m ++ hash 0x09 ek)
  (g.take 32, kemPkeEncrypt (kemOf alg) ek m (g.drop 32))

/-- ML-KEM.Decaps of a seed d ∥ z: the shared secret, or the implicit-rejection key (R201). -/
def kemDecaps (alg : Nat) (seed c : List Byte) : List Byte :=
  let p := kemOf alg
  let (ek, dk) := kemPkeKeygen p (seed.take 32)
  let m := kemPkeDecrypt p dk c
  let g := hash 0x0B (m ++ hash 0x09 ek)
  if kemPkeEncrypt p ek m (g.drop 32) = c then g.take 32 else shake256 (seed.drop 32 ++ c) 32

/-! ML-DSA -/

/-- The modulus of ML-DSA. -/
def dsaQ : Nat := 8380417

/-- A parameter set of ML-DSA. -/
structure DsaP where
  k : Nat
  l : Nat
  eta : Nat
  tau : Nat
  cLen : Nat
  g1Bits : Nat
  gamma2 : Nat
  omega : Nat

/-- The parameter set of an ALG code (Table 8.2). -/
def dsaOf (alg : Nat) : DsaP :=
  match alg with
  | 0x38 => { k := 4, l := 4, eta := 2, tau := 39, cLen := 32, g1Bits := 17, gamma2 := 95232, omega := 80 }
  | 0x39 => { k := 6, l := 5, eta := 4, tau := 49, cLen := 48, g1Bits := 19, gamma2 := 261888, omega := 55 }
  | _ => { k := 8, l := 7, eta := 2, tau := 60, cLen := 64, g1Bits := 19, gamma2 := 261888, omega := 75 }

/-- γ1. -/
def DsaP.gamma1 (p : DsaP) : Nat := 2 ^ p.g1Bits

/-- β. -/
def DsaP.beta (p : DsaP) : Nat := p.tau * p.eta

/-- The powers of 1753 of the nodes. -/
def dsaZetas : Array Nat := ((List.range 256).map (fun k => powMod 1753 (bitRev 8 k) dsaQ)).toArray

/-- Their inverses. -/
def dsaZinvs : Array Nat := (dsaZetas.toList.map (fun z => invMod z dsaQ)).toArray

/-- NTT of ML-DSA. -/
def dsaNtt (f : Poly) : Poly := nttRec dsaQ (fun k => dsaZetas.getD k 0) 8 1 f

/-- Its inverse. -/
def dsaIntt (f : Poly) : Poly := inttRec dsaQ (fun k => dsaZinvs.getD k 0) 8 1 f

/-- The product of two transforms. -/
def dsaMul (a b : Poly) : Poly := List.zipWith (fun x y => x * y % dsaQ) a b

/-- RejNTTPoly. -/
def dsaRejNtt (seed : List Byte) : Poly :=
  (((chunks 3 (shake128 seed 1344)).map (fun g => leNat g % 2 ^ 23)).filter (fun x => decide (x < dsaQ))).take 256

/-- RejBoundedPoly. -/
def dsaRejBounded (eta : Nat) (seed : List Byte) : Poly :=
  let nibs := ((shake256 seed 816).map (fun b => [b.toNat % 16, b.toNat / 16])).flatten
  ((nibs.filter (fun z => decide (if eta = 2 then z < 15 else z < 9))).take 256).map (fun z =>
    if eta = 2 then (2 + dsaQ - z % 5) % dsaQ else (4 + dsaQ - z) % dsaQ)

/-- ExpandA. -/
def dsaMatrix (p : DsaP) (rho : List Byte) : List (List Poly) :=
  (List.range p.k).map (fun r => (List.range p.l).map (fun s =>
    dsaRejNtt (rho ++ [BitVec.ofNat 8 s, BitVec.ofNat 8 r])))

/-- The parts of a key from its seed: ρ, K, s1, s2, t1, t0. -/
structure DsaKey where
  rho : List Byte
  kk : List Byte
  s1 : List Poly
  s2 : List Poly
  t1 : List Poly
  t0 : List Poly

/-- KeyGen from the seed ξ. -/
def dsaExpand (p : DsaP) (xi : List Byte) : DsaKey :=
  let h := shake256 (xi ++ [BitVec.ofNat 8 p.k, BitVec.ofNat 8 p.l]) 128
  let rho := h.take 32
  let rho' := (h.drop 32).take 64
  let s1 := (List.range p.l).map (fun r => dsaRejBounded p.eta (rho' ++ leBytes 2 r))
  let s2 := (List.range p.k).map (fun r => dsaRejBounded p.eta (rho' ++ leBytes 2 (r + p.l)))
  let t := List.zipWith (polyAdd dsaQ) ((matVec dsaQ dsaMul (dsaMatrix p rho) (s1.map dsaNtt)).map dsaIntt) s2
  let hi (x : Nat) : Nat := (x + 2 ^ 12 - 1) / 2 ^ 13
  { rho := rho, kk := h.drop 96, s1 := s1, s2 := s2, t1 := t.map (fun f => f.map hi),
    t0 := t.map (fun f => f.map (fun x => (x + dsaQ - hi x * 2 ^ 13) % dsaQ)) }

/-- The public key of a key. -/
def DsaKey.pub (key : DsaKey) : List Byte := key.rho ++ (key.t1.map (packBits 10)).flatten

/-- The public key of a seed. -/
def dsaPublic (alg : Nat) (xi : List Byte) : List Byte := (dsaExpand (dsaOf alg) xi).pub

/-- Absolute value of a residue. -/
def dsaAbs (x : Nat) : Nat := if x ≤ dsaQ / 2 then x else dsaQ - x

/-- Every coefficient's absolute value is below the bound. -/
def dsaBelow (b : Nat) (v : List Poly) : Bool := v.all (fun f => f.all (fun x => decide (dsaAbs x < b)))

/-- Decompose: high bits and low bits as a residue. -/
def dsaDecompose (g2 x : Nat) : Nat × Nat :=
  let r0 := x % (2 * g2)
  let neg := decide (g2 < r0)
  let r0q := if neg then (dsaQ + r0 - 2 * g2) % dsaQ else r0
  let hiPart := if neg then x - r0 + 2 * g2 else x - r0
  if hiPart = dsaQ - 1 then (0, (r0q + dsaQ - 1) % dsaQ) else (hiPart / (2 * g2), r0q)

/-- UseHint. -/
def dsaUseHint (g2 : Nat) (h x : Nat) : Nat :=
  let m := (dsaQ - 1) / (2 * g2)
  let (r1, r0) := dsaDecompose g2 x
  if h = 1 then (if 0 < r0 ∧ r0 ≤ dsaQ / 2 then (r1 + 1) % m else (r1 + m - 1) % m) else r1

/-- SampleInBall. -/
def dsaBall (p : DsaP) (seed : List Byte) : Poly :=
  let s := shake256 seed 1088
  let signs := leNat (s.take 8)
  let st := (s.drop 8).foldl (fun (st : Array Nat × Nat) b =>
    let (c, n) := st
    let i := 256 - p.tau + n
    if p.tau ≤ n ∨ i < b.toNat then st
    else
      let v := if signs / 2 ^ n % 2 = 1 then dsaQ - 1 else 1
      ((c.setIfInBounds i (c.getD b.toNat 0)).setIfInBounds b.toNat v, n + 1)) (Array.replicate 256 0, 0)
  st.1.toList

/-- w1Encode. -/
def dsaW1 (p : DsaP) (w1 : List Poly) : List Byte := (w1.map (packBits (if p.gamma2 = 95232 then 6 else 4))).flatten

/-- HintBitPack. -/
def dsaPackHint (p : DsaP) (h : List Poly) : List Byte :=
  let idx := h.map (fun f => (List.range 256).filter (fun i => decide (f.getD i 0 = 1)))
  let ends := (idx.foldl (fun (acc : List Nat × Nat) l => (acc.1 ++ [acc.2 + l.length], acc.2 + l.length)) ([], 0)).1
  fit p.omega ((idx.flatten).map (BitVec.ofNat 8)) ++ ends.map (BitVec.ofNat 8)

/-- The numbers rise strictly. -/
def rises (l : List Nat) : Bool :=
  match l with
  | a :: b :: r => decide (a < b) && rises (b :: r)
  | _ => true

/-- HintBitUnpack; `none` for a malformed hint. -/
def dsaUnpackHint (p : DsaP) (b : List Byte) : Option (List Poly) :=
  let nums := b.map (·.toNat)
  let body := nums.take p.omega
  let ends := nums.drop p.omega
  let starts := 0 :: ends
  let ok := (List.range p.k).all (fun i =>
    let a := starts.getD i 0
    let e := ends.getD i 0
    decide (a ≤ e ∧ e ≤ p.omega) && rises ((body.drop a).take (e - a)))
  if ok && (body.drop (ends.getD (p.k - 1) 0)).all (fun x => decide (x = 0)) then
    some ((List.range p.k).map (fun i =>
      let a := starts.getD i 0
      let l := (body.drop a).take (ends.getD i 0 - a)
      (List.range 256).map (fun j => b2n (l.contains j))))
  else none

/-- ExpandMask. -/
def dsaMask (p : DsaP) (seed : List Byte) (kappa : Nat) : List Poly :=
  (List.range p.l).map (fun r =>
    (unpackBits (p.g1Bits + 1) (shake256 (seed ++ leBytes 2 (kappa + r)) (32 * (p.g1Bits + 1)))).map (fun x =>
      (p.gamma1 + dsaQ - x) % dsaQ))

/-- The message representative of pure ML-DSA. -/
def dsaMu (pub ctx m : List Byte) : List Byte :=
  shake256 (shake256 pub 64 ++ [0, BitVec.ofNat 8 ctx.length] ++ ctx ++ m) 64

/-- The signing loop: the signature and the iterations made. -/
def dsaSignLoop (p : DsaP) (key : DsaKey) (a : List (List Poly)) (mu rho2 : List Byte) (fuel it : Nat) :
    Option (List Byte × Nat) :=
  match fuel with
  | 0 => none
  | n + 1 =>
    let y := dsaMask p rho2 (it * p.l)
    let w := (matVec dsaQ dsaMul a (y.map dsaNtt)).map dsaIntt
    let w1 := w.map (fun f => f.map (fun x => (dsaDecompose p.gamma2 x).1))
    let ct := shake256 (mu ++ dsaW1 p w1) p.cLen
    let c := dsaNtt (dsaBall p ct)
    let byC (v : List Poly) : List Poly := v.map (fun f => dsaIntt (dsaMul c (dsaNtt f)))
    let z := List.zipWith (polyAdd dsaQ) y (byC key.s1)
    let r := List.zipWith (polySub dsaQ) w (byC key.s2)
    let r0 := r.map (fun f => f.map (fun x => (dsaDecompose p.gamma2 x).2))
    let t0 := byC key.t0
    let h := List.zipWith (fun f g => List.zipWith (fun x t =>
      b2n (decide ((dsaDecompose p.gamma2 x).1 ≠ (dsaDecompose p.gamma2 ((x + t) % dsaQ)).1))) f g) r t0
    if dsaBelow (p.gamma1 - p.beta) z && dsaBelow (p.gamma2 - p.beta) r0 && dsaBelow p.gamma2 t0 &&
        decide ((h.map List.sum).sum ≤ p.omega) then
      some (ct ++ (z.map (fun f => packBits (p.g1Bits + 1) (f.map (fun x => (p.gamma1 + dsaQ - x) % dsaQ)))).flatten ++
        dsaPackHint p h, it + 1)
    else dsaSignLoop p key a mu rho2 n (it + 1)

/-- ML-DSA signing from the seed ξ with `rnd` (R204). -/
def dsaSign (alg : Nat) (xi rnd ctx m : List Byte) : Option (List Byte × Nat) :=
  let p := dsaOf alg
  let key := dsaExpand p xi
  let mu := dsaMu key.pub ctx m
  dsaSignLoop p key (dsaMatrix p key.rho) mu (shake256 (key.kk ++ rnd ++ mu) 64) 1000 0

/-- ML-DSA verification. -/
def dsaVerify (alg : Nat) (pub ctx m sig : List Byte) : Bool :=
  let p := dsaOf alg
  let zl := 32 * (p.g1Bits + 1)
  let ct := sig.take p.cLen
  let z := (chunks zl ((sig.drop p.cLen).take (zl * p.l))).map (fun b =>
    (unpackBits (p.g1Bits + 1) b).map (fun x => (p.gamma1 + dsaQ - x) % dsaQ))
  match dsaUnpackHint p (sig.drop (p.cLen + zl * p.l)) with
  | none => false
  | some h =>
    let t1 := (chunks 320 (pub.drop 32)).map (unpackBits 10)
    let c := dsaNtt (dsaBall p ct)
    let az := matVec dsaQ dsaMul (dsaMatrix p (pub.take 32)) (z.map dsaNtt)
    let ct1 := t1.map (fun f => dsaMul c (dsaNtt (f.map (fun x => x * 2 ^ 13 % dsaQ))))
    let w := (List.zipWith (polySub dsaQ) az ct1).map dsaIntt
    let w1 := List.zipWith (fun f g => List.zipWith (fun b x => dsaUseHint p.gamma2 b x) f g) h w
    dsaBelow (p.gamma1 - p.beta) z && decide (shake256 (dsaMu pub ctx m ++ dsaW1 p w1) p.cLen = ct)

end Sys2Proof.Machine
end

