-- ==== Sys2Proof/Machine/VaultRec.lean ====
section
/-! DEFINITION. The formats of the plate vault: attribute words, records, tree nodes, key areas and derived keys
(10_plate_vault.md R246–R261). -/

namespace Sys2Proof.Machine

/-! Attribute words (Table 10.3) -/

/-- Reads the 64 attribute bytes. -/
def Attr.parse (b : List Byte) : Attr :=
  let fl := (b.getD 7 0)
  { owner := fieldAt b 0 2 % 1024, share := b.getD 2 0, world := (b.getD 3 0).setWidth 2, lcMask := (b.getD 4 0).setWidth 5,
    binding := b.getD 5 0, alg := b.getD 6 0, hmacStates := fl.getLsbD 0, publicOnly := fl.getLsbD 1, blob := fl.getLsbD 2,
    keyKept := fl.getLsbD 3, encRetired := fl.getLsbD 4, perms := BitVec.ofNat 7 (fieldAt b 8 2), keyLen := fieldAt b 0x0A 2,
    parent := fieldAt b 0x0C 4 % 2 ^ 19, hasParent := decide (2 ^ 31 ≤ fieldAt b 0x0C 4),
    usageLimit := fieldAt b 0x10 8 % 2 ^ 48, usageCount := fieldAt b 0x18 8 % 2 ^ 48, notAfter := BitVec.ofNat 64 (fieldAt b 0x20 8),
    created := BitVec.ofNat 64 (fieldAt b 0x28 8), ivFixed := BitVec.ofNat 32 (fieldAt b 0x30 4) }

/-- The 64 attribute bytes. -/
def Attr.bytes (a : Attr) : List Byte :=
  leBytes 2 a.owner ++ [a.share, a.world.setWidth 8, a.lcMask.setWidth 8, a.binding, a.alg,
    BitVec.ofNat 8 (b2n a.hmacStates + 2 * b2n a.publicOnly + 4 * b2n a.blob + 8 * b2n a.keyKept + 16 * b2n a.encRetired)] ++
  leBytes 2 a.perms.toNat ++ leBytes 2 a.keyLen ++ leBytes 4 (a.parent + b2n a.hasParent * 2 ^ 31) ++
  leBytes 8 a.usageLimit ++ leBytes 8 a.usageCount ++ leBytes 8 a.notAfter.toNat ++ leBytes 8 a.created.toNat ++
  leBytes 4 a.ivFixed.toNat ++ zeros 12

/-- Bits of PERMS. -/
def permEncrypt : Nat := 0
def permDecrypt : Nat := 1
def permSign : Nat := 2
def permVerify : Nat := 3
def permDerive : Nat := 4
def permExport : Nat := 5
def permStream : Nat := 6

/-- A binding of Table 10.4 other than FREE. -/
def bindingKnown (b : Nat) : Bool := decide ((1 ≤ b ∧ b ≤ 7) ∨ (0x10 ≤ b ∧ b ≤ 0x12) ∨ b = 0x18 ∨ (0x20 ≤ b ∧ b ≤ 0x27))

/-- A symmetric, HMAC or SECRET binding. -/
def bindingSecretKey (b : Nat) : Bool := decide ((1 ≤ b ∧ b ≤ 7) ∨ (0x10 ≤ b ∧ b ≤ 0x12) ∨ b = 0x18)

/-- An AES or ChaCha20 binding. -/
def bindingSym (b : Nat) : Bool := decide (1 ≤ b ∧ b ≤ 7)

/-- An HMAC binding. -/
def bindingHmac (b : Nat) : Bool := decide (0x10 ≤ b ∧ b ≤ 0x12)

/-- AES-GCM or ChaCha20-Poly1305. -/
def bindingAead (b : Nat) : Bool := decide (b = 3 ∨ b = 7)

/-- A public-key binding. -/
def bindingPublic (b : Nat) : Bool := decide (0x20 ≤ b ∧ b ≤ 0x27)

/-- The hash of an HMAC binding (Table 7.6 code). -/
def hmacAlg (b : Nat) : Nat := if b = 0x10 then 0x02 else if b = 0x11 then 0x03 else 0x04

/-- The bindings that name an ALG (Table 10.4). -/
def algOfBinding (b alg : Nat) : Bool :=
  match b with
  | 0x20 => decide (1 ≤ alg ∧ alg ≤ 6)
  | 0x21 => decide (alg = 0x10 ∨ alg = 0x11)
  | 0x22 => decide (alg = 0x18 ∨ alg = 0x19)
  | 0x23 => decide (alg = 0x20)
  | 0x24 => decide (0x30 ≤ alg ∧ alg ≤ 0x32)
  | 0x25 => decide (0x38 ≤ alg ∧ alg ≤ 0x3A)
  | 0x26 => decide (alg = 0x40)
  | 0x27 => decide (0x48 ≤ alg ∧ alg ≤ 0x53)
  | _ => decide (alg = 0)

/-- KEY_LEN lies in its binding's range (Table 10.4). -/
def keyLenOk (b n : Nat) : Bool :=
  if b = 4 then decide (n = 32 ∨ n = 64)
  else if b = 7 then decide (n = 32)
  else if 1 ≤ b ∧ b ≤ 6 then decide (n = 16 ∨ n = 24 ∨ n = 32)
  else if bindingHmac b ∨ b = 0x18 then decide (16 ≤ n ∧ n ≤ 128)
  else if b = 0x23 then decide (256 ≤ n ∧ n ≤ 1024)
  else decide (n = 0)

/-- The reserved bits of attribute words are 0, but for the 12 bytes at 0x34. -/
def attrBitsOk (b : List Byte) : Bool :=
  decide (fieldAt b 0 2 < 1024 ∧ (b.getD 3 0).toNat < 4 ∧ (b.getD 4 0).toNat < 32 ∧ (b.getD 7 0).toNat < 32 ∧
    fieldAt b 8 2 < 128 ∧ fieldAt b 0x0C 4 / 2 ^ 19 % 2 ^ 12 = 0 ∧ fieldAt b 0x10 8 < 2 ^ 48 ∧ fieldAt b 0x18 8 < 2 ^ 48)

/-- The reserved bits of attribute words are 0. -/
def attrReservedOk (b : List Byte) : Bool := attrBitsOk b && allZero (slice b 0x34 12)

/-- A TEMPLATE that R247 accepts. -/
def templateOk (b : List Byte) : Bool :=
  let a := Attr.parse b
  let k := a.binding.toNat
  attrReservedOk b && bindingKnown k && decide (a.world ≠ 3) && decide (a.lcMask ≠ 0) && algOfBinding k a.alg.toNat &&
  keyLenOk k a.keyLen && (bindingAead k || decide (a.ivFixed = 0))

/-- Table 7.5, `parent` narrowed by `t` for function `fn`: the rules common to every use. -/
def narrows (parent t : Attr) (fn : Nat) (anyShare setAttr : Bool) : Bool :=
  decide (fn = 0 ∨ t.owner = fn) &&
  (anyShare || decide (t.share = 0 ∨ t.share = parent.share)) &&
  decide (t.world = parent.world ∨ parent.world = 2) &&
  decide (t.lcMask &&& parent.lcMask = t.lcMask) && decide (t.perms &&& parent.perms = t.perms) &&
  (decide (parent.usageLimit = 0) ||
    decide (t.usageLimit ≠ 0 ∧ t.usageLimit ≤ parent.usageLimit - (if setAttr then 0 else parent.usageCount))) &&
  (decide (parent.notAfter = 0) || (decide (t.notAfter ≠ 0) && decide (t.notAfter.toNat ≤ parent.notAfter.toNat))) &&
  (!t.hmacStates || bindingHmac t.binding.toNat)

/-! Key areas (Table 10.5) -/

/-- Cuts or pads to the 160 bytes of KEY_AREA. -/
def area160 (l : List Byte) : List Byte := fit 160 l

/-- Largest key that stays in the key area beside its states (Table 10.5). -/
def keptMax (binding : Nat) : Nat := if binding = 0x10 then 96 else 32

/-- The states' offsets and length in the key area. -/
def statesAt (binding : Nat) : Nat × Nat × Nat := if binding = 0x10 then (0x60, 0x80, 32) else (0x20, 0x60, 64)

/-- The key area of a symmetric, HMAC or SECRET key, with KEY_KEPT. -/
def secretArea (binding : Nat) (states : Bool) (key : List Byte) : List Byte × Bool :=
  if bindingHmac binding && states then
    let (i, o) := hmacStates (hmacAlg binding) key
    let (a, b, n) := statesAt binding
    let kept := decide (key.length ≤ keptMax binding)
    let base := fit a (if kept then key else [])
    (area160 (fit b (base ++ fit n (stateBytes i)) ++ fit n (stateBytes o)), kept)
  else (area160 key, true)

/-- The contexts of an HMAC slot: stored states, or computed from the key (R172). -/
def slotHmac (a : Attr) (area : List Byte) : HashCtx × HashCtx :=
  let alg := hmacAlg a.binding.toNat
  if a.hmacStates then
    let (i, o, n) := statesAt a.binding.toNat
    let m := if a.binding = 0x10 then 32 else 64
    (stateOf alg ((area.drop i).take (min n m)), stateOf alg ((area.drop o).take (min n m)))
  else hmacStates alg (area.take a.keyLen)

/-- FAMILY (R154). -/
def family (area : List Byte) : Nat := (area.getD 0x50 0).toNat

/-- INV_BUILT (R154–R156). Its 64 bits are 0 in two cases: nothing is allocated yet, and the family is not fixed; or the
counter has reached its limit of 2^64 in family BUILT, where the first allocation has made it 1 (log 62). -/
def invBuilt (area : List Byte) : Nat :=
  let n := fieldAt area 0x40 8
  if n = 0 ∧ family area = 1 then 2 ^ 64 else n

/-- INV_OTHER (R154). -/
def invOther (area : List Byte) : Nat := fieldAt area 0x48 8

/-- Sets the invocation counters and the family. -/
def setInv (area : List Byte) (built other fam : Nat) : List Byte :=
  area160 (area.take 0x40 ++ leBytes 8 built ++ leBytes 8 other ++ [BitVec.ofNat 8 fam] ++ area.drop 0x51)

/-- Bytes of the private part of a parameter set (Table 8.2). -/
def privLen (alg : Nat) : Nat :=
  match alg with
  | 0x01 | 0x04 => 32
  | 0x02 | 0x05 => 48
  | 0x03 => 66
  | 0x06 => 64
  | 0x10 | 0x18 => 32
  | 0x11 => 57
  | 0x19 => 56
  | 0x30 | 0x31 | 0x32 => 64
  | _ => 32

/-- Bytes of the public key of a parameter set (Table 8.2); RSA and HSS depend on more. -/
def pubLen (alg : Nat) : Nat :=
  match alg with
  | 0x01 | 0x04 => 65
  | 0x02 | 0x05 => 97
  | 0x03 => 133
  | 0x06 => 129
  | 0x10 | 0x18 => 32
  | 0x11 => 57
  | 0x19 => 56
  | 0x30 => 800
  | 0x31 => 1184
  | 0x32 => 1568
  | 0x38 => 1312
  | 0x39 => 1952
  | 0x3A => 2592
  | 0x48 | 0x49 | 0x4A | 0x4B => 32
  | 0x4C | 0x4D | 0x4E | 0x4F => 48
  | _ => 64

/-- Bytes of a signature or ciphertext (Table 8.2). -/
def sigLen (alg : Nat) : Nat :=
  match alg with
  | 0x01 | 0x04 => 64
  | 0x02 | 0x05 => 96
  | 0x03 => 132
  | 0x06 => 128
  | 0x10 => 64
  | 0x11 => 114
  | 0x30 => 768
  | 0x31 => 1088
  | 0x32 => 1568
  | 0x38 => 2420
  | 0x39 => 3309
  | 0x3A => 4627
  | n => if 0x48 ≤ n then (slhOf n).sigLen else 0

/-- The square root of a residue modulo a prime that is 3 modulo 4. -/
def sqrtP (p n : Nat) : Nat := powMod n ((p + 1) / 4) p

/-- The public key of a compressed ECDSA key (Table 10.5). -/
def ecDecompress (alg : Nat) (b : List Byte) : List Byte :=
  let c := curveOf alg
  let x := beNat ((b.drop 1).take c.len)
  let y := sqrtP c.p ((x * x * x + c.a * x + c.b) % c.p)
  let y := if y % 2 = (b.headD 0).toNat % 2 then y else (c.p - y) % c.p
  c.encode (some (x, y))

/-- The public key that a private part belongs to. -/
def publicOf (alg : Nat) (priv : List Byte) : List Byte :=
  if alg < 0x10 then let c := curveOf alg; c.encode (c.mul (beNat priv) c.base)
  else if alg < 0x18 then (edwardsOf alg).publicKey priv
  else if alg < 0x20 then xdhPublic (decide (alg = 0x19)) priv
  else if alg < 0x38 then kemPublic alg priv
  else dsaPublic alg priv

/-- The key area of a slot with a private part (Table 10.5). -/
def privateArea (alg : Nat) (priv : List Byte) : List Byte :=
  if alg < 0x10 then
    let c := curveOf alg
    area160 (fit 0x48 priv ++ c.compress (c.mul (beNat priv) c.base))
  else if alg < 0x20 then area160 (fit 0x48 priv ++ publicOf alg priv)
  else area160 priv

/-- The public key of a slot, from its attributes, key area and blob body. -/
def slotPublic (a : Attr) (area body : List Byte) : List Byte :=
  let alg := a.alg.toNat
  if a.binding = 0x23 then body.take (a.keyLen + 4)
  else if a.blob then body
  else if a.publicOnly then
    (if alg = 0x40 then
      area.take (28 + (match lmsType (beNat ((area.drop 4).take 4)) with
        | some (_, m, _) => m
        | none => 32))
     else area.take (pubLen alg))
  else if alg < 0x10 then ecDecompress alg ((area.drop 0x48).take ((curveOf alg).len + 1))
  else if alg < 0x20 then (area.drop 0x48).take (pubLen alg)
  else publicOf alg (area.take (privLen alg))

/-- A public key that R199 accepts for its parameter set. -/
def publicKeyOk (alg : Nat) (k : Nat) (b : List Byte) : Bool :=
  if alg < 0x10 then ((curveOf alg).decode b).isSome
  else if alg < 0x18 then decide (b.length = pubLen alg) && ((edwardsOf alg).decode b).isSome
  else if alg < 0x20 then decide (b.length = pubLen alg)
  else if alg = 0x20 then decide (b.length = k + 4) && rsaPublicOk k (beNat (b.take k)) (beNat (b.drop k))
  else if alg < 0x38 then kemPublicOk alg b
  else if alg = 0x40 then decide (b.length = 28 + (match lmsType (beNat ((b.drop 4).take 4)) with
    | some (_, m, _) => m
    | none => 0)) && (otsType (beNat ((b.drop 8).take 4))).isSome && decide (1 ≤ beNat (b.take 4) ∧ beNat (b.take 4) ≤ 8)
  else decide (b.length = pubLen alg)

/-! The vault state in D0 (Table 10.9) -/

/-- A root counter. -/
def D0.rootCtr (d : D0) (i : Nat) : Nat := (d.root.getD i 0).toNat

/-- The items that the validity check covers, in the order of Table 10.9, each in whole bytes, little-endian: the spec gives
neither the order nor the padding (DESIGN CHOICE, log 146). -/
def D0.items (d : D0) : List Byte :=
  let es := (d.batch.getD { entries := [] }).pairs
  leBytes 32 d.tamperSecret.toNat ++ ((List.range 3).map (fun i => leBytes 7 (d.rootCtr i))).flatten ++
  leBytes 4 d.epoch.toNat ++ leBytes 3 (d.sweepPos.toNat + 2 ^ 19 * b2n d.sweepActive) ++
  ((List.range 8).map (fun i => leBytes 3 (es.getD i (0, 0)).1 ++ leBytes 7 (es.getD i (0, 0)).2)).flatten ++
  [BitVec.ofNat 8 (b2n d.batch.isSome), BitVec.ofNat 8 (b2n d.burnished)]

/-- The validity check fits the items. -/
def D0.valid (d : D0) : Bool := decide (d.crc = crc32c d.items)

/-- A write of the vault engine to D0: the check follows the items (R257). -/
def State.modD0 (s : State) (f : D0 → D0) : State :=
  let d := f s.d0
  { s with d0 := { d with crc := crc32c d.items } }

/-! Keys of the vault (R261) -/

/-- The label of a derivation: its ASCII bytes and a 4-byte value. -/
def vaultLabel (l : String) (v : Nat) : List Byte := l.toList.map (fun c => BitVec.ofNat 8 c.toNat) ++ leBytes 4 v

/-- HKDF-Expand with SHA-384 of a root key. -/
def vaultExpand (root : List Byte) (l : String) (v n : Nat) : List Byte :=
  hkdfExpand (hmacStates 0x03 root) (vaultLabel l v) n

/-- The record key of an epoch. -/
def VaultSt.recordKey (v : VaultSt) (epoch : Nat) : List Byte := vaultExpand v.vr "Y9-REC" epoch 32

/-- The tree key of an epoch. -/
def VaultSt.treeKey (v : VaultSt) (epoch : Nat) : List Byte := vaultExpand v.vr "Y9-TREE" epoch 32

/-- The epoch of a parity: the current one, or during a sweep the previous one (R269). -/
def epochOf (d0 : D0) (parity : Bool) : Option Nat :=
  let e := d0.epoch.toNat
  if decide (e % 2 = 1) = parity then some e else if d0.sweepActive then some (e - 1) else none

/-! Records (R246) -/

/-- The record of a slot with its lease ends in place of the live counters (R252). -/
def SlotEnt.stored (e : SlotEnt) : SlotEnt :=
  { e with
    attr := { e.attr with usageCount := max e.attr.usageCount e.usageEnd },
    area := if bindingAead e.attr.binding.toNat then
      setInv e.area (max (invBuilt e.area) e.builtEnd) (max (invOther e.area) e.otherEnd)
        (if family e.area = 0 then e.fam else family e.area) else e.area }

/-- Seals a record with AES-256-GCM: AAD bytes 0x00–0x0F, nonce of slot and counter. -/
def sealRecord (key : List Byte) (slot counter : Nat) (parity : Bool) (attr : Attr) (area extra : List Byte) : List Byte :=
  let head := leBytes 4 slot ++ [0x01, BitVec.ofNat 8 (b2n parity)] ++ zeros 10
  let plain := (attr.bytes.take 0x34 ++ fit 12 extra) ++ fit 160 area
  let (c, t) := gcmSeal key (leBytes 4 slot ++ leBytes 8 counter) head plain
  head ++ c ++ t

/-- Opens a record: attributes, key area and the model's extra bytes, when everything R246 asks for holds. Only an entry of
the authority image may hold LOCKED in the first reserved attribute byte (log 30). -/
def openRecord (key : List Byte) (slot counter : Nat) (b : List Byte) : Option (Attr × List Byte × List Byte) :=
  let head := b.take 16
  match gcmOpen key (leBytes 4 slot ++ leBytes 8 counter) head ((b.drop 16).take 224) (b.drop 240) with
  | none => none
  | some p =>
    if b.length = 256 ∧ fieldAt b 0 4 = slot ∧ b.getD 4 0 = 1 ∧ (b.getD 5 0).toNat < 2 ∧
        allZero (slice b 6 10) ∧ attrBitsOk p ∧ allZero (slice p 0x35 11) ∧
        (p.getD 0x34 0 = 0 ∨ (slot < 256 ∧ p.getD 0x34 0 = 1)) then
      some (Attr.parse (p.take 64), p.drop 64, slice p 0x34 12)
    else none

/-! Tree nodes (R253) -/

/-- Offset of a level's nodes in the tree (Table 10.7). -/
def levelOffset (level : Nat) : Nat :=
  match level with
  | 0 => 0
  | 1 => 0x400000
  | 2 => 0x480000
  | 3 => 0x490000
  | 4 => 0x492000
  | _ => 0x492400

/-- Key of a node in the node cache. -/
def nodeKey (level idx : Nat) : Nat := level * 65536 + idx

/-- The truncated MAC of a node. -/
def nodeMac (key : List Byte) (level idx parent : Nat) (counts : List Nat) : Nat :=
  let pre := [BitVec.ofNat 8 level] ++ leBytes 3 idx
  let aad := (counts.map (leBytes 7)).flatten ++ pre
  let t := gcmTag (roundKeys key) (pre ++ leBytes 8 parent) aad []
  leNat (t.take 8) % 2 ^ 63

/-- The 64 bytes of a node. -/
def nodeBytes (key : List Byte) (parity : Bool) (level idx parent : Nat) (counts : List Nat) : List Byte :=
  (counts.map (leBytes 7)).flatten ++ leBytes 8 (nodeMac key level idx parent counts + b2n parity * 2 ^ 63)

/-- The counters of a node, if its MAC matches under the parent's counter. -/
def openNode (v : VaultSt) (d0 : D0) (level idx parent : Nat) (b : List Byte) : Option (List Nat) :=
  let counts := (chunks 7 (b.take 56)).map leNat
  let mac := fieldAt b 0x38 8
  match epochOf d0 (decide (2 ^ 63 ≤ mac)) with
  | none => none
  | some e =>
    if b.length = 64 ∧ nodeMac (v.treeKey e) level idx parent counts = mac % 2 ^ 63 then some counts else none

/-- Seals a key blob (Table 10.6). -/
def sealBlob (key : List Byte) (slot binding alg : Nat) (body : List Byte) : List Byte :=
  let head := leBytes 4 slot ++ [BitVec.ofNat 8 binding, BitVec.ofNat 8 alg, 0, 0] ++ leBytes 4 body.length ++ zeros 4
  let (c, t) := gcmSeal key (zeros 12) head body
  head ++ c ++ t

/-- Opens a key blob of a slot: its body (R249). -/
def openBlob (slot : Nat) (a : Attr) (area b : List Byte) : Option (List Byte) :=
  let n := fieldAt b 8 4
  if fieldAt b 0 4 = slot ∧ b.getD 4 0 = a.binding ∧ b.getD 5 0 = a.alg ∧ n ≤ 4016 ∧ n = fieldAt area 0x20 4 then
    gcmOpen (area.take 32) (zeros 12) (b.take 16) ((b.drop 16).take n) ((b.drop (16 + n)).take 16)
  else none

/-- An RSA private key from a blob body (Table 10.6). -/
def rsaOfBody (k : Nat) (b : List Byte) : RsaKey :=
  let h := (k + 1) / 2
  let at' (o n : Nat) : Nat := beNat ((b.drop o).take n)
  { k := k, n := at' 0 k, e := at' k 4, p := at' (k + 4) h, q := at' (k + 4 + h) h, dp := at' (k + 4 + 2 * h) h,
    dq := at' (k + 4 + 3 * h) h, qinv := at' (k + 4 + 4 * h) h }

end Sys2Proof.Machine
end

