-- ==== Sys2Proof/Machine/VaultOps.lean ====
section
/-! DEFINITION. The vault engine: counter tree, caches, slot checks, leases, batches, recovery (10_plate_vault.md
R241–R260). -/

namespace Sys2Proof.Machine

/-- Changes the vault's part of the state. -/
def State.modVt (s : State) (f : VaultSt → VaultSt) : State := { s with vt := f s.vt }

/-- Entry of an association list. -/
def assoc {α : Type} (l : List (Nat × α)) (k : Nat) : Option α := (l.find? (fun p => p.1 == k)).map (·.2)

/-! The counter tree (R253–R255) -/

/-- The counters of a node, if the block knows them: cached, or never written (R253). -/
def State.nodeVal (s : State) (fuel level idx : Nat) : Option (List Nat) :=
  match assoc s.vt.nodes (nodeKey level idx) with
  | some c => some c
  | none =>
    match fuel with
    | 0 => none
    | f + 1 =>
      let pc : Option Nat := if level = 5 then some (s.d0.rootCtr idx)
        else (s.nodeVal f (level + 1) (idx / 8)).map (fun c => c.getD (idx % 8) 0)
      if pc = some 0 then some (List.replicate 8 0) else none

/-- The counter that a node's MAC depends on. -/
def State.parentCtr (s : State) (level idx : Nat) : Option Nat :=
  if level = 5 then some (s.d0.rootCtr idx)
  else (s.nodeVal 6 (level + 1) (idx / 8)).map (fun c => c.getD (idx % 8) 0)

/-- A slot's leaf counter. -/
def State.leaf (s : State) (slot : Nat) : Option Nat := (s.nodeVal 6 0 (slot / 8)).map (fun c => c.getD (slot % 8) 0)

/-- Index of a slot's node at a level (Table 10.7). -/
def nodeIdx (slot level : Nat) : Nat := slot / 8 ^ (level + 1)

/-- Levels of a slot's path whose nodes must be read. -/
def State.pathReads (s : State) (slot : Nat) : List Nat :=
  (List.range 6).filter (fun l => (s.nodeVal 6 l (nodeIdx slot l)).isNone)

/-- Address of the vault region and of the blob area. -/
def VaultSt.base (v : VaultSt) : Nat := v.addr.toNat * 2 ^ 21
def VaultSt.blobBase (v : VaultSt) : Nat := v.blobAddr.toNat * 2 ^ 21

/-- Nodes kept when the node cache is full: those of batches (R258). -/
def VaultSt.pinnedNodes (v : VaultSt) : List Nat :=
  (v.batches.map (fun b =>
    (b.slots.map (fun p => (List.range 6).map (fun l => nodeKey l (nodeIdx p.1 l)))).flatten ++
    (match b.clear with
     | some (place, idx) => (List.range (6 - place)).map (fun i => nodeKey (place + i) (idx / 8 ^ (i + 1)))
     | none => []))).flatten

/-- The node cache can take a whole path: six of its 8,192 entries are not pinned (R258). -/
def VaultSt.nodeRoom (v : VaultSt) : Bool := decide (v.pinnedNodes.eraseDups.length + 6 ≤ 8192)

/-- Puts a node into the node cache, newest last; in a full cache the oldest that is not pinned leaves (R258). -/
def VaultSt.putNode (v : VaultSt) (k : Nat) (c : List Nat) : VaultSt :=
  let l := v.nodes.filter (fun p => p.1 != k)
  if l.length < 8192 then { v with nodes := l ++ [(k, c)] }
  else
    match l.find? (fun p => !v.pinnedNodes.contains p.1) with
    | some p => { v with nodes := l.filter (fun q => q.1 != p.1) ++ [(k, c)] }
    | none => v

/-- A lookup used the cached nodes of a slot's path: they are the newest (R258). -/
def State.touchPath (s : State) (slot : Nat) : State :=
  let path := (List.range 6).map (fun l => nodeKey l (nodeIdx slot l))
  s.modVt (fun v => { v with
    nodes := v.nodes.filter (fun p => !path.contains p.1) ++ v.nodes.filter (fun p => path.contains p.1) })

/-- A link used a cached slot: it is the newest (R258). -/
def State.touchSlot (s : State) (slot : Nat) : State :=
  s.modVt (fun v => { v with
    useNo := v.useNo + 1, slots := v.slots.map (fun p => if p.1 = slot then (p.1, { p.2 with used := v.useNo }) else p) })

/-! Batches (R255) -/

/-- A link depends on a batch's commit. -/
def addWait (b : Batch) (t : Option Nat) : Batch :=
  match t with
  | some t => { b with waits := addSet b.waits t }
  | none => b

/-- A record joins the batch being formed, or opens one; a slot already there takes its latest contents, and at 8 records
the batch closes. `f` changes what else the batch holds. -/
def joinBatches (l : List Batch) (slot : Nat) (e : SlotEnt) (t : Option Nat) (f : Batch → Batch) : List Batch :=
  match l with
  | [] => [f (addWait { slots := [(slot, e)] } t)]
  | b :: r =>
    if !b.closed && !b.issued && b.regs.isNone && (b.slots.any (fun p => p.1 == slot) || decide (b.slots.length < 8)) then
      let slots := b.slots.filter (fun p => p.1 != slot) ++ [(slot, e)]
      f (addWait { b with slots := slots, closed := decide (8 ≤ slots.length) } t) :: r
    else b :: joinBatches r slot e t f

/-- Closes the open lease of a slot: a record with its exact counts (R252). -/
def SlotEnt.exact (e : SlotEnt) : SlotEnt :=
  { e with usageEnd := e.attr.usageCount, builtEnd := invBuilt e.area, otherEnd := invOther e.area, fam := 0 }

/-- The leases of a slot end no later than another version's. -/
def SlotEnt.bound (e q : SlotEnt) : SlotEnt :=
  { e with usageEnd := min e.usageEnd q.usageEnd, builtEnd := min e.builtEnd q.builtEnd, otherEnd := min e.otherEnd q.otherEnd }

/-- A lease is open. -/
def SlotEnt.leased (e : SlotEnt) : Bool :=
  decide (e.attr.usageCount < e.usageEnd) ||
  (bindingAead e.attr.binding.toNat && (decide (invBuilt e.area < e.builtEnd) || decide (invOther e.area < e.otherEnd)))

/-- Slots that stay in the cache: those of valid key map entries and of batches (R17, R258). -/
def State.pinned (s : State) (slot : Nat) : Bool :=
  s.st.km.any (fun p => p.2.valid && decide (p.2.slot.toNat = slot)) ||
  (match s.st.kmOld with
   | some (_, o) => o == slot
   | none => false) ||
  s.vt.batches.any (fun b => b.slots.any (fun p => p.1 == slot))

/-- Changes a cached slot. -/
def State.modSlot (s : State) (slot : Nat) (f : SlotEnt → SlotEnt) : State :=
  s.modVt (fun v => { v with slots := v.slots.map (fun p => if p.1 = slot then (p.1, f p.2) else p) })

/-- The cached contents after a commit: the batch's, with live counters that moved on meanwhile kept. Where the cache has
lost the slot, counting resumes from the stored lease ends (R252, R259). -/
def mergeLive (new : SlotEnt) (cur : Option SlotEnt) : SlotEnt :=
  match cur with
  | none => new.stored
  | some c =>
    if c.attr.binding = new.attr.binding ∧ c.attr.created = new.attr.created ∧ new.attr.binding ≠ 0 then
      { new with
        attr := { new.attr with usageCount := max new.attr.usageCount c.attr.usageCount },
        area := if bindingAead new.attr.binding.toNat then
          setInv new.area (max (invBuilt new.area) (invBuilt c.area)) (max (invOther new.area) (invOther c.area))
            (if family c.area = 0 then family new.area else family c.area) else new.area }
    else new

/-- The cached contents after recovery: the version kept, under whose lease ends the live counters of a slot still in the
cache go on (R256). -/
def mergeKept (kept : SlotEnt) (cur : Option SlotEnt) : SlotEnt :=
  match cur with
  | none => kept
  | some c =>
    if c.attr.binding = kept.attr.binding ∧ c.attr.created = kept.attr.created ∧ kept.attr.binding ≠ 0 then
      { kept with
        attr := { kept.attr with usageCount := min kept.attr.usageCount c.attr.usageCount }, body := c.body,
        area := if bindingAead kept.attr.binding.toNat then
          setInv kept.area (min (invBuilt kept.area) (invBuilt c.area)) (min (invOther kept.area) (invOther c.area))
            (if family c.area = 0 then 0 else family kept.area) else kept.area,
        fam := family kept.area }
    else kept

/-- What the latest batch that is not committed writes to a slot. -/
def State.pendingOf (s : State) (slot : Nat) : Option SlotEnt :=
  (((s.vt.batches.map (·.slots)).flatten.reverse).find? (fun p => p.1 == slot)).map (·.2)

/-- The latest contents of a slot: of the batch that writes it last, with the live counters of the cache (R255). -/
def State.current (s : State) (slot : Nat) : Option SlotEnt :=
  match s.pendingOf slot, assoc s.vt.slots slot with
  | some p, some c => some (mergeLive p (some c))
  | some p, none => some p
  | none, c => c

/-- A batch's nodes: the union of the paths, each with the counters of its rewritten children one higher (R255). -/
def State.batchNodes (s : State) (level : Nat) (children : List Nat) : List (Nat × List Nat) :=
  ((children.map (· / 8)).eraseDups).map (fun i =>
    let c := (s.nodeVal 6 level i).getD (List.replicate 8 0)
    (i, (List.range 8).map (fun j => c.getD j 0 + b2n (children.contains (i * 8 + j)))))

/-- Every level's rewritten nodes from L0 up, each as (level, index, counters). -/
def State.batchTree (s : State) (fuel level : Nat) (children : List Nat) : List (Nat × Nat × List Nat) :=
  match fuel with
  | 0 => []
  | f + 1 =>
    let ns := s.batchNodes level children
    ns.map (fun n => (level, n.1, n.2)) ++ s.batchTree f (level + 1) (ns.map (·.1))

/-- The nodes that a clearing rewrites: the failing item's counter becomes 0 (R270). -/
def State.clearTree (s : State) (place idx : Nat) : List (Nat × Nat × List Nat) :=
  if 5 < place then []
  else
    let c := (s.nodeVal 6 place (idx / 8)).getD (List.replicate 8 0)
    (place, idx / 8, c.set (idx % 8) 0) :: s.batchTree (5 - place) (place + 1) [idx / 8]

/-- The authority image's entry of a registered slot (R262); LOCKED stands in the first reserved attribute byte (log 30). -/
def State.regEntry (s : State) (counter slot : Nat) (r : RegSlot) : List Byte :=
  sealRecord (vaultExpand s.vt.vr "Y9-AUTH" 0 32) slot counter (decide (s.d0.epoch.toNat % 2 = 1)) r.attr r.area
    [BitVec.ofNat 8 (b2n r.locked)]

/-- Issues a closed batch: the descriptor goes to D0, records are sealed, MACs computed, every write issued (R255). The
answer says whether every write passed the region-table check (R242). -/
def State.issueBatch (s : State) (b : Batch) : Bool × Batch × State :=
  let base := s.vt.base
  let epoch := s.d0.epoch.toNat
  let par := decide (epoch % 2 = 1)
  let slots := b.slots.map (fun p => (p.1, { p.2 with leaf := ((s.leaf p.1).getD 0 + 1) % 2 ^ 56 }))
  let tree : List (Nat × Nat × List Nat) := match b.clear with
    | some (place, idx) => s.clearTree place idx
    | none => s.batchTree 6 0 (b.slots.map (·.1))
  let roots := ((tree.filter (fun n => n.1 == 5)).map (fun n => n.2.1))
  let newCtr (level idx : Nat) : Nat :=
    if level = 5 then (s.d0.rootCtr idx + 1) % 2 ^ 56
    else ((tree.find? (fun n => n.1 == level + 1 && n.2.1 == idx / 8)).map (fun n => n.2.2.getD (idx % 8) 0)).getD 0
  let s := if slots.isEmpty then s
    else s.modD0 (fun d => { d with
      batch := some { entries := slots.map (fun p => (BitVec.ofNat 19 p.1, BitVec.ofNat 56 p.2.leaf)) } })
  let write (r : Bool × State) (off : Nat) (data : State → List Byte) : Bool × State :=
    let (ok, s) := r.2.fabWrite .vaultWrite 0 (base + off) (data r.2) true true
    (r.1 && ok, s)
  let r := slots.foldl (fun r p =>
    let st := p.2.stored
    write r (p.1 * 256) (fun s => sealRecord (s.vt.recordKey epoch) p.1 st.leaf par st.attr st.area [])) (true, s)
  let r := tree.foldl (fun r n =>
    write r (0x8000000 + levelOffset n.1 + n.2.1 * 64)
      (fun s => nodeBytes (s.vt.treeKey epoch) par n.1 n.2.1 (newCtr n.1 n.2.1) n.2.2)) r
  let r := match b.regs with
    | none => r
    | some regs => write r 0x8500000 (fun s =>
        ((List.range 240).map (fun n => s.regEntry ((s.d0.rootCtr 2 + 1) % 2 ^ 56) (16 + n) (regs.get {} (16 + n)))).flatten)
  (r.1, { b with slots := slots, issued := true, closed := true, roots := roots,
                 nodes := tree.map (fun n => (nodeKey n.1 n.2.1, n.2.2)) }, r.2)

/-! The sweep's reads (R254, R269) -/

/-- The largest item above a slot whose counter is 0, as its place: everything beneath it was never written (R253). -/
def State.zeroPlace (s : State) (pos : Nat) : Option Nat :=
  ((List.range 7).reverse).find? (fun p =>
    decide ((if p = 6 then some (s.d0.rootCtr (nodeIdx pos 5))
      else (s.nodeVal 6 p (nodeIdx pos p)).map (fun c => c.getD (pos / 8 ^ p % 8) 0)) = some 0))

/-- The sweep has a read under way. -/
def State.sweepReads (s : State) : Bool := s.po.txns.any (fun q => decide (q.who = .sweep))

/-- The sweep's next reads: the record at its position and the nodes of its path. None where a counter above is known to be
0, while the vault engine is fenced, or while reads are under way (R19, R246). A denied read is made again at the next step. -/
def State.sweepRead (s : State) : State :=
  if s.d0.sweepActive && !s.vt.stopped && decide (s.vt.state = .vopen) && !s.vt.closing && decide (s.vt.sweepAt < 2 ^ 19) &&
      !s.stopped 0x004 && !s.sweepReads && (s.zeroPlace s.vt.sweepAt).isNone then
    let pos := s.vt.sweepAt
    let s := (s.fabRead .sweep 0 (s.vt.base + pos * 256) 256 true).2
    (s.pathReads pos).foldl (fun s l =>
      (s.fabRead .sweep 0 (s.vt.base + 0x8000000 + levelOffset l + nodeIdx pos l * 64) 64 true).2) s
  else s

/-! Reads and failures of batches (R254–R256) -/

/-- Issues the reads of a miss: the record and every node on its path that is not cached (R254). The answer says whether
each passed the region-table check (R242). -/
def State.missReads (s : State) (slot : Nat) : Bool × State :=
  let base := s.vt.base
  let r := s.fabRead (.vaultRead slot) 0 (base + slot * 256) 256 true
  let r := (s.pathReads slot).foldl (fun (r : Bool × State) l =>
    let (ok, s) := r.2.fabRead (.vaultRead slot) 0 (base + 0x8000000 + levelOffset l + nodeIdx slot l * 64) 64 true
    (r.1 && ok, s)) r
  (r.1, r.2.modVt (fun v => { v with reading := addSet v.reading slot, misses := satAdd v.misses 1 }))

/-- The reads of recovery that are not under way, for the slots that it has not settled (R256). -/
def State.recoverReads (s : State) : State :=
  match s.d0.batch with
  | none => s
  | some d =>
    if s.stopped 0x004 then s
    else
      ((d.pairs.map (·.1)).filter (fun n => !s.vt.reading.contains n && !s.vt.recovered.any (fun p => p.1 == n))).foldl
        (fun s n => (s.missReads n).2) s

/-- Starts recovery of the descriptor: the record and path of each slot are read (R256). The slots stay in the cache: no
lookup uses them before recovery has committed (R17). -/
def State.startRecovery (s : State) : State :=
  match s.d0.batch with
  | none => s.modVt (fun v => { v with recoverDue := false })
  | some d =>
    let path := (d.pairs.map (fun p => (List.range 6).map (fun l => nodeKey l (nodeIdx p.1 l)))).flatten
    (s.modVt (fun v => { v with
      recoverDue := true, recovered := [], nodes := v.nodes.filter (fun p => !path.contains p.1) })).recoverReads

/-- Links that waited for a batch's commit or for a read go on, or end (R255). -/
def State.resume (s : State) (t : Nat) : State :=
  match s.tag? t with
  | none => s
  | some e =>
    match e.phase with
    | .missWait u => s.setTag t { e with phase := .running u }
    | .commitWait => s.setTag t { e with phase := .ended }
    | _ => s

/-- A COMMIT of the stream key map that waits for its slot's read fails (R132). -/
def State.kmAbandon (s : State) : State :=
  if s.st.kmWait.isSome then { s with st := { s.st with kmBusy := s.st.kmOld.isSome, kmWait := none, kmErr := 2 } } else s

/-- The vault closes: both caches are erased, and every link that waits for a read goes on to find it closed (R245). The
stream key map's entries stay valid: frames give NO_KEY until the slots are read again after the next opening (R17;
DESIGN CHOICE, log 144). -/
def State.vaultClosed (s : State) : State :=
  let ws := s.vt.waiters.map (·.1)
  let s := s.answered (fun w => match w with
    | .vaultRead _ | .sweep => true
    | _ => false)
  let s := s.modVt (fun v => { v with
    state := .closed, closing := false, slots := [], nodes := [], reading := [], reread := [], parked := [], waiters := [] })
  ws.foldl (fun s t => s.resume t) s.kmAbandon

/-- The batches that build on what a failed batch wrote, and the others (DESIGN CHOICE, log 145). -/
def buildOn (slots : List Nat) (regs : Bool) (l : List Batch) : List Batch × List Batch :=
  match l with
  | [] => ([], [])
  | b :: r =>
    if b.slots.any (fun p => slots.contains p.1) || (regs && b.regs.isSome) then
      let (x, y) := buildOn (slots ++ b.slots.map (·.1)) (regs || b.regs.isSome) r
      (b :: x, y)
    else
      let (x, y) := buildOn slots regs r
      (x, b :: y)

/-- The first batch fails: its changes are discarded with those of the batches that build on it, and its links end with
`st`. Once its writes were issued, recovery runs (R256); the sweep goes on from its position in D0 (R269). -/
def State.failFirst (s : State) (b : Batch) (r : List Batch) (st : Status) : State :=
  let (gone, kept) := buildOn (b.slots.map (·.1)) b.regs.isSome r
  let s := s.answered (fun w => decide (w = .sweep) || (b.issued && decide (w = .vaultWrite ∨ w = .blobWrite)))
  let s := s.modVt (fun v => { v with
    batches := kept.map (fun x => { x with sweptTo := none }), sweepAt := s.d0.sweepPos.toNat })
  let s := ((b :: gone).map (·.waits)).flatten.foldl (fun s t => s.finish t st 0 0) s
  if b.issued then s.startRecovery
  else if s.vt.closing && s.vt.batches.isEmpty then s.vaultClosed else s.sweepRead

/-- Reads that a batch still needs: slots whose path is not known. -/
def State.batchMissing (s : State) (b : Batch) : List Nat :=
  (b.slots.filter (fun p => !(s.pathReads p.1).isEmpty)).map (fun p => p.1)

/-- Issues the first batch when it is closed, none is under way and its path nodes are known; otherwise their reads. Before
recovery none but its own is issued (R256). A denied access fails the batch, and the next is taken. -/
def State.pumpFrom (fuel : Nat) (s : State) : State :=
  match fuel, s.vt.batches with
  | 0, _ => s
  | _, [] => s
  | f + 1, b :: r =>
    if b.issued || !b.closed || s.fc.halted || s.stopped 0x004 || (s.vt.recoverDue && !b.recovery) then s
    else
      match s.batchMissing b with
      | [] =>
        let (ok, b', s) := s.issueBatch b
        let s := s.modVt (fun v => { v with batches := b' :: r })
        if ok then s else s.failFirst b' r .busError
      | ms =>
        let (ok, s) := (ms.filter (fun m => !s.vt.reading.contains m)).foldl (fun (q : Bool × State) m =>
          let (ok, s) := q.2.missReads m
          (q.1 && ok, s)) (true, s)
        if ok then s else (s.failFirst b r .busError).pumpFrom f

/-- Issues what can be issued of the batches. -/
def State.pumpBatches (s : State) : State := s.pumpFrom (s.vt.batches.length + 1)

/-- A record write for a slot, which link `t` waits for. From now on nothing is handed out beyond the lease ends that the
record carries (R252). -/
def State.joinBatch (s : State) (slot : Nat) (e : SlotEnt) (t : Option Nat) (f : Batch → Batch := id) : State :=
  ((s.modSlot slot (fun c => c.bound e)).modVt (fun v => { v with batches := joinBatches v.batches slot e t f })).pumpBatches

/-- Link `t` waits for the last batch that writes a slot. -/
def State.awaitBatch (s : State) (slot t : Nat) : State :=
  let rec last (l : List Batch) : List Batch :=
    match l with
    | [] => []
    | b :: r => if b.slots.any (fun p => p.1 == slot) && !r.any (fun c => c.slots.any (fun p => p.1 == slot)) then
        addWait b (some t) :: r else b :: last r
  s.modVt (fun v => { v with batches := last v.batches })

/-- Closes the lease of a slot: its exact counts are written (R252). -/
def State.closeLease (s : State) (slot : Nat) (f : Batch → Batch := id) : State :=
  match s.current slot with
  | none => s
  | some e => s.joinBatch slot e.exact none f

/-! The slot cache (R258, R259) -/

/-- The least recently used slot that is not pinned. -/
def State.oldestSlot (s : State) : Option (Nat × SlotEnt) :=
  s.vt.slots.foldl (fun b p =>
    if s.pinned p.1 then b
    else
      match b with
      | none => some p
      | some (q : Nat × SlotEnt) => if p.2.used < q.2.used then some p else b) none

/-- Makes room in a full slot cache: the least recently used slot that is not pinned leaves, after a write of its exact
counts when a lease is open (R258, R259). The answer says whether there is room now. -/
def State.makeRoom (s : State) : Bool × State :=
  if s.vt.slots.length < 16384 then (true, s)
  else
    match s.oldestSlot with
    | none => (false, s)
    | some (k, e) =>
      if e.leased then (false, s.closeLease k (fun b => { b with evicts := addSet b.evicts k }))
      else (true, s.modVt (fun v => { v with slots := v.slots.filter (fun p => p.1 != k) }))

/-- Puts a slot into the slot cache; the answer says whether there was room for it. -/
def State.cacheSlot (s : State) (slot : Nat) (e : SlotEnt) : Bool × State :=
  let put (s : State) : State := s.modVt (fun v => { v with
    useNo := v.useNo + 1, slots := v.slots.filter (fun p => p.1 != slot) ++ [(slot, { e with used := v.useNo })] })
  if (assoc s.vt.slots slot).isSome then (true, put s)
  else
    match s.makeRoom with
    | (true, s) => (true, put s)
    | r => r

/-- Puts a slot into the slot cache when there is room. -/
def State.putSlot (s : State) (slot : Nat) (e : SlotEnt) : State := (s.cacheSlot slot e).2

/-- Stream key map entries that name a freed slot become invalid (R131, R267). -/
def State.slotGone (s : State) (slot : Nat) : State :=
  { s with st := { s.st with
    km := s.st.km.map (fun p => if p.2.valid ∧ p.2.slot.toNat = slot then
      (p.1, { p.2 with valid := false, active := false, pending := false }) else p) } }

/-! Looking a slot up (R241, R245, R246, R254) -/

/-- What a lookup finds. -/
inductive Look where
  | shut
  | free
  | miss
  | hit (e : SlotEnt)

/-- Looks an ordinary slot up. -/
def State.look (s : State) (slot : Nat) : Look :=
  if s.vt.state ≠ .vopen ∨ s.vt.closing then .shut
  else if s.vt.recoverDue then .miss
  else
    match assoc s.vt.slots slot with
    | some e => if e.attr.binding = 0 then .free else .hit e
    | none => if s.leaf slot = some 0 then .free else .miss

/-- The synthetic entry of UNIT_ESCROW (Table 10.11). -/
def State.escrowEnt (s : State) : SlotEnt :=
  { attr := { binding := 6, keyLen := 32, perms := 0x7F, keyKept := true }, area := area160 (vaultExpand s.vt.ur "Y9-ESCROW" 0 32) }

/-- An authority slot as a slot entry, if it holds a key. -/
def State.authEnt (s : State) (slot : Nat) : Option SlotEnt :=
  if s.vt.ur.isEmpty then none
  else if slot = 8 then some s.escrowEnt
  else if slot < 16 then none
  else
    let r := s.vt.regs.get {} slot
    if r.attr.binding = 0 then none else some { attr := r.attr, area := r.area }

/-- What an opcode asks of a slot (R250). -/
structure SlotUse where
  /-- Uses of authority slots that Table 10.16 allows for the opcode. -/
  auth : Nat → Attr → Bool := fun _ _ => false
  /-- BINDING and ALG suit, the family is right, ENC_RETIRED does not forbid. -/
  suits : SlotEnt → Bool := fun _ => true
  perm : Option Nat := none
  consumes : Bool := false
  ownerOnly : Bool := false
  /-- VAULT_QUERY: steps 1 to 5 only. -/
  query : Bool := false
  /-- Step 4 does not apply: VAULT_ESCROW_EXPORT, and VAULT_RETIRE from an authority ring (Table 10.12). -/
  anyFn : Bool := false
  needsBlob : Bool := false

/-- The slot grants the permission that the opcode needs (R250 step 7). -/
def SlotUse.allowed (u : SlotUse) (e : SlotEnt) : Bool :=
  match u.perm with
  | some p => e.attr.perms.getLsbD p
  | none => true

/-- The vault is open and does not close: records can be written (R245, log 42). -/
def State.imageReady (s : State) : Bool := decide (s.vt.state = .vopen) && !s.vt.closing

/-- The outcome of the slot checks. -/
inductive SlotCheck where
  | deny (st : Status)
  | wait
  | ok (e : SlotEnt)

/-- The slot checks of R250 in order; authority slots under R268. `authRing`: the link is on an authority ring. -/
def State.checkSlot (s : State) (slot fn : Nat) (authRing : Bool) (u : SlotUse) : SlotCheck :=
  if slot < 256 then
    match s.authEnt slot with
    | none => .deny .keyDenied
    | some e => if authRing && u.auth slot e.attr && u.suits e && u.allowed e then .ok e else .deny .keyDenied
  else
    match s.look slot with
    | .shut => .deny .keyDenied
    | .free => .deny .keyDenied
    | .miss => .wait
    | .hit e =>
      let a := e.attr
      if u.needsBlob && a.blob && !s.vt.blobValid then .deny .keyDenied
      else if u.needsBlob && a.blob && e.body.isEmpty then .wait
      else if !u.anyFn && decide (a.owner ≠ fn) &&
          (u.ownerOnly || decide (a.share = 0) || decide ((s.fn fn).entry.shareGroup ≠ a.share)) then .deny .keyDenied
      else if decide (a.world ≠ 2 ∧ a.world ≠ (s.fn fn).entry.world) then .deny .keyDenied
      else if u.query then .ok e
      else if a.lcMask.getLsbD s.ts.lcs.toNat = false then .deny .keyDenied
      else if !u.suits e || !u.allowed e then .deny .keyDenied
      else if a.notAfter ≠ 0 ∧ a.notAfter.toNat < s.po.tm.toNat then .deny .keyDenied
      else if u.consumes && decide (a.usageLimit ≠ 0 ∧ a.usageLimit ≤ a.usageCount) then .deny .keyLimit
      else .ok e

/-- A link waits for a slot's read or for a lease's commit. -/
def State.linkWaits (s : State) (t : Nat) : State :=
  match s.tag? t with
  | none => s
  | some e =>
    match e.phase.unit? with
    | some u => s.setTag t { e with phase := .missWait u }
    | none => s

/-- A lookup's reads are issued, unless one is under way (R254); a slot in the cache needs its blob. While the vault engine
is fenced or recovery is due the lookup waits (R19, R256). False when a read is denied. -/
def State.lookUp (s : State) (slot : Nat) : Bool × State :=
  if s.vt.reading.contains slot || s.vt.parked.contains slot then (true, s)
  else if s.stopped 0x004 || s.vt.recoverDue then (true, s.modVt (fun v => { v with parked := addSet v.parked slot }))
  else if (assoc s.vt.slots slot).isSome then
    let (ok, s) := s.fabRead (.vaultRead slot) 0 (s.vt.blobBase + slot * 4096) 4096 true
    (ok, s.modVt (fun v => { v with reading := addSet v.reading slot }))
  else s.missReads slot

/-- A slot is no longer being read, and the links that waited for it. -/
def State.takeWaiters (s : State) (slot : Nat) : List Nat × State :=
  ((s.vt.waiters.filter (fun w => w.2 == slot)).map (·.1),
   s.modVt (fun v => { v with
     reading := v.reading.filter (· != slot), reread := v.reread.filter (· != slot),
     waiters := v.waiters.filter (fun w => w.2 != slot) }))

/-- A batch that is not yet issued fails, since the read of a path it needs did (R176, R255). -/
def State.failHolding (s : State) (slot : Nat) (st : Status) : State :=
  match s.vt.batches with
  | [] => s
  | b :: r =>
    if !b.issued && b.closed && !s.vt.recoverDue && (s.batchMissing b).contains slot then (s.failFirst b r st).pumpBatches else s

/-- The read of a slot failed: the links that need it end with BUS_ERROR (R254). -/
def State.lookupFails (s : State) (slot : Nat) : State :=
  let (ws, s) := (s.answered (fun w => decide (w = .vaultRead slot))).takeWaiters slot
  (ws.foldl (fun s t => s.finish t .busError 0 0) s).failHolding slot .busError

/-- A link waits for the read of a slot (R254). -/
def State.waitSlot (s : State) (t slot : Nat) : State :=
  let (ok, s) := ((s.linkWaits t).modVt (fun v => { v with waiters := v.waiters ++ [(t, slot)] })).lookUp slot
  if ok then s else s.lookupFails slot

/-- End of the lease run that `n` begins or lies in (R157), cut at a limit (R252). -/
def leaseEnd (n limit : Nat) : Nat :=
  let e := (n / 4096 + 1) * 4096
  if limit = 0 then e else min e limit

/-- The greatest USAGE_COUNT, at which a count without a limit stops (R429). -/
def usageTop : Nat := 2 ^ 48 - 1

/-- A usage count can be handed out without a record write. A count that has stopped at its top takes no run (R429). -/
def SlotEnt.usageReady (e : SlotEnt) : Bool :=
  decide (e.attr.usageCount < e.usageEnd) || decide (usageTop ≤ e.attr.usageCount)

/-- One usage count is consumed; the use that reaches the limit writes its KEY_EVENT (R251). -/
def State.consume (s : State) (slot : Nat) : State :=
  match assoc s.vt.slots slot with
  | none => s
  | some e =>
    let n := min (e.attr.usageCount + 1) usageTop
    let s := s.modSlot slot (fun e => { e with attr := { e.attr with usageCount := n } })
    if e.attr.usageLimit ≠ 0 ∧ n = e.attr.usageLimit then s.keyEvent [e.attr.owner, 0] slot 0x03 0 0 0 else s

/-! Reads that return (R254, R256) -/

/-- An authentication failure after the re-read (R250 step 3): counted, reported, the links that need the slot end. -/
def State.vaultAuthFail (s : State) (slot place : Nat) : State :=
  let (ws, s) := s.takeWaiters slot
  let s := s.modVt (fun v => { v with
    fails := satAdd v.fails 1, lastSlot := BitVec.ofNat 19 slot, lastLevel := BitVec.ofNat 3 place })
  let s := s.raise 0x004 0x26 (formS slot place)
  (ws.foldl (fun s t => s.finish t .vaultIntegrity 0 0) s).failHolding slot .vaultIntegrity

/-- Verifies the path from L5 down with the nodes read; `slack` also accepts a node under its parent's counter plus 1
(R256). Fails with the place. -/
def State.verifyPath (slot : Nat) (nodes : List (List Byte)) (slack : Bool) (fuel level : Nat) (s : State) :
    Except Nat State :=
  match fuel with
  | 0 => .ok s
  | f + 1 =>
    let idx := nodeIdx slot level
    let next (s : State) : Except Nat State := if level = 0 then .ok s else State.verifyPath slot nodes slack f (level - 1) s
    match s.nodeVal 6 level idx with
    | some _ => next s
    | none =>
      let pc := (s.parentCtr level idx).getD 0
      let b := nodes.getD level []
      match openNode s.vt s.d0 level idx pc b with
      | some c => next (s.modVt (fun v => v.putNode (nodeKey level idx) c))
      | none =>
        match (if slack then openNode s.vt s.d0 level idx (pc + 1) b else none) with
        | none => .error (level + 1)
        | some c =>
          let s := if level = 5 then
              s.modD0 (fun d => { d with root := d.root.set idx (BitVec.ofNat 56 (pc + 1)) })
            else
              let up := (s.nodeVal 6 (level + 1) (idx / 8)).getD (List.replicate 8 0)
              s.modVt (fun v => v.putNode (nodeKey (level + 1) (idx / 8)) (up.set (idx % 8) (pc + 1)))
          next (s.modVt (fun v => v.putNode (nodeKey level idx) c))

/-- Opens a record under a leaf counter, by the epoch that its GEN names. -/
def State.openSlot (s : State) (slot leaf : Nat) (b : List Byte) : Option SlotEnt :=
  match epochOf s.d0 ((b.getD 5 0).getLsbD 0) with
  | none => none
  | some e =>
    match openRecord (s.vt.recordKey e) slot leaf b with
    | none => none
    | some (a, area, _) =>
      some { attr := a, area := area, leaf := leaf, usageEnd := a.usageCount, builtEnd := invBuilt area,
             otherEnd := invOther area }

/-- The links that waited for a slot go on. -/
def State.wakeWaiters (s : State) (slot : Nat) : State :=
  let (ws, s) := s.takeWaiters slot
  (ws.foldl (fun s t => s.resume t) s).pumpBatches

/-- A failed authentication: read again once, then reported (R250 step 3); a node that fails is reported each time (R253). -/
def State.readFailed (s : State) (slot place : Nat) : State :=
  if s.vt.reread.contains slot then s.vaultAuthFail slot place
  else
    let s := if place = 0 then s else s.raise 0x004 0x26 (formS slot place)
    let (ok, s) := s.missReads slot
    if ok then s.modVt (fun v => { v with reread := addSet v.reread slot }) else s.lookupFails slot

/-- A lookup finds no entry to replace: it waits until one is unpinned (R258). -/
def State.park (s : State) (slot : Nat) : State :=
  s.modVt (fun v => { v with
    reading := v.reading.filter (· != slot), reread := v.reread.filter (· != slot), parked := addSet v.parked slot })

/-- A blob returned (R249). -/
def State.blobReturn (s : State) (slot : Nat) (e : SlotEnt) (read : VaultRead) : State :=
  match openBlob slot e.attr e.area read.blob with
  | some body => (s.modSlot slot (fun e => { e with body := body })).wakeWaiters slot
  | none =>
    if s.vt.reread.contains slot then s.vaultAuthFail slot 7
    else
      let (ok, s) := s.fabRead (.vaultRead slot) 0 (s.vt.blobBase + slot * 4096) 4096 true
      if ok then s.modVt (fun v => { v with reread := addSet v.reread slot }) else s.lookupFails slot

/-- The record of a slot, whose path is verified, joins the slot cache (R254, R258). -/
def State.recordReturn (s : State) (slot : Nat) (read : VaultRead) : State :=
  match s.leaf slot with
  | some 0 => s.wakeWaiters slot
  | none => s.readFailed slot 0
  | some l =>
    match s.openSlot slot l read.record with
    | none => s.readFailed slot 0
    | some e =>
      match s.cacheSlot slot e with
      | (true, s) => s.wakeWaiters slot
      | (false, s) => s.park slot

/-- A miss read returned in normal service (R254). -/
def State.missReturn (s : State) (slot : Nat) (read : VaultRead) : State :=
  if read.failed then s.lookupFails slot
  else
    let cached := assoc s.vt.slots slot
    match cached.filter (fun e => e.attr.blob && e.body.isEmpty && read.nodes.isEmpty) with
    | some e => s.blobReturn slot e read
    | none =>
      if s.vt.nodeRoom = false then s.park slot
      else
        match State.verifyPath slot read.nodes false 6 5 (s.touchPath slot) with
        | .error place => s.readFailed slot place
        | .ok s => if cached.isSome then s.wakeWaiters slot else s.recordReturn slot read

/-- The lookups that wait are made again: an entry is unpinned, recovery has committed, or the vault engine is back (R19,
R256, R258). -/
def State.retryLookups (s : State) : State :=
  s.vt.parked.foldl (fun s n =>
    if s.vt.parked.contains n then
      let s := s.modVt (fun v => { v with parked := v.parked.filter (· != n) })
      let (ok, s) := s.lookUp n
      if ok then s else s.lookupFails n
    else s) s

/-- The slots of valid stream key map entries stay in the cache: those it lacks are read (R17). -/
def State.keepResident (s : State) : State :=
  if s.vt.state ≠ .vopen ∨ s.vt.closing then s
  else
    ((s.st.km.filter (fun p => p.2.valid)).map (fun p => p.2.slot.toNat)).foldl (fun s n =>
      if (assoc s.vt.slots n).isSome then s
      else
        let (ok, s) := s.lookUp n
        if ok then s else s.lookupFails n) s

/-! Commit and closing (R245, R255) -/

/-- While the vault closes and its batches have committed: exact counts are written for every open lease, and then it closes
(R245). -/
def State.closeStep (s : State) : State :=
  if s.vt.closing && s.vt.batches.isEmpty && !s.vt.recoverDue then
    let l := (s.vt.slots.filter (fun p => p.2.leased)).map (·.1)
    if l.isEmpty then s.vaultClosed
    else
      let s := l.foldl (fun s n => s.closeLease n) s
      (s.modVt (fun v => { v with batches := v.batches.map (fun b => { b with closed := true }) })).pumpBatches
  else s

/-- A slot takes the contents that a batch has committed. What a later batch writes bounds the leases that may be handed
out. -/
def State.commitSlot (s : State) (recovery : Bool) (slot : Nat) (e : SlotEnt) : State :=
  let cur := assoc s.vt.slots slot
  let s := s.putSlot slot (if recovery then mergeKept e cur else mergeLive e cur)
  match s.pendingOf slot with
  | none => s
  | some q => s.modSlot slot (fun e => e.bound q)

/-- The first batch commits: roots rise, the descriptor clears and the sweep's position follows in one write to D0, caches
take the new contents, evicted slots leave, its links go on (R255, R259, R269). -/
def State.commitBatch (s : State) (b : Batch) (r : List Batch) : State :=
  let up (d : D0) (i : Nat) : BitVec 56 :=
    if b.clear = some (6, i) then 0
    else d.root.getD i 0 + BitVec.ofNat 56 (b2n (b.roots.contains i || (decide (i = 2) && b.regs.isSome)))
  let s := s.modD0 (fun d => { d with
    root := (List.range 3).map (up d), batch := none,
    sweepPos := match b.sweptTo with
      | some p => if d.sweepActive then BitVec.ofNat 19 (min p (2 ^ 19 - 1)) else d.sweepPos
      | none => d.sweepPos })
  let s := s.modVt (fun v => { v with
    batches := r, recWrites := satAdd v.recWrites b.slots.length,
    regs := b.regs.getD v.regs })
  let s := b.nodes.foldl (fun s n => s.modVt (fun v => v.putNode n.1 n.2)) s
  let s := b.slots.foldl (fun s p => s.commitSlot b.recovery p.1 p.2) s
  let s := b.slots.foldl (fun s p => if p.2.attr.binding = 0 then s.slotGone p.1 else s) s
  let s := s.modVt (fun v => { v with
    slots := v.slots.filter (fun p => !(b.evicts.contains p.1 && !s.pinned p.1 && !p.2.leased)) })
  let s := if b.recovery then
      (s.modVt (fun v => { v with state := .vopen, recoverDue := false, recovered := [] })).sweepRead.keepResident else s
  let s := b.waits.foldl (fun s t => s.resume t) s
  s.retryLookups.pumpBatches.closeStep

/-- An uncorrectable ECC error discards a cache entry: it is read again when it is next needed (R259). Which entry is a FREE
VALUE (log 147). -/
def State.cacheError (s : State) : State :=
  let (i, s) := s.draw
  let n := s.vt.slots.length
  let k := Config.cacheEntry i % (n + s.vt.nodes.length)
  s.modVt (fun v => if k < n then { v with slots := v.slots.eraseIdx k } else { v with nodes := v.nodes.eraseIdx (k - n) })

/-- The vault engine is back in service: what waited for it goes on (R19, R267). -/
def State.vaultBack (s : State) : State :=
  let s := if s.vt.recoverDue then s.recoverReads else s
  s.retryLookups.keepResident.pumpBatches.sweepRead.closeStep

/-! Recovery (R256) and opening (R245) -/

/-- Every slot of the descriptor is settled: a batch writes the versions kept under the descriptor's counters plus 1. -/
def State.recoveryDone (s : State) (d : BatchDesc) : State :=
  if s.vt.recovered.length < d.pairs.length then s
  else
    let s := d.pairs.foldl (fun s p =>
      let c := (s.nodeVal 6 0 (p.1 / 8)).getD (List.replicate 8 0)
      s.modVt (fun v => v.putNode (nodeKey 0 (p.1 / 8)) (c.set (p.1 % 8) p.2))) s
    let kept := s.vt.recovered.filterMap (fun p => p.2.map (fun e => (p.1, e)))
    let b : Batch := { slots := kept, closed := true, recovery := true }
    (s.modVt (fun v => { v with batches := b :: v.batches })).pumpBatches

/-- A read of recovery returned: the record is taken under its new or its old leaf counter (R256). -/
def State.recoverReturn (s : State) (slot : Nat) (read : VaultRead) (d : BatchDesc) : State :=
  let new := ((d.pairs.find? (fun p => p.1 == slot)).map (·.2)).getD 0
  let settle (s : State) (e : Option SlotEnt) : State :=
    (s.modVt (fun v => { v with
      recovered := v.recovered ++ [(slot, e)], reading := v.reading.filter (· != slot),
      reread := v.reread.filter (· != slot) })).recoveryDone d
  let failed (s : State) (place : Nat) : State :=
    if s.vt.reread.contains slot then
      settle ((s.vaultAuthFail slot place).modVt (fun v => { v with slots := v.slots.filter (fun p => p.1 != slot) })) none
    else
      let s := if place = 0 then s else s.raise 0x004 0x26 (formS slot place)
      (s.missReads slot).2.modVt (fun v => { v with reread := addSet v.reread slot })
  match State.verifyPath slot read.nodes true 6 5 s with
  | .error place => failed s place
  | .ok s =>
    match s.openSlot slot new read.record with
    | some e => settle s (some e)
    | none =>
      if new = 1 then settle s (some {})
      else
        match s.openSlot slot (new - 1) read.record with
        | some e => settle s (some e)
        | none => failed s 0

/-- The vault opens: recovery first when a descriptor is present; an active sweep resumes (R245, R256, R269). -/
def State.openVault (s : State) : State :=
  let s := s.modVt (fun v => { v with sweepAt := s.d0.sweepPos.toNat })
  match s.d0.batch with
  | none => (s.modVt (fun v => { v with state := .vopen })).sweepRead.keepResident
  | some _ => (s.modVt (fun v => { v with state := .recovering })).startRecovery

/-- Opening begins: the authority image is read if one was ever written (R262). -/
def State.beginOpen (s : State) : State :=
  if s.d0.rootCtr 2 = 0 then s.openVault
  else
    let s := s.modVt (fun v => { v with state := .opening, reading := addSet v.reading 0 })
    (s.fabRead (.vaultRead 0) 0 (s.vt.base + 0x8500000) 61440 true).2

/-- The vault opens when its region is valid and its root is unsealed (R245). -/
def State.tryOpen (s : State) : State :=
  if s.vt.valid && decide (s.vt.state = .closed) && !s.vt.vr.isEmpty && !s.fc.halted then s.beginOpen else s

/-- The authority image returned: registered slots are restored, or left free with PV_AUTH (R262). -/
def State.imageReturn (s : State) (image : List Byte) (failed : Bool) : State :=
  let key := vaultExpand s.vt.vr "Y9-AUTH" 0 32
  let es := (chunks 256 image).zipIdx.map (fun p => (16 + p.2, openRecord key (16 + p.2) (s.d0.rootCtr 2) p.1))
  let s := s.modVt (fun v => { v with reading := v.reading.filter (· != 0) })
  if failed || decide (es.length ≠ 240) || es.any (fun p => p.2.isNone) then
    ((s.modVt (fun v => { v with regs := [], fails := satAdd v.fails 1, lastSlot := 0, lastLevel := 7 })).raise 0x004 0x26
      (formS 0 7)).openVault
  else
    let regs := es.foldl (fun (t : Tab RegSlot) p =>
      match p.2 with
      | some (a, area, x) => t.set {} p.1 (if a.binding = 0 then {} else
          { attr := a, area := area, locked := decide (x.headD 0 = 1) })
      | none => t) []
    (s.modVt (fun v => { v with regs := regs })).openVault

end Sys2Proof.Machine
end

