-- ==== Sys2Proof/Machine/Admission.lean ====
section
/-! DEFINITION. Link costs and the class D admission test (04_chains.md R103–R106; costs of 07_digest.md R169 and
08_public_key.md R193, R203, R215). Times are in eighths of a nanosecond, so that 64 Gbit/s is exact. -/

namespace Sys2Proof.Machine

/-- Microseconds, in eighths of a nanosecond. -/
def usec (n : Nat) : Nat := n * 8000

/-- Compressions of a message of `n` bytes under a hash code of Table 7.6 (Table 7.1). -/
def compressions (alg n : Nat) : Nat :=
  if alg ≤ 2 then (n + 9 + 63) / 64
  else if alg ≤ 4 then (n + 17 + 127) / 128
  else n / hashBlock alg + 1

/-- Further permutations for `d` bytes of SHAKE output (Table 7.1). -/
def squeezes (alg d : Nat) : Nat := (d + hashBlock alg - 1) / hashBlock alg - 1

/-- Cycles per compression (Table 7.1). -/
def cyclesOf (alg : Nat) : Nat := if alg ≤ 2 then 32 else if alg ≤ 4 then 40 else 24

/-- A slot's attributes, when the slot cache holds it: what admission may know of a slot at issue (log 32). -/
def State.knownAttr (s : State) (slot : Nat) : Attr :=
  match assoc s.vt.slots slot with
  | some e => e.attr
  | none => ((s.authEnt slot).map (·.attr)).getD {}

/-- Hash of a KDF's HASH byte. -/
def kdfHash (h : Nat) : Nat := if h = 2 then 0x03 else if h = 3 then 0x04 else 0x02

/-- Compressions of HKDF_EXPAND (Table 7.3). -/
def expandCost (alg info aux : Nat) (states : Bool) : Nat :=
  let h := hashLen alg
  let n := (aux + h - 1) / h
  ((List.range n).map (fun i => compressions alg ((if i = 0 then 0 else h) + info + 1) + 1)).sum + (if states then 0 else 2)

/-- Cycles of a session link of function `fn` over `n` bytes, in the context that is open at issue: its hash goes on from the
partial block, and SESS_FINISH adds the outer compression of HMAC or the further output of SHAKE (R169). A context that is
not on the block counts as the costliest (log 32). -/
def State.sessionCycles (s : State) (fn : Nat) (d : Desc) (n : Nat) : Nat :=
  let ends := decide (d.opcode = 0x2F2)
  let worst := max ((compressions 0x02 n + 3) * cyclesOf 0x02)
    (if ends then (compressions 0x0D n + squeezes 0x0D d.outLen.toNat) * cyclesOf 0x0D else 0)
  match s.dctx (sessKey fn (d.aux.toNat % 64)) with
  | none => worst
  | some c =>
    let alg := c.hash.alg.toNat
    if c.hash.st.isEmpty then worst
    else (compressions alg (c.hash.total % hashBlock alg + n) + (if ends && c.outer.isSome then 1 else 0) +
      (if ends && decide (0x0C ≤ alg) then squeezes alg d.outLen.toNat else 0)) * cyclesOf alg

/-- Cost of a digest link over `n` bytes (R169, Table 7.3). What the inline parameters and the slot cache do not tell
is assumed as log 32 says. -/
def State.digestCost (s : State) (fn : Nat) (d : Desc) (n : Nat) : Nat :=
  let o := d.opcode.toNat
  let a := s.knownAttr d.slot.toNat
  let slotAlg := if bindingHmac a.binding.toNat then hmacAlg a.binding.toNat else 0x02
  let p := d.inlined
  let alg := if p.isEmpty then slotAlg else kdfHash (p.headD 0).toNat
  let dest := if (p.getD 1 0) = 1 then 2 else 0
  let keyLen := if a.keyLen = 0 then hashLen alg else a.keyLen
  let keyed (alg : Nat) : Nat :=
    if a.hmacStates then 0 else 2 + (if hashBlock alg < keyLen then compressions alg keyLen else 0)
  let (alg, c) : Nat × Nat :=
    if o < 0x208 then (o - 0x200 + 1, compressions (o - 0x200 + 1) n)
    else if o < 0x20C then (o - 0x208 + 8, compressions (o - 0x208 + 8) n)
    else if o < 0x210 then (o - 0x20C + 0x0C, compressions (o - 0x20C + 0x0C) n + squeezes (o - 0x20C + 0x0C) d.aux.toNat)
    else if o = 0x210 then (slotAlg, compressions slotAlg n + 1 + keyed slotAlg)
    else if o = 0x218 then (alg, 2 + compressions alg keyLen + 1 + expandCost alg n d.aux.toNat false + dest)
    else if o = 0x219 then (alg, 2 + compressions alg keyLen + 1 + dest)
    else if o = 0x21A then (alg, expandCost alg n d.aux.toNat a.hmacStates + dest)
    else if o = 0x220 then
      let h := hashLen alg
      (alg, (d.aux.toNat + h - 1) / h * (compressions alg ((p.getD 3 32).toNat / 8 + n) + 1) +
        (if a.hmacStates then 0 else 2) + dest)
    else
      let code := d.aux.toNat / 256 % 256
      if code ≠ 0 ∧ code < 0x10 then (code, compressions code n) else (slotAlg, compressions slotAlg n + 3)
  if o = 0x2F1 ∨ o = 0x2F2 then 4000 + s.sessionCycles fn d n * 8 else 4000 + c * cyclesOf alg * 8

/-- Cost of an operation at `rate` per second: its inverse rounded up to 1 µs (Table 4.2). -/
def rateCost (rate : Nat) : Nat := usec ((1000000 + rate - 1) / rate)

/-- The `n`th number of a list, else the least: the rate of the slowest set. -/
def pick (l : List Nat) (n : Nat) : Nat := l.getD n (l.foldl min (l.headD 1))

/-- The rate for an RSA modulus of `k` bytes: that of the next larger listed modulus (R193). -/
def rsaRate (k : Nat) (l : List Nat) : Nat :=
  if k = 0 then pick l 3 else if k ≤ 256 then pick l 0 else if k ≤ 384 then pick l 1 else if k ≤ 512 then pick l 2 else pick l 3

/-- The public key of a cached or registered slot, as admission may know it at issue (log 32). -/
def State.knownPublic (s : State) (slot : Nat) : List Byte :=
  match assoc s.vt.slots slot with
  | some e => slotPublic e.attr e.area e.body
  | none => ((s.authEnt slot).map (fun e => slotPublic e.attr e.area e.body)).getD []

/-- Nanoseconds of an HSS verification over `n` bytes under a public key (R203): the message under the hash of the last
level, then each level. A level whose types the key does not tell counts as the costliest (log 32). -/
def hssNs (pub : List Byte) (n : Nat) : Nat :=
  let levels := if pub.isEmpty then 8 else min 8 (beNat (pub.take 4))
  let most := 24 * ((34 * 255) + 2 * 25 + 4)
  let message (shake : Bool) : Nat := if shake then 24 * compressions 0x0D n else 8 * compressions 0x02 n
  match lmsType (beNat ((pub.drop 4).take 4)), otsType (beNat ((pub.drop 8).take 4)) with
  | some (shake, _, h), some t =>
    (if levels = 1 then message shake else max (message true) (message false)) +
      (if shake then 24 else 8) * (t.p * (2 ^ t.w - 1) + 2 * h + 4) + (levels - 1) * most
  | _, _ => max (message true) (message false) + levels * most

/-- Cost of a link on a modular or NTT core over `n` bytes (Table 8.1, R193, R203, R215). A parameter set that is not
known at issue counts as the slowest (log 32). -/
def State.pkCost (s : State) (d : Desc) (n : Nat) : Nat :=
  let o := d.opcode.toNat
  let a := s.knownAttr d.slot.toNat
  let alg := if d.inlined.isEmpty then a.alg.toNat else (d.inlined.headD 0).toNat
  let k := if a.binding = 0x23 then a.keyLen else fieldAt d.inlined 0x0C 4 - 4
  let ec := if 1 ≤ alg then alg - 1 else 99
  let ed := if alg = 0x10 then 0 else 1
  let kem := if 0x30 ≤ alg then alg - 0x30 else 99
  let dsa := if 0x38 ≤ alg then alg - 0x38 else 99
  let slh := if 0x48 ≤ alg then alg - 0x48 else 99
  let items := d.aux.toNat % 128
  match o with
  | 0x300 | 0x303 | 0x305 | 0x308 => rateCost (rsaRate k [90000, 42000, 24000, 6100])
  | 0x301 | 0x302 | 0x304 => rateCost (rsaRate k [3200, 1050, 480, 62])
  | 0x310 => rateCost (pick [50000, 17500, 7600, 33000, 12000, 5600] ec)
  | 0x311 => rateCost (pick [45000, 16000, 7000, 30000, 11000, 5200] ec)
  | 0x312 => rateCost (pick [22000, 7800, 3400, 14500, 5300, 2500] ec)
  | 0x318 => rateCost (pick [62000, 21000] ed)
  | 0x319 => rateCost (pick [60000, 20000] ed)
  | 0x31A => rateCost (pick [28000, 9500] ed)
  | 0x31B => 80000 + items * (if alg = 0x10 then 13180 else 39840) * 8
  | 0x320 | 0x321 => rateCost (if alg = 0x18 then 70000 else 24000)
  | 0x3F0 | 0x4F0 => usec 1
  | 0x400 => rateCost (pick [330000, 220000, 150000] kem)
  | 0x401 => rateCost (pick [380000, 250000, 170000] kem)
  | 0x402 => rateCost (pick [300000, 200000, 140000] kem)
  | 0x410 => rateCost (pick [110000, 70000, 45000] dsa)
  | 0x411 => usec ((8000000 + pick [62000, 40000, 30000] dsa - 1) / pick [62000, 40000, 30000] dsa)
  | 0x412 => rateCost (pick [180000, 120000, 75000] dsa)
  | 0x413 => items * rateCost (pick [180000, 120000, 75000] dsa)
  | 0x420 => usec ((hssNs (s.knownPublic d.slot.toNat) n + 999) / 1000)
  | 0x428 => rateCost (pick [40000, 22000, 16000, 9000, 26000, 14000, 11000, 6000, 14000, 7500, 10000, 5500] slh)
  | _ => usec 1

/-- Effective length of a cipher link as admission takes it (Table 6.1, R146). -/
def effLen (d : Desc) (n : Nat) : Nat :=
  let o := d.opcode.toNat
  if o = 0x121 ∨ o = 0x141 then (if d.outChain ∨ n ≤ 65536 then n else 2 * n)
  else if o = 0x130 ∨ o = 0x131 then 2 * n
  else if 0x138 ≤ o ∧ o ≤ 0x13B then 12 * n
  else n

/-- Cost of a link of function `fn` of a tested kind over its input length (Table 4.2). -/
def State.linkCost (s : State) (fn : Nat) (d : Desc) (n : Nat) : Nat :=
  match kindOf d.opcode with
  | .cipher => 4000 + effLen d n
  | .digest => s.digestCost fn d n
  | .modular | .ntt => s.pkCost d n
  | _ => 0

/-- The input lengths admission uses: INHERIT counts as the previous link's OUT_LEN (R103). -/
def admissionLens (prev : Nat) (l : List Desc) : List (Desc × Nat) :=
  match l with
  | [] => []
  | d :: r => (d, if d.inLen = inheritLen then prev else d.inLen.toNat) :: admissionLens d.outLen.toNat r
where
  /-- INHERIT. -/
  inheritLen : Word := 0xFFFFFFFF

/-- Each link's kind, cost and link deadline (R103). -/
def State.linkDeadlines (s : State) (fn deadline : Nat) (l : List (Desc × Nat)) : List (Kind × Nat × Int) :=
  match l with
  | [] => []
  | (d, n) :: r =>
    (kindOf d.opcode, s.linkCost fn d n, (deadline : Int) - ((r.map (fun p => s.linkCost fn p.1 p.2)).sum : Nat)) ::
      s.linkDeadlines fn deadline r

/-- Inserts a link into the set sorted by deadline. -/
def insertDl (x : Nat × Int) (l : List (Nat × Int)) : List (Nat × Int) :=
  match l with
  | [] => [x]
  | y :: r => if x.2 < y.2 then x :: y :: r else y :: insertDl x r

/-- The admission test of one kind over its sorted set (R103). -/
def admitKind (units b now : Nat) (demand : Nat) (l : List (Nat × Int)) : Bool :=
  match l with
  | [] => true
  | (c, dl) :: r =>
    let demand := demand + c
    decide ((now + b : Nat) < dl) && decide ((demand : Int) ≤ (units : Int) * (dl - (now + b : Nat))) &&
      admitKind units b now demand r

/-- Blocking time (Table 4.1). -/
def blocking (k : Kind) : Nat :=
  match k with
  | .cipher => 8200 * 8
  | .digest => usec 1
  | _ => usec 20

/-- Units available to class D (R103, R106). -/
def State.classDUnits (s : State) (k : Kind) : Nat :=
  let n := s.countRole k Role.inService
  match k with
  | .cipher | .digest => min n (s.reserve k)
  | _ => n

/-- Bytes of input that the passes of a link over `n` bytes read: twice `n` where admission takes two passes (R103, R146). -/
def passBytes (d : Desc) (n : Nat) : Nat :=
  let o := d.opcode.toNat
  if (o = 0x121 ∨ o = 0x131 ∨ o = 0x141) ∧ d.outChain = false ∧ 65536 < n then 2 * n else n

/-- The remaining cost of a link over `n` bytes: its cost reduced in proportion to the input consumed at its mark (R103; what
it has consumed since then is timing, log 120). -/
def remaining (e : TagEnt) (n cost : Nat) : Nat :=
  match e.mark with
  | none => cost
  | some m => if n = 0 then cost else cost - cost * min m.pos (passBytes e.desc n) / passBytes e.desc n

/-- Links of packet `fl` that have not ended, with what admission charges for them (R103). -/
def State.flightDemand (s : State) (fl : Flight) : List (Kind × Nat × Int) :=
  let es := fl.tags.filterMap (fun t => s.tag? t)
  let lens := admissionLens 0 (es.map (·.desc))
  let all := s.linkDeadlines fl.fn (fl.deadline.toNat * 8) lens
  ((es.zip (lens.zip all)).filter (fun p => decide (p.1.phase ≠ .ended))).map
    (fun p => (p.2.2.1, remaining p.1 p.2.1.2 p.2.2.2.1, p.2.2.2.2))

/-- The admission test for the links of a packet of function `fn` at issue (R103, R104). -/
def State.admits (s : State) (fn : Nat) (links : List Desc) (deadline now : Nat) : Bool :=
  let own := s.linkDeadlines fn (deadline * 8) (admissionLens 0 links)
  let others := (s.sq.flights.map (fun p => if p.2.admitted then s.flightDemand p.2 else [])).flatten
  [Kind.cipher, .digest, .modular, .ntt].all (fun k =>
    admitKind (s.classDUnits k) (blocking k) (now * 8) 0
      (((own ++ others).filter (fun x => decide (x.1 = k))).foldl (fun l x => insertDl (x.2.1, x.2.2) l) []))

end Sys2Proof.Machine
end

