-- ==== Sys2Proof/Machine/Rings.lean ====
section
/-! DEFINITION. Rings: enabling, header reads, fetching, the form check, stopping (03_rings.md R54–R63, R67–R75,
R85–R89, R434). -/

namespace Sys2Proof.Machine

/-- Writes bytes of a ring's header (R55). -/
def State.writeHeader (s : State) (f r : Nat) (hdr : BitVec 48) (off : Nat) (data : List Byte) : State :=
  (s.fabWrite (.headerWrite r) f (hdr.toNat * 512 + off) data true).2

/-- Writes STATE of a ring's header (Table 3.1). -/
def State.writeState (s : State) (f r : Nat) (hdr : BitVec 48) (st : RingState) : State :=
  s.writeHeader f r hdr 0x28 [BitVec.ofNat 8 st.code]

/-- RING_STOPPED (Table 2.8). -/
def State.ringStopped (s : State) (f r : Nat) (cons : Word) (reason : Nat) : State :=
  s.event f 0x05 f (s.localRing f r) (leBytes 4 cons.toNat ++ [BitVec.ofNat 8 reason])

/-- Discards every fetched entry that is not issued, and every read in flight (R86). -/
def Ring.discard (x : Ring) : Ring :=
  { x with reads := [], raw := [], table := none, ready := [], bad := 0, fetchPos := x.issuePos,
           hdrBusy := false, hdrOwed := false }

/-- A ring stops fetching and will stop with `reason` once its issued operations have ended (R82, R85, R86). -/
def Ring.startStop (x : Ring) (reason : Nat) : Ring :=
  { x.discard with state := .stopping, stopWith := BitVec.ofNat 8 reason }

/-- Refuses an enable: STOP_REASON in the header, a RING_STOPPED record, held operations dropped, the ring as it was
(R56, R434). -/
def State.refuseEnable (s : State) (f r : Nat) (cons : Word) (reason : Nat) : State :=
  let x := s.ring r
  let s := s.setRing r { x with enabling := false, heldKick := false, heldDisable := false, reason := BitVec.ofNat 8 reason }
  (s.writeHeader f r x.newHdr 0x29 [BitVec.ofNat 8 reason]).ringStopped f r cons reason

/-- Accepts an ENABLE: the ring is enabling and its header is read (R56, R434). The record of a read that failed carries
the position at which the ring stood before (DESIGN CHOICE, log 132). -/
def State.ringEnable (s : State) (f r : Nat) (hdr : BitVec 48) : State :=
  let s := s.modRing r (fun x => { x with
    enabling := true, newHdr := hdr, heldKick := false, heldDisable := false, lastHdr := s.po.tm })
  let (ok, s) := s.fabRead (.ringHeader r) f (hdr.toNat * 512) 64 true
  if ok then s else s.refuseEnable f r (s.ring r).issuePos 2

/-- The ring fetches: ENABLED, its function ENABLED, no fetch stop, no block halt, the ring manager not fenced (R19, R37,
R75, R85, R326). -/
def State.ringLive (s : State) (f r : Nat) : Bool :=
  !s.fc.halted && decide ((s.ring r).state = .enabled) && decide ((s.fn f).state = .enabled) && !(s.ring r).dead &&
  !s.stopped 0x008

/-- The reads of a ring whose result is discarded are followed no further (R40, R75, R85, R86). -/
def State.dropFetches (s : State) (r : Nat) : State :=
  s.answered (fun w => decide (w = .ringHeader r ∨ w = .ringEntry r ∨ w = .ringTable r))

/-- A ring stops with `reason` once its issued operations have ended; what it has fetched is discarded (R82, R85, R86). Its
header shows STOPPING from then on (Table 3.1, log 133). -/
def State.stopRing (s : State) (r reason : Nat) : State :=
  let x := s.ring r
  let s := (s.dropFetches r).modRing r (fun x => x.startStop reason)
  match s.ringOwner r with
  | some f => if x.state = .stopping then s else s.writeState f r x.hdr .stopping
  | none => s

/-- Stops a ring after a failed or denied fetch read (R85). -/
def State.fetchStop (s : State) (r : Nat) : State := if (s.ring r).state = .enabled then s.stopRing r 2 else s

/-- Issues a header read (R60, R62). -/
def State.readHeader (s : State) (f r : Nat) : State :=
  let x := s.ring r
  let s := s.setRing r { x with hdrBusy := true, hdrOwed := false, lastHdr := s.po.tm }
  let (ok, s) := s.fabRead (.ringHeader r) f (x.hdr.toNat * 512) 16 true
  if ok then s else s.fetchStop r

/-- KICK: a header read, or exactly one more after the read in progress (R62). -/
def State.ringKick (s : State) (f r : Nat) : State :=
  if (s.ring r).hdrBusy then s.modRing r (fun x => { x with hdrOwed := true }) else s.readHeader f r


/-- R58 and R434: the ring's state lets the operation through. -/
def Ring.accepts (x : Ring) (op : RingOp) : Bool :=
  match op with
  | .enable => (decide (x.state = .disabled) || decide (x.state = .stopped)) && !x.enabling
  | .kick => decide (x.state = .enabled) || x.enabling
  | .disable => !decide (x.state = .disabled) || x.enabling

/-- Carries out an accepted operation (R56, R62, R86, R434). A DISABLE of a ring that is STOPPING for another reason makes it
end DISABLED (DESIGN CHOICE, log 134). -/
def State.ringAct (s : State) (f r : Nat) (op : RingOp) (hdr : BitVec 48) : State :=
  let x := s.ring r
  match op with
  | .enable => s.ringEnable f r hdr
  | .kick => if x.enabling then s.setRing r { x with heldKick := true } else s.ringKick f r
  | .disable => if x.enabling then s.setRing r { x with heldDisable := true } else s.stopRing r 1

/-- An accepted operation is carried out, or waits while the ring manager is fenced (R19, log 129). -/
def State.ringDo (s : State) (f r : Nat) (op : RingOp) (hdr : BitVec 48) : State :=
  if s.stopped 0x008 then
    { s with rt := { s.rt with held := s.rt.held ++ [{ fn := f, ring := r, op := op, hdr := hdr }] } }
  else s.ringAct f r op hdr

/-- The ring manager is back: the operations that waited are carried out in order, where the ring still lets them through
(R19, log 129). -/
def State.ringsBack (s : State) : State :=
  s.rt.held.foldl (fun s q => if (s.ring q.ring).accepts q.op then s.ringAct q.fn q.ring q.op q.hdr else s)
    { s with rt := { s.rt with held := [] } }

/-- A doorbell write (R38, R58). -/
def State.doorbell (s : State) (f loc : Nat) (op : RingOp) (hdr : BitVec 48) : State :=
  let e := (s.fn f).entry
  let r := e.ringBase.toNat + loc
  if decide ((s.fn f).state = .enabled) && decide (loc < e.ringCount.toNat) && (s.ring r).accepts op then
    s.ringDo f r op hdr
  else s

/-- RT_CMD ENABLE or DISABLE on the selected pool ring: the answer is ERR (R59). -/
def State.rtCommand (s : State) (op : RingOp) : State :=
  let r := s.rt.sel.toNat
  let err (n : Nat) (s : State) : State := { s with rt := { s.rt with err := BitVec.ofNat 4 n } }
  match s.ringOwner r with
  | none => err 2 s
  | some f =>
    if decide ((s.fn f).state = .enabled) && (s.ring r).accepts op then err 0 (s.ringDo f r op s.rt.hdr)
    else err 1 s

/-! The form check (R67–R74) -/

/-- KIND of an entry. -/
def entryKind (e : List Byte) : Nat := (e.headD 0).toNat % 4

/-- EXT of a head, or SEQ of an extension. -/
def entryExt (e : List Byte) : Nat := (e.headD 0).toNat / 4 % 4

/-- Entries of the packet that starts at this head. -/
def entrySpan (e : List Byte) : Nat := if entryKind e = 1 then 1 + entryExt e else 1

/-- PFLAGS.INDIRECT of a head. -/
def headIndirect (e : List Byte) : Bool := (e.getD 3 0).getLsbD 1

/-- A link descriptor from its 48 bytes (Table 3.3). -/
def parseDesc (b : List Byte) : Desc :=
  let fl := fieldAt b 2 2
  { opcode := BitVec.ofNat 12 (fieldAt b 0 2), inChain := fl % 2 = 1, outChain := fl / 2 % 2 = 1,
    paramInline := fl / 4 % 2 = 1, opt := BitVec.ofNat 5 (fl / 8), slot := BitVec.ofNat 19 (fieldAt b 4 4),
    inAddr := BitVec.ofNat 64 (fieldAt b 8 8), inLen := BitVec.ofNat 32 (fieldAt b 0x10 4),
    outLen := BitVec.ofNat 32 (fieldAt b 0x14 4), outAddr := BitVec.ofNat 64 (fieldAt b 0x18 8),
    paramAddr := BitVec.ofNat 64 (fieldAt b 0x20 8), paramLen := BitVec.ofNat 32 (fieldAt b 0x28 4),
    aux := BitVec.ofNat 32 (fieldAt b 0x2C 4) }

/-- A descriptor's reserved bits are 0 (Table 3.3). -/
def descReservedOk (b : List Byte) : Bool :=
  decide (fieldAt b 0 2 < 4096) && decide (fieldAt b 2 2 < 256) && decide (fieldAt b 4 4 < 2 ^ 19)

/-- A packet's descriptors, each with the DATA of the PARAM entries that belong to it (R70): inline packets. -/
def gather (first : List Byte) (exts : List (List Byte)) : List (List Byte × List (List Byte)) :=
  let step (acc : List (List Byte × List (List Byte))) (e : List Byte) : List (List Byte × List (List Byte)) :=
    if entryKind e = 2 then (slice e 16 48, []) :: acc
    else
      match acc with
      | [] => []
      | (d, ps) :: r => (d, ps ++ [slice e 4 60]) :: r
  (exts.foldl step [(first, [])]).reverse

/-- INHERIT. -/
def inherit : Word := 0xFFFFFFFF

/-- An address and length that a link uses stay below 2^57 (Table 3.6 ADDRESS). -/
def addrOk (addr : DWord) (len : Nat) : Bool := decide (addr.toNat + len ≤ 2 ^ 57) && decide (addr.toNat < 2 ^ 57)

/-- The addresses a link uses are well formed (Table 3.6 ADDRESS). -/
def descAddrOk (d : Desc) : Bool :=
  (d.inChain || decide (d.inLen = 0) || addrOk d.inAddr d.inLen.toNat) &&
  (d.outChain || decide (d.outLen = 0) || addrOk d.outAddr d.outLen.toNat) &&
  (d.paramInline || decide (d.paramLen = 0) || addrOk d.paramAddr d.paramLen.toNat)

/-- IN_CHAIN and OUT_CHAIN match along the packet (Table 3.6 CHAIN_FLAGS). -/
def chainFlagsOk (prevOut : Bool) (l : List Desc) : Bool :=
  match l with
  | [] => !prevOut
  | d :: r => decide (d.inChain = prevOut) && chainFlagsOk d.outChain r

/-- Reserved fields of the head, CLASS and PRIORITY (Table 3.6 RESERVED). -/
def headReservedOk (h : List Byte) : Bool :=
  let sched := (h.getD 2 0).toNat
  decide ((h.headD 0).toNat < 16) && decide (sched < 32) && decide (sched % 4 ≠ 3) &&
  (decide (sched % 4 = 0) || decide (sched / 4 = 0)) && decide ((h.getD 3 0).toNat < 4) && decide (h.getD 7 0 = 0) &&
  (!headIndirect h || allZero (slice h 0x18 40))

/-- Class D has a DEADLINE and the others have none (Table 3.6 DEADLINE). -/
def deadlineOk (h : List Byte) : Bool :=
  decide ((h.getD 2 0).toNat % 4 = 1) == decide (fieldAt h 4 3 ≠ 0)

/-- LINK_TABLE is well formed (Table 3.6 ADDRESS). -/
def tableOk (h : List Byte) : Bool :=
  let a := fieldAt h 0x10 8
  decide (a % 64 = 0) && addrOk (BitVec.ofNat 64 a) ((h.getD 1 0).toNat * 48)

/-- Extension entries have KIND LINK or PARAM and their place in SEQ (Table 3.6 KIND). -/
def extsOk (n : Nat) (exts : List (List Byte)) : Bool :=
  match exts with
  | [] => true
  | e :: r => (decide (entryKind e = 2) || decide (entryKind e = 3)) && decide (entryExt e = n) && extsOk (n + 1) r

/-- Reserved bytes of an extension entry (Table 3.4). -/
def extReservedOk (e : List Byte) : Bool :=
  decide ((e.headD 0).toNat < 16) && (if entryKind e = 2 then allZero (slice e 1 15) else allZero (slice e 1 3))

/-- A link's PARAM entries agree with PARAM_INLINE and PARAM_LEN (R70). -/
def paramsOk (d : Desc) (n : Nat) : Bool :=
  if d.paramInline then decide (n = (d.paramLen.toNat + 59) / 60) && decide (1 ≤ n) else decide (n = 0)

/-- The rules of Table 3.6 that concern an INDIRECT packet's head alone: its reason code, 0 when none is broken
(R74). -/
def headCheck (h : List Byte) : Nat :=
  let n := (h.getD 1 0).toNat
  if entryKind h ≠ 1 then 0x01
  else if entryExt h ≠ 0 then 0x02
  else if n = 0 ∨ 16 < n then 0x03
  else if headReservedOk h = false then 0x04
  else if deadlineOk h = false then 0x07
  else if tableOk h = false then 0x0A
  else 0

/-- The form check of a whole packet in the order of Table 3.6: its entries, or its head and its link table. -/
def formCheck (authority : Bool) (entries : List (List Byte)) (table : List Byte) : Except Nat Packet :=
  let h := entries.headD []
  let exts := entries.drop 1
  let ind := headIndirect h
  let n := (h.getD 1 0).toNat
  let descs := if ind then (chunks 48 (table.take (n * 48))).map (fun b => (b, [])) else gather (slice h 16 48) exts
  let links := descs.map (fun p => { parseDesc p.1 with inlined := (p.2.flatten).take (parseDesc p.1).paramLen.toNat })
  let ops := links.map (fun d => d.opcode.toNat)
  if entryKind h ≠ 1 ∨ extsOk 1 exts = false then .error 0x01
  else if ind ∧ entryExt h ≠ 0 then .error 0x02
  else if n = 0 ∨ 16 < n ∨ (ind = false ∧ n ≠ descs.length) then .error 0x03
  else if headReservedOk h = false ∨ exts.all extReservedOk = false ∨ descs.all (fun p => descReservedOk p.1) = false then
    .error 0x04
  else if ops.any (fun o => decide ((0x800 ≤ o ∧ o < 0xE00) ∨ 0xF00 ≤ o)) then .error 0x05
  else if authority = false ∧ ops.any (fun o => decide (1 ≤ o ∧ o < 0x100)) then .error 0x06
  else if deadlineOk h = false then .error 0x07
  else if chainFlagsOk false links = false then .error 0x08
  else if links.any (fun d => decide (d.inLen = inherit) && !d.inChain) ||
      !(List.zipWith (fun d p => paramsOk d p.2.length) links descs).all id || (ind && links.any (·.paramInline)) then
    .error 0x09
  else if (ind && !tableOk h) || !links.all descAddrOk then .error 0x0A
  else
    let sched := (h.getD 2 0).toNat
    .ok { entries := entries.length, links := links,
          cls := if sched % 4 = 0 then .p else if sched % 4 = 1 then .d else .b,
          prio := BitVec.ofNat 3 (sched / 4), sched := h.getD 2 0, deadline := BitVec.ofNat 24 (fieldAt h 4 3),
          user := BitVec.ofNat 64 (fieldAt h 8 8), event := (h.getD 3 0).getLsbD 0, indirect := ind }

/-! Malformed packets (R75) and HALTED functions (R37) -/

/-- A function enters HALTED (R37). -/
def State.haltFn (s : State) (f loc : Nat) (pos : Word) : State :=
  let s := s.modFn f (fun x => { x with state := .halted, haltRing := BitVec.ofNat 14 loc })
  let d := leBytes 4 pos.toNat
  (s.event f 0x06 f loc d).event 0 0x06 f loc d

/-- A ring of function 0 is an authority ring (R26). -/
def isAuthority (f loc : Nat) : Bool := decide (f = 0 ∧ loc < 16)

/-- Publishes SQ_CONS (R66). -/
def State.publishSq (s : State) (f r : Nat) : State :=
  let x := s.ring r
  s.writeHeader f r x.hdr 0x08 (leBytes 4 x.issuePos.toNat)

/-- A malformed packet at `pos` with its reason code (R75). What a ring of a virtual function has fetched stays there
unissued until the reset (R37); an authority ring does nothing more, and a ring of the physical function stops. -/
def State.malformed (s : State) (f r : Nat) (pos : Word) (reason : Nat) : State :=
  let loc := s.localRing f r
  let d := leBytes 4 pos.toNat ++ [0xFF, BitVec.ofNat 8 reason]
  let s := (s.publishSq f r).modRing r (fun x => { x with bad := 0 })
  if f ≠ 0 then ((s.event f 0x02 f loc d).event 0 0x02 f loc d).haltFn f loc pos
  else
    let s := s.event 0 0x02 0 loc d
    if isAuthority f loc then
      ((s.dropFetches r).modRing r (fun x => { x.discard with dead := true })).raise 0x008 0x20 (formO none 0)
    else s.stopRing r 3

/-- Position of the first returned entry that is not yet part of a packet. -/
def Ring.rawPos (x : Ring) : Word := x.issuePos + BitVec.ofNat 32 ((x.ready.map (·.entries)).sum)

/-- Entries fetched, in flight or returned, that are not issued (R60). -/
def Ring.unissued (x : Ring) : Nat := (x.fetchPos - x.issuePos).toNat

/-- Issues the entry reads up to the SQ_PROD seen, split at the ring's end and at 4 KiB boundaries, while fewer than 64
entries wait and the function's quota allows (R33, R60). -/
def State.fetchLoop (fuel : Nat) (s : State) (f r : Nat) : State :=
  match fuel with
  | 0 => s
  | n + 1 =>
    let x := s.ring r
    let size := queueSize x.sqSize
    let room := min (64 - x.unissued) (x.sqProd - x.fetchPos).toNat
    let idx := x.fetchPos.toNat % size
    let k := min room (min (size - idx) (64 - idx % 64))
    if s.ringLive f r = false ∨ k = 0 ∨ x.bad ≠ 0 then s
    else
      let s := s.setRing r { x with fetchPos := x.fetchPos + BitVec.ofNat 32 k, reads := x.reads ++ [(x.fetchPos, k)] }
      let (ok, s) := s.fabRead (.ringEntry r) f (x.sqBase.toNat + idx * 64) (k * 64) true
      if ok then State.fetchLoop n s f r else s.fetchStop r

/-- Fetches further entries (R33, R60). -/
def State.fetch (s : State) (f r : Nat) : State :=
  let q := (s.fn f).entry.tagQuota.toNat
  if q ≠ 0 ∧ q ≤ (s.tagsOf f).length then s else s.fetchLoop 70 f r

/-- Forms packets from the returned entries: each is checked, an INDIRECT one reads its link table, and a malformed one
acts when every packet before it has been issued (R71, R74, R75). -/
def State.formLoop (fuel : Nat) (s : State) (f r : Nat) : State :=
  match fuel with
  | 0 => s
  | n + 1 =>
    let x := s.ring r
    match x.raw with
    | [] => s
    | h :: _ =>
      let k := entrySpan h
      let ind := decide (entryKind h = 1) && headIndirect h
      if s.ringLive f r = false ∨ x.table.isSome ∨ x.bad ≠ 0 ∨ (ind = false ∧ x.raw.length < k) then s
      else
        let reject (reason : Nat) : State :=
          if x.ready.isEmpty then s.malformed f r x.rawPos reason
          else s.setRing r { x with bad := BitVec.ofNat 8 reason }
        if ind then
          let c := headCheck h
          if c ≠ 0 then reject c
          else
            let p : Packet := { head := x.rawPos, indirect := true }
            let s := s.setRing r { x with table := some p }
            let (ok, s) := s.fabRead (.ringTable r) f (fieldAt h 0x10 8) ((h.getD 1 0).toNat * 48) true
            if ok then s else s.fetchStop r
        else
          match formCheck (isAuthority f (s.localRing f r)) (x.raw.take k) [] with
          | .error c => reject c
          | .ok p =>
            State.formLoop n
              (s.setRing r { x with raw := x.raw.drop k, ready := x.ready ++ [{ p with head := x.rawPos }] }) f r

/-- A header read returned its 16 bytes: the indices are checked and entries fetched (R60, R63, R66). INDEX_RANGE acts at
once, also while fetched packets below the fetch position wait for issue (DESIGN CHOICE, log 135). -/
def State.headerSeen (s : State) (f r : Nat) (data : List Byte) : State :=
  let x := s.ring r
  let sqProd : Word := BitVec.ofNat 32 (fieldAt data 0 4)
  let cqCons : Word := BitVec.ofNat 32 (fieldAt data 4 4)
  if queueSize x.sqSize < (sqProd - x.fetchPos).toNat ∨ queueSize x.cqSize < (x.cqPos - cqCons).toNat then
    s.malformed f r x.fetchPos 0x0B
  else (s.setRing r { x with sqProd := sqProd, cqCons := cqCons }).fetch f r

/-- The checks of R56 on the 64 bytes of a header. -/
def enableOk (e : FnEntry) (b : List Byte) : Bool :=
  let sq := (b.getD 0x20 0).toNat
  let cq := (b.getD 0x21 0).toNat
  let vec := fieldAt b 0x22 2
  let w (o : Nat) : Word := BitVec.ofNat 32 (fieldAt b o 4)
  decide (sq ≤ 10) && decide (cq ≤ 10) && decide (fieldAt b 0x10 8 % 4096 = 0) && decide (fieldAt b 0x18 8 % 4096 = 0) &&
  (decide (vec = 0xFFFF) || decide (vec < e.vecCount.toNat)) && allZero (slice b 0x26 2) && allZero (slice b 0x2A 22) &&
  decide ((w 0 - w 8).toNat ≤ 2 ^ (6 + sq)) && decide ((w 12 - w 4).toNat ≤ 2 ^ (6 + cq))

/-- The enable's header read returned: the ring is accepted as ENABLED or refused (R56, R87, R434). -/
def State.enableCheck (s : State) (f r : Nat) (b : List Byte) : State :=
  let x := s.ring r
  let w (o : Nat) : Word := BitVec.ofNat 32 (fieldAt b o 4)
  if enableOk (s.fn f).entry b then
    let y : Ring := {
      state := .enabled, hdr := x.newHdr, newHdr := x.newHdr, lastHdr := x.lastHdr,
      sqBase := BitVec.ofNat 64 (fieldAt b 0x10 8), cqBase := BitVec.ofNat 64 (fieldAt b 0x18 8),
      sqSize := BitVec.ofNat 4 (b.getD 0x20 0).toNat, cqSize := BitVec.ofNat 4 (b.getD 0x21 0).toNat,
      vector := BitVec.ofNat 16 (fieldAt b 0x22 2), pollUs := BitVec.ofNat 16 (fieldAt b 0x24 2),
      sqProd := w 8, cqCons := w 4, fetchPos := w 8, issuePos := w 8, cqPos := w 12, cqProd := w 12 }
    let s := (s.setRing r y).writeState f r y.hdr .enabled
    if x.heldDisable then s.stopRing r 1
    else
      let s := if s.ringLive f r then s.headerSeen f r (b.take 16) else s
      if x.heldKick && s.ringLive f r then s.ringKick f r else s
  else s.refuseEnable f r (w 8) 4

/-- A STOPPING ring with no issued operation left: SQ_CONS, CQ_PROD and STATE are written, STOP_REASON for a stopped
ring, and RING_STOPPED (R85, R86, R89). STOP_REASON is written for STOPPED alone, after STATE and before the record, and
CQ_PROD covers a record whose write failed (DESIGN CHOICE, log 136). -/
def State.stopComplete (s : State) (f r : Nat) : State :=
  let x := s.ring r
  if decide (x.state = .stopping) && (s.tagsOfRing r).isEmpty then
    let fin : RingState := if x.stopWith = 1 then .disabled else .stopped
    let s := (s.answered (fun w => decide (w = .completion r))).setRing r { x with state := fin, reason := x.stopWith, stopWith := 0, cqProd := x.cqPos, noRecords := false }
    let s := s.publishSq f r
    let s := s.writeHeader f r x.hdr 0x0C (leBytes 4 x.cqPos.toNat)
    let s := s.writeState f r x.hdr fin
    let s := if fin = .stopped then s.writeHeader f r x.hdr 0x29 [x.stopWith] else s
    s.ringStopped f r x.issuePos x.stopWith.toNat
  else s

end Sys2Proof.Machine
end

