-- ==== Sys2Proof/Machine/Chains.lean ====
section
/-! DEFINITION. Completion records, the end of a link, and the issue of packets (03_rings.md R64–R66, R73, R79–R82;
04_chains.md R90–R97, R102–R105, R112). -/

namespace Sys2Proof.Machine

/-- What a completion record says of a link (Table 3.7). -/
structure RecordOf where
  fn : Nat
  ring : Nat
  head : Word
  user : DWord
  event : Bool
  cls : Cls
  opcode : BitVec 12
  link : Nat
  last : Bool
  tag : Nat
  status : Status
  out : Nat
  result : DWord
  replayed : Bool

/-- OPCODE of a record: the opcode and the link number. -/
def RecordOf.op (r : RecordOf) : Nat := r.opcode.toNat + r.link * 4096

/-- FLAGS of a record at a position. -/
def RecordOf.flags (r : RecordOf) (phase : Bool) : Nat := b2n phase + 2 * b2n r.replayed + 4 * b2n r.last

/-- The 32 bytes of a completion record (Table 3.7). -/
def RecordOf.bytes (r : RecordOf) (phase : Bool) : List Byte :=
  [BitVec.ofNat 8 r.status.code, BitVec.ofNat 8 (r.flags phase)] ++ leBytes 2 r.op ++ leBytes 4 r.head.toNat ++
  leBytes 8 r.user.toNat ++ leBytes 4 r.out ++ leBytes 2 r.tag ++ [0, 0] ++ leBytes 8 r.result.toNat

/-- AUDIT journals a class (Table 4.3, GC_OVERRIDE.AUDIT_CLASSES). -/
def State.audits (s : State) (c : Cls) : Bool :=
  decide (s.pf.current = 3) &&
  (match c with
   | .d => s.pf.auditClasses.getLsbD 0
   | .p => s.pf.auditClasses.getLsbD 1
   | .b => s.pf.auditClasses.getLsbD 2)

/-- Signals the vector that a ring's header names, unless the record's own event record has signalled it (R112,
"one signal, taken at the event record"). -/
def State.signalRing (s : State) (f r : Nat) (already : Bool) : State :=
  let v := (s.ring r).vector.toNat
  if v = 0xFFFF ∨ already then s else s.signal f ((s.fn f).entry.vecBase.toNat + v)

/-- Writes one completion record, its COMPLETION event record, and signals (R80, R81, R112). A write that the region table
denies is a failed write (R82). -/
def State.putRecord (s : State) (r : RecordOf) : State :=
  let x := s.ring r.ring
  let p := x.cqPos
  let size := queueSize x.cqSize
  let loc := s.localRing r.fn r.ring
  if x.noRecords then s
  else
    let (ok, s) := s.fabWrite (.completion r.ring) r.fn (x.cqBase.toNat + p.toNat % size * 32) (r.bytes (phaseOf p size)) true
    if ok = false then (s.stopRing r.ring 2).modRing r.ring (fun x => { x with noRecords := true })
    else
      let s := s.modRing r.ring (fun x => { x with cqPos := p + 1 })
      let s := if (s.fn r.fn).state = .resetting then s.modFn r.fn (fun f => { f with nCompleted := f.nCompleted + 1 }) else s
      let s := if s.audits r.cls then
          s.journal 0x04 0 0 (leBytes 2 r.fn ++ leBytes 2 loc ++ leBytes 4 p.toNat ++
            [BitVec.ofNat 8 r.status.code, BitVec.ofNat 8 (r.flags (phaseOf p size))] ++ leBytes 2 r.op ++ leBytes 2 r.tag ++
            [0, 0] ++ leBytes 4 r.out ++ zeros 4 ++ leBytes 8 r.user.toNat)
        else s
      let before := (s.fn r.fn).eq.prod
      let s := if r.event then
          s.event r.fn 0x01 r.fn loc (leBytes 4 p.toNat ++ [BitVec.ofNat 8 r.status.code, BitVec.ofNat 8 (b2n r.replayed)] ++
            leBytes 2 r.op ++ leBytes 2 r.tag)
        else s
      let e := (s.fn r.fn).eq
      s.signalRing r.fn r.ring (decide (e.prod ≠ before) && e.vecEn && decide (e.vector.toNat = x.vector.toNat))

/-- The status a record carries: a late class D packet's OK is DEADLINE_MISSED (R102). -/
def lateStatus (missed : Bool) (st : Status) : Status := if missed ∧ st = .ok then .deadlineMissed else st

/-- Writes a packet's records and releases its tags (R92, R112). -/
def State.putRecords (s : State) (fl : Flight) (missed : Bool) (link : Nat) (tags : List Nat) : State :=
  match tags with
  | [] => s
  | t :: r =>
    let e := (s.tag? t).getD {}
    let s := s.putRecord {
      fn := fl.fn, ring := fl.ring, head := fl.head, user := fl.user, event := fl.event, cls := fl.cls,
      opcode := e.desc.opcode, link := link, last := r.isEmpty, tag := t, status := lateStatus missed e.status,
      out := e.outBytes, result := e.result, replayed := e.replayed }
    State.putRecords (s.releaseTag t) fl missed (link + 1) r

/-- Rings of a function with a TAG_QUOTA fetch on when tags of it are released (R33). -/
def State.fetchOn (s : State) (f : Nat) : State :=
  if (s.fn f).entry.tagQuota = 0 then s
  else (s.rt.rings.map (·.1)).foldl (fun s r => if s.ringOwner r = some f then s.fetch f r else s) s

/-- The packet's last link has ended or its chain has failed: its records are written, its places given back (R92). -/
def State.packetEnd (s : State) (n : Nat) : State :=
  let fl := s.flight n
  let s := s.putRecords fl (fl.dated && decide (fl.deadline.toNat < s.po.tm.toNat)) 0 fl.tags
  let s := s.modRing fl.ring (fun x => { x with reserved := x.reserved - fl.tags.length })
  let s := { s with sq := { s.sq with flights := s.sq.flights.erase n } }
  (s.fetchOn fl.fn).schedule

/-- A later link of a failed chain (R91). -/
def State.abortLink (s : State) (t : Nat) : State := (s.endLink t .chainAbort 0 0).releaseOut t

/-- A chain has failed at link `t`: its later links are aborted and its reservations released at once (R91, R95). -/
def State.chainFails (s : State) (fl : Flight) (t : Nat) : State :=
  let s := if fl.cur = 0 then s else s.releaseOut (fl.tags.getD (fl.cur - 1) t)
  ((fl.tags.drop (fl.cur + 1)).foldl (fun s t => s.abortLink t) s).releaseOut t

/-- A NOP's packet waits for every packet issued earlier on its ring (R73). -/
def State.nopWaits (s : State) (n : Nat) (fl : Flight) : Bool :=
  fl.tags.any (fun t => ((s.tag? t).map (fun e => e.desc.opcode)) == some 0) &&
  s.sq.flights.any (fun p => decide (p.1 < n) && decide (p.2.ring = fl.ring))

/-- A link has ended and its writes are answered (R90–R95). -/
def State.linkEnded (s : State) (t : Nat) : State :=
  match s.tag? t with
  | none => s
  | some e =>
    let fl := s.flight e.pkt
    let last := decide (fl.cur + 1 = fl.tags.length)
    let finishes := decide (e.status ≠ .ok) || last
    if e.phase ≠ .ended ∨ fl.tags[fl.cur]? ≠ some t ∨ s.fc.halted ∨ s.stopped 0x008 ∨ s.stopped 0x00A then s
    else if finishes ∧ s.nopWaits e.pkt fl then (if e.status ≠ .ok then s.chainFails fl t else s)
    else
      let s := s.answered (fun w => decide (w = .link t))
      if e.status ≠ .ok then (s.chainFails fl t).packetEnd e.pkt
      else
        let s := if fl.cur = 0 then s else s.releaseOut (fl.tags.getD (fl.cur - 1) t)
        if last then s.packetEnd e.pkt
        else ((s.setFlight e.pkt { fl with cur := fl.cur + 1 }).enqueue (fl.tags.getD (fl.cur + 1) t)).schedule

/-! Issue (R64–R66, R97, R103–R105) -/

/-- Takes `n` of the free tags, each chosen by the free value of log 23. -/
def State.takeTags (s : State) (free : List Nat) (n : Nat) : List Nat × State :=
  match n with
  | 0 => ([], s)
  | k + 1 =>
    let (i, s) := s.draw
    let t := free.getD (Config.tagChoice i % free.length) 0
    let (r, s) := s.takeTags (free.filter (· != t)) k
    (t :: r, s)

/-- Free tags. -/
def State.freeTags (s : State) : List Nat :=
  (List.range 16384).filter (fun t => (s.sq.tags.find? (fun p => p.1 == t)).isNone)

/-- The completion ring has room for `n` records (R64). -/
def Ring.roomFor (x : Ring) (n : Nat) : Bool :=
  decide ((x.cqPos - x.cqCons).toNat + x.reserved + n ≤ queueSize x.cqSize)

/-- SQ_CONS moves past a packet and is published (R66). -/
def State.issuePast (s : State) (f r : Nat) (p : Packet) : State :=
  (s.modRing r (fun x => { x with
    issuePos := x.issuePos + BitVec.ofNat 32 p.entries, ready := x.ready.drop 1 })).publishSq f r

/-- The journal entry of an issued packet in AUDIT (Table 14.2). -/
def State.journalIssue (s : State) (f r : Nat) (p : Packet) : State :=
  if s.audits p.cls then
    s.journal 0x03 0 0 (leBytes 2 f ++ leBytes 2 (s.localRing f r) ++ leBytes 4 p.head.toNat ++
      [BitVec.ofNat 8 p.links.length, p.sched] ++ leBytes 2 ((p.links.map (fun d => d.opcode.toNat)).headD 0) ++
      leBytes 4 ((p.links.map (fun d => d.slot.toNat)).headD 0) ++ leBytes 8 p.user.toNat)
  else s

/-- A packet of more links than TAG_QUOTA: one OVERLOAD record for each link, without tags (R65). -/
def State.refusePacket (s : State) (f r : Nat) (p : Packet) (link : Nat) (l : List Desc) : State :=
  match l with
  | [] => s
  | d :: rest =>
    let s := s.putRecord {
      fn := f, ring := r, head := p.head, user := p.user, event := p.event, cls := p.cls, opcode := d.opcode,
      link := link, last := rest.isEmpty, tag := 0xFFFF, status := .overload, out := 0, result := 0, replayed := false }
    s.refusePacket f r p (link + 1) rest

/-- Class D admission at issue: the packet runs admitted, runs unadmitted (demoted), or is refused (R103–R105). -/
inductive Admission where
  | admitted | demoted | refused
  deriving DecidableEq, Repr

/-- The outcome of admission for a class D packet. -/
def State.admission (s : State) (fn : Nat) (p : Packet) (deadline : Nat) : Admission :=
  if decide (s.pf.current = 1) && !s.pf.dEn then .admitted
  else if s.admits fn p.links deadline s.po.tm.toNat then .admitted
  else if s.pf.dDemote then .demoted
  else .refused

/-- Puts the links of a packet into the tag table. -/
def State.bindTags (s : State) (f r n link : Nat) (l : List (Nat × Desc)) : State :=
  match l with
  | [] => s
  | (t, d) :: rest =>
    (s.setTag t { fn := f, ring := r, pkt := n, link := link, desc := d }).bindTags f r n (link + 1) rest

/-- Issues a packet with its tags (R64, R92, R97, R102–R105). -/
def State.startPacket (s : State) (f r : Nat) (p : Packet) : State :=
  let n := s.sq.nextFlight
  let tk := s.takeTags s.freeTags p.links.length
  let tags := tk.1
  let s : State := tk.2.journalIssue f r p
  let now := s.po.tm.toNat
  let deadline := now + p.deadline.toNat * 1000
  let isD := decide (p.cls = .d)
  let adm : Admission := if isD then s.admission f p deadline else .demoted
  let base : Flight := {
    fn := f, ring := r, head := p.head, user := p.user, event := p.event, cls := p.cls, prio := p.prio,
    deadline := BitVec.ofNat 64 deadline, dated := isD, tags := tags,
    profile := s.pf.current, resCipher := s.reserve .cipher, resDigest := s.reserve .digest }
  let fl : Flight := if isD then
      match adm with
      | .admitted => { base with admitted := true }
      | .demoted => { base with cls := .p, prio := 7 }
      | .refused => base
    else base
  let used := s.sq.tags.length + tags.length
  let s := { s with sq := { s.sq with
    nextFlight := n + 1,
    admitted := if isD && decide (adm = Admission.admitted) then satAdd s.sq.admitted 1 else s.sq.admitted,
    refused := if isD && decide (adm ≠ Admission.admitted) then satAdd s.sq.refused 1 else s.sq.refused,
    highWater := BitVec.ofNat 15 (max s.sq.highWater.toNat used) } }
  let s := s.modRing r (fun x => { x with reserved := x.reserved + tags.length })
  let s := (s.setFlight n fl).bindTags f r n 0 (tags.zip p.links)
  if isD && decide (adm = .refused) then (tags.foldl (fun s t => s.endLink t .overload 0 0) s).packetEnd n
  else (s.enqueue (tags.headD 0)).schedule

/-- A malformed packet acts once every packet before it has been issued (R75). -/
def State.badActs (s : State) (f r : Nat) : State :=
  let x := s.ring r
  if x.ready.isEmpty && decide (x.bad ≠ 0) then s.malformed f r x.issuePos x.bad.toNat else s

/-- The next packet of ring `r`, with its function, where everything but a free tag lets it be issued (R33, R64). -/
def State.tagReady (s : State) (r : Nat) : Option (Nat × Packet) :=
  match s.ringOwner r, (s.ring r).ready with
  | some f, p :: _ =>
    let n := p.links.length
    let q := (s.fn f).entry.tagQuota.toNat
    if s.ringLive f r && !s.stopped 0x00A && (s.ring r).roomFor n && (decide (q = 0) || decide ((s.tagsOf f).length + n ≤ q))
    then some (f, p) else none
  | _, _ => none

/-- Ring `r` begins to wait for free tags, behind the rings that wait (R97). -/
def State.waitTags (s : State) (r : Nat) : State :=
  { s with sq := { s.sq with tagWait := addSet s.sq.tagWait r } }

/-- Another ring that could take free tags has waited for them longer (R97). -/
def State.tagsClaimed (s : State) (r : Nat) : Bool :=
  (s.sq.tagWait.takeWhile (fun w => decide (w ≠ r))).any (fun w => (s.tagReady w).isSome)

/-- The ring manager issues the next well-formed packet of a ring, if R64 lets it; rings that wait for free tags take them
in first-come order (R97). -/
def State.issueNext (s : State) (r : Nat) : State :=
  match s.ringOwner r with
  | none => s
  | some f =>
    let x := s.ring r
    match x.ready with
    | [] => s
    | p :: _ =>
      let n := p.links.length
      let q := (s.fn f).entry.tagQuota.toNat
      if s.ringLive f r = false ∨ x.roomFor n = false ∨ s.stopped 0x00A then s
      else if q ≠ 0 ∧ q < n then
        ((((s.issuePast f r p).journalIssue f r p).refusePacket f r p 0 p.links).fetch f r).badActs f r
      else if q ≠ 0 ∧ q < (s.tagsOf f).length + n then s
      else if 16384 < s.sq.tags.length + n ∨ s.tagsClaimed r then s.waitTags r
      else
        let s := { s with sq := { s.sq with tagWait := s.sq.tagWait.erase r } }
        (((s.issuePast f r p).startPacket f r p).fetch f r).badActs f r

end Sys2Proof.Machine
end

