-- ==== Sys2Proof/Machine/Verdicts.lean ====
section
/-! DEFINITION. Verdicts of the stream ports, the stages of their ingress FIFOs, and how frames get, keep and lose their tag
units (05_stream_verifier.md R118, R121–R124, R137, R141, R142). -/

namespace Sys2Proof.Machine

/-- Stream port `p`. -/
def State.sport (s : State) (p : Nat) : SPort := s.st.ports.get {} p

/-- Changes stream port `p`. -/
def State.modPort (s : State) (p : Nat) (f : SPort → SPort) : State :=
  { s with st := { s.st with ports := s.st.ports.modify {} p f } }

/-- Changes the stream verifier's part of the state. -/
def State.modSt (s : State) (f : StreamSt → StreamSt) : State := { s with st := f s.st }

/-! Verdicts (Table 5.2, R118) -/

/-- A verdict word before it is presented. -/
structure VWord where
  seq : Word
  code : Verdict
  extra : Nat := 0
  /-- A range word (R118, R125). -/
  range : Bool := false
  overcap : Bool := false
  replayed : Bool := false
  rolled : Bool := false
  slot : Nat := 0
  appid : Nat := 0
  time : DWord := 0
  /-- The key map entry used. -/
  km : Option KmEnt := none

/-- Table 5.2. -/
def VWord.word (v : VWord) : BitVec 128 :=
  BitVec.ofNat 128 (v.seq.toNat + v.code.code * 2 ^ 32 + b2n v.overcap * 2 ^ 36 + b2n v.replayed * 2 ^ 37 +
    b2n v.rolled * 2 ^ 38 + v.extra * 2 ^ 40 + v.slot * 2 ^ 64 + v.appid * 2 ^ 96)

/-- The VERDICT record of a word (Table 2.8, R118): to the entry's function by REC while it is ENABLED (Table 2.4), or to
function 0. -/
def State.verdictRecord (s : State) (p : Nat) (v : VWord) : State :=
  let slot := if v.range then 0x80000000 + v.extra else v.slot
  let d := [BitVec.ofNat 8 p, BitVec.ofNat 8 v.code.code] ++ leBytes 2 v.appid ++ leBytes 4 slot ++ leBytes 4 v.seq.toNat
  match v.km with
  | some k =>
    if (s.fn k.fn.toNat).state = .enabled ∧ (k.recMode = 2 ∨ (k.recMode = 1 ∧ v.code ≠ .pass)) then s.event k.fn.toNat 0x04 k.fn.toNat noRing d else s
  | none => if (s.sport p).recUnmatched then s.event 0 0x04 0 noRing d else s

/-- Presents a verdict word and counts its frames (R118, R139). -/
def State.emit (s : State) (p : Nat) (v : VWord) : State :=
  let n := v.extra + 1
  let s := s.modPort p (fun x => { x with
    out := (v.word, v.time) :: x.out,
    counts := x.counts.modify 0 v.code.code (fun c => satAdd c n),
    overcap := if v.overcap then satAdd x.overcap 1 else x.overcap,
    rolled := if v.rolled then satAdd x.rolled 1 else x.rolled })
  s.verdictRecord p v

/-- Range words over `count` frames from `first`, at most 65,536 a word (R125). -/
def State.emitRange (s : State) (p : Nat) (code : Verdict) (first : Word) (count : Nat) (time : DWord) : State :=
  (List.range ((count + 65535) / 65536)).foldl (fun s i =>
    s.emit p { seq := first + BitVec.ofNat 32 (i * 65536), code := code, extra := min 65536 (count - i * 65536) - 1,
                range := true, time := time }) s

/-- A frame's verdict that no tag decides. -/
def State.early (s : State) (p : Nat) (seq : Word) (code : Verdict) (x : Option Parsed) (k : Option KmEnt) (time : DWord) : State :=
  s.emit p { seq := seq, code := code, appid := (x.map (·.appid.toNat)).getD 0, slot := (k.map (·.slot.toNat)).getD 0,
             km := k, time := time }

/-! The ingress FIFO (R121–R123) -/

/-- 256-bit beats of a frame. -/
def frameBeats (n : Nat) : Nat := (n + 31) / 32

/-- Beats of a frame that the FIFO stores: none beyond the 288th (R126). -/
def storedBeats (n : Nat) : Nat := min (frameBeats n) 288

/-- Beats before the mark of a reader that has absorbed `read` beats: it moves after every 32 (R122). -/
def markAt (read : Nat) : Nat := read / 32 * 32

/-- The first stage that an item of the FIFO holds: of a frame the parser has not decided, its first beat, or for more than 64
beats its reader's mark; of a marker, the cut frame's first beat or the marker itself (R122, R125). -/
def FifoItem.hold : FifoItem → Nat
  | .frame f => f.pos + if storedBeats f.bytes.length ≤ 64 then 0 else markAt f.read
  | .gap g => g.pos

/-- The first stage that a frame with a key holds: the mark of the unit at work, its first beat while it waits for one, none
once the unit has absorbed all of it (R122; waiting frames: log 51). -/
def Job.hold (j : Job) : Option Nat :=
  if j.done then none else some (j.pos + markAt j.read)

/-- The release count: the oldest of the parser's position and the marks (R122). -/
def SPort.released (x : SPort) : Nat := (x.fifo.map (·.hold) ++ x.jobs.filterMap (·.hold)).foldl min x.written

/-- The counts that cross between the two sides, modulo 512 (R121). -/
def SPort.writeCount (x : SPort) : BitVec 9 := BitVec.ofNat 9 x.written
def SPort.releaseCount (x : SPort) : BitVec 9 := BitVec.ofNat 9 x.released

/-- Stages in use. -/
def SPort.occ (x : SPort) : Nat := (x.writeCount - x.releaseCount).toNat

/-- FULL at the write side (R121). -/
def SPort.full (x : SPort) : Bool := decide (255 ≤ x.occ)

/-- Compressions that a unit has performed once it has absorbed `read` beats: one for every 64 bytes. -/
def compressed (q read : Nat) : Nat := min q (read / 2)

/-- Compressions not yet performed for HMAC frames whose first beat has arrived (ST_PLOAD.OWED). -/
def SPort.owed (x : SPort) : Nat :=
  min 65535 ((x.fifo.map (fun i => match i with
    | .frame f => f.q - compressed f.q f.read
    | .gap _ => 0)).sum + (x.jobs.map (fun j => if j.done then 0 else j.q - compressed j.q j.read)).sum)

/-- High-water marks. -/
def SPort.mark (x : SPort) : SPort :=
  { x with occHwm := BitVec.ofNat 9 (max x.occHwm.toNat x.occ), owedHwm := BitVec.ofNat 16 (max x.owedHwm.toNat x.owed) }

/-! Tag units (R137, R141, R142) -/

/-- Port and number of a tag unit: 1–5 HMAC, 6–7 GHASH. -/
def tagUnit? (u : Nat) : Option (Nat × Nat) :=
  if 0x200 ≤ u ∧ u < 0x240 ∧ 1 ≤ u % 16 ∧ u % 16 ≤ 7 then some ((u - 0x200) / 16, u % 16) else none

/-- An HMAC form. -/
def isHmac (form : Nat) : Bool := decide (form ≤ 2)

/-- Tag units of a port for a form that are in service. -/
def State.tagUnits (s : State) (p : Nat) (hmac : Bool) : List Nat :=
  let base := 0x200 + 16 * p
  (if hmac then (List.range 5).map (base + 1 + ·) else [base + 6, base + 7]).filter (fun u => (s.unit u).role.inService)

/-- A unit falls free: it is the last to have become free. -/
def SPort.frees (x : SPort) (u : Nat) : SPort := { x with freed := x.freed.filter (· ≠ u) ++ [u] }

/-- Of the units, the one that became free first; one that has not worked yet before those that have (R137). -/
def SPort.firstFree (x : SPort) (units : List Nat) : Option Nat :=
  match units.find? (fun u => !x.freed.contains u) with
  | some u => some u
  | none => x.freed.find? (fun u => units.contains u)

/-- Gives waiting frames their units, in FIFO order (R137). -/
def State.assignUnits (s : State) (p : Nat) : State :=
  let x := s.sport p
  let r := x.jobs.foldl (fun (acc : List Job) (j : Job) =>
    if j.unit.isSome || j.done then acc ++ [j]
    else
      let busy := (acc ++ x.jobs).filterMap (·.unit)
      acc ++ [{ j with unit := x.firstFree ((s.tagUnits p (isHmac j.km.form.toNat)).filter (fun u => !busy.contains u)) }]) []
  s.modPort p (fun x => { x with jobs := r })

/-- What a reader has absorbed (R122): the unit at work on a frame with a key, or of the frame at the parser's position the
parser and the unit that hashes along. A unit that has absorbed the whole frame falls free. -/
def SPort.absorb (x : SPort) (m : Move) : SPort :=
  match x.jobs.find? (fun j => decide (j.seq = m.seq)) with
  | some j =>
    match j.unit with
    | none => x
    | some u =>
      let read := max j.read (min m.read j.beats)
      let put (j' : Job) : SPort := { x with jobs := x.jobs.map (fun i => if i.seq = m.seq then j' else i) }
      if read = j.beats then (put { j with read := read, unit := none, done := true }).frees u else put { j with read := read }
  | none =>
    match x.fifo with
    | .frame f :: r =>
      if f.seq = m.seq then { x with fifo := .frame { f with read := max f.read (min m.read (min (storedBeats f.bytes.length) (x.written - f.pos))) } :: r } else x
    | _ => x

/-- Frames are lost to a fault without a spare: NOT_CHECKED_REPAIR (Table 5.3). -/
def State.loseJobs (s : State) (p : Nat) (lost : Job → Bool) : State :=
  let js := (s.sport p).jobs.filter lost
  let s := s.modPort p (fun x => { x with jobs := x.jobs.filter (fun j => !lost j) })
  js.foldl (fun s j => s.early p j.seq .repair (some j.parsed) (some j.km) j.last) s

/-- A tag unit is fenced: the spare rewinds to the mark of the frame at work, with REPLAYED (R123, R141). Without a spare that
frame is lost, and with no unit of the kind left every waiting one (R142, Table 5.3). The chaining state that the spare loads
is that of the bytes before the mark (log 130). -/
def State.moveJobs (s : State) (u : Nat) (taker : Option Nat) : State :=
  match tagUnit? u with
  | none => s
  | some (p, n) =>
    let at' (j : Job) : Bool := decide (j.unit = some u)
    let s := match taker with
      | some v =>
        s.modPort p (fun x => { x with
          jobs := x.jobs.map (fun j => if at' j then { j with unit := some v, read := markAt j.read, replayed := true } else j),
          rewinds := if x.jobs.any at' then satAdd x.rewinds 1 else x.rewinds })
      | none => s.loseJobs p at'
    let hmac := decide (n ≤ 5)
    let s := if s.tagUnits p hmac = [] then s.loseJobs p (fun j => !j.done && (isHmac j.km.form.toNat == hmac)) else s
    s.assignUnits p

/-- A tag unit has come into service: it is free from now on, and waiting frames get their units (R137). -/
def State.unitJoins (s : State) (u : Nat) : State :=
  match tagUnit? u with
  | none => s
  | some (p, _) => (s.modPort p (fun x => x.frees u)).assignUnits p

end Sys2Proof.Machine
end

