-- ==== Sys2Proof/Machine/Repair.lean ====
section
/-! DEFINITION. Fencing, replay, pools, retirement and the return of units that have spares (R19–R22, R141, R142, R164,
R190, R208, R337–R340). -/

namespace Sys2Proof.Machine

/-! Pools (Table 13.2) -/

/-- The pool source of a unit that has spares or a twin. -/
def poolOf (u : Nat) : Option Nat :=
  match unitKind u with
  | .cipher => some 0x300
  | .digest => some 0x301
  | .modular => some 0x302
  | .ntt => some 0x303
  | _ =>
    if u = 0x010 ∨ u = 0x011 then some 0x304
    else match tagUnit? u with
      | some (p, n) => some (if n ≤ 5 then 0x310 + 2 * p else 0x311 + 2 * p)
      | none => none

/-- The units of a pool. -/
def poolUnits (p : Nat) : List Nat :=
  match p with
  | 0x300 => Kind.cipher.units
  | 0x301 => Kind.digest.units
  | 0x302 => Kind.modular.units
  | 0x303 => Kind.ntt.units
  | 0x304 => [0x010, 0x011]
  | n =>
    let base := 0x200 + (n - 0x310) / 2 * 16
    if n % 2 = 0 then (List.range 5).map (base + 1 + ·) else [base + 6, base + 7]

/-- Working units of a pool in the profile in force (R337). -/
def poolCount (p : Nat) (profile : BitVec 2) : Nat :=
  match p with
  | 0x300 => profileCount .cipher profile
  | 0x301 => profileCount .digest profile
  | 0x302 => 5
  | 0x303 | 0x304 => 2
  | n => if n % 2 = 0 then 4 else 1

/-- Working and spare units of a pool: a unit gated in LEAN keeps its place (log 52). -/
def State.poolWorking (s : State) (p : Nat) : Nat :=
  ((poolUnits p).filter (fun u => (s.unit u).role.inService || (decide ((s.unit u).role = .gated) && !(s.unit u).gatedSpare))).length
def State.poolSpares (s : State) (p : Nat) : Nat :=
  ((poolUnits p).filter (fun u => decide ((s.unit u).role = .spare) || (s.unit u).gatedSpare)).length

/-- A pool is not degraded: a spare is ready, or every unit works. -/
def State.poolReady (s : State) (p : Nat) : Bool :=
  decide (0 < s.poolSpares p) || decide (s.poolWorking p = (poolUnits p).length)

/-- The CAPACITY event record (Table 2.8). -/
def State.capacity (s : State) (src working spares : Nat) : State :=
  s.event 0 0x0C 0 noRing (leBytes 2 src ++ [BitVec.ofNat 8 working, BitVec.ofNat 8 spares])

/-- A change of a pool's units: CAPACITY on a change of its counts, then DEGRADED, EXHAUSTED or RESTORED (R340). `fault`: a
fault or a retirement makes the change. -/
def State.poolStep (s : State) (p : Nat) (fault : Bool) (f : State → State) : State :=
  let w0 := s.poolWorking p
  let sp0 := s.poolSpares p
  let r0 := s.poolReady p
  let s := f s
  let w := s.poolWorking p
  let sp := s.poolSpares p
  let s := if w = w0 ∧ sp = sp0 then s else s.capacity p w sp
  let s := if fault && !s.poolReady p then s.raise p 0x08 0 else s
  let s := if w = 0 ∧ w0 ≠ 0 then s.raise p 0x09 0 else s
  if !r0 && s.poolReady p then s.raise p 0x0A 0 else s

/-! Domains -/

/-- Switches a domain off, or asks for it again, for a reason. -/
def State.domOff (s : State) (d : Nat) (st : DomState) (why : DomWhy) : State :=
  s.setDom d { s.dom d with state := st, req := false, why := why, late := false }

/-- Asks for a domain: the ramp waits for its place (R379). -/
def State.domWants (s : State) (d : Nat) (why : DomWhy) : State := (s.setDom d { s.dom d with why := why }).pump

/-! Fencing -/

/-- Counts a replay (CL_REPLAYS, DL_REPLAYS, PK_REPLAYS). -/
def State.countReplay (s : State) (u : Nat) : State :=
  match unitKind u with
  | .cipher => { s with cl := { s.cl with replays := satAdd s.cl.replays 1 } }
  | .digest => { s with dg := { s.dg with replays := satAdd s.dg.replays 1 } }
  | .modular | .ntt => { s with pk := { s.pk with replays := satAdd s.pk.replays 1 } }
  | _ => s

/-- The entries of a fenced digest lane move to the taking lane; without one they spill, or are lost while spilling is
disabled (R190, R191). -/
def State.moveCtxs (s : State) (u : Nat) (taker : Option Nat) : State :=
  match taker with
  | some v =>
    s.modDg (fun d => { d with ctxs := d.ctxs.map (fun p => match p.2.place with
      | .lane w => if w = u then (p.1, { p.2 with place := .lane v }) else p
      | .spilling w c => if w = u then (p.1, { p.2 with place := .spilling v c }) else p
      | _ => p) })
  | none =>
    if s.dg.spillEn then
      (s.dg.ctxs.filter (fun p => decide (p.2.place = .lane u))).foldl (fun s p =>
        if (s.dctx p.1).isNone then s
        else
          let ctr := s.dg.spillCtr
          let s := s.modDg (fun d => { d with
            spillCtr := ctr + 1,
            ctxs := d.ctxs.map (fun q => if q.1 = p.1 then (q.1, { q.2 with place := .spilling u ctr }) else q) })
          let (ok, s) := s.fabWrite (ctxWho p.1) 0 (s.dg.place p.1) (s.ctxRecord p.1 p.2 ctr) false
          if ok then s else s.clearLane u) s
    else s.clearLane u

/-- Entries of a fenced digest lane that fail their ECC are cleared (R190, R191); which ones fail is a free value (log 142). -/
def State.dropBadEntries (s : State) (u : Nat) : State :=
  ((s.dg.ctxs.filter (fun p => decide (p.2.place.lane? = some u))).map (·.1)).foldl (fun s k =>
    let (i, s) := s.draw
    if Config.entryFails i then (s.clearCtxs (fun j _ => decide (j = k))).2 else s) s

/-- The up signal of a fabric port falls: its channels are at their reset values, credits and waiting transfers gone (R398), and
the TIDs of its transactions that timed out are free (R403). -/
def State.portFalls (s : State) (b : Bool) : State :=
  let own : List Channel := if b then [.fpbReq, .fpbWd, .fpbRd, .fpbRsp] else [.fpaReq, .fpaWd, .fpaRd, .fpaRsp]
  let po := { s.po with
    chans := own.foldl (fun l c => l.set {} (chanNo c) {}) s.po.chans, late := s.po.late.filter (fun x => x.portB != b) }
  { s with po := if b then { po with fpbUp := false } else { po with fpaUp := false } }

/-- A fabric port goes out of service: what it had issued is issued again on the other port, in order (R22, R399); a transaction
that waits for its retry timer is sent there when that expires (R403), and so is one that the region table would now deny: it
meets the check of its new issue then (R349, log 154). -/
def State.fencePort (s : State) (b : Bool) : State :=
  let s := s.portFalls b
  let moved := s.po.txns.filter (fun q => decide (q.portB = b) && !q.backoff)
  if s.fc.halted then { s with po := { s.po with txns := s.po.txns.filter (fun q => !decide (q.portB = b)) } }
  else
    let may (q : FabReq) : Bool := s.allowed q.fn q.addr q.len q.write
    (moved.filter may).foldl (fun s q => s.transmit { q with portB := !b } true)
      { s with po := { s.po with txns := s.po.txns.map (fun q =>
          if q.portB = b then { q with portB := !b, backoff := q.backoff || !may q } else q) } }

/-- The spare of a pool, or a gated one that is woken for the fault (R338, R384). -/
def State.takerOf (s : State) (p : Nat) : Option Nat := (poolUnits p).find? (fun u => decide ((s.unit u).role = .spare))

/-- A gated spare that a fault calls for: it wakes and runs one proofing cycle (R384). -/
def State.callSpare (s : State) (p : Nat) : State :=
  match (poolUnits p).find? (fun u => decide ((s.unit u).role = .gated) && (s.unit u).gatedSpare) with
  | none => s
  | some u =>
    match unitDomain u with
    | none => s
    | some d => (s.modUnit u (fun x => { x with need := 1 })).domWants d .wake

/-- The replayed link starts on the taking unit: the spare, or for an NTT core the other core, whose own link is suspended
(R164, R190, R208). -/
def State.takeOver (s : State) (u t : Nat) (taker : Option Nat) : State :=
  let k := unitKind u
  let other : Option Nat := if k = .ntt then Kind.ntt.units.find? (fun v => decide (v ≠ u) && (s.unit v).role.inService) else taker
  match other, s.tag? t with
  | some v, some e =>
    let s := match (s.unit v).busy with
      | some t' => s.requeue t' false
      | none => s
    s.startLink k t v e
  | _, _ => s

/-- The lane that a fault in BULK drains, where the spares work in the pool: it hands its own link on at its next boundary,
and proofs 50 times before it runs the replayed link (R166, R346; which lane: log 157). -/
def State.drained (s : State) (u : Nat) : Option Nat :=
  let k := unitKind u
  if (k = .cipher ∨ k = .digest) ∧ s.pf.current = 1 then
    k.units.reverse.find? (fun v => decide (v ≠ u) && (s.unit v).role.inService)
  else none

/-- The replayed link of a fenced lane goes to the lane that BULK drains. -/
def State.drainTo (s : State) (u t v : Nat) : State :=
  (s.modUnit v (fun x => { x with clean := 0, need := 50 })).takeOver u t (some v)

/-- Fences a unit: it takes no new work, its link is rerouted with REPLAYED, the spare takes its place (R19, R20). Where no
spare is ready, the link of a modular core goes on from its impression on the next core that falls free, with REPLAYED, as
R166 and R191 have it for lanes; R21 and R208 name no outcome for that link (DESIGN CHOICE, log 141). -/
def State.fenceUnit (s : State) (u : Nat) : State :=
  let x := s.unit u
  match poolOf u with
  | none => s
  | some p =>
    if x.role.inService || decide (x.role = .spare) then
      let s := s.poolStep p true (fun s =>
        let taker := if x.role.inService then s.takerOf p else none
        let s := match x.busy with
          | some t => ((s.dropDctx t).requeue t true).countReplay u
          | none => s
        let s := s.modUnit u (fun x => { x with role := .fenced, busy := none, clean := 0, gatedSpare := false, faults := satAdd x.faults 1 })
        let s := match taker with
          | some v => s.modUnit v (fun x => { x with role := .working })
          | none => if x.role.inService then s.callSpare p else s
        let s := s.renewReserve
        let s := if u = 0x010 ∨ u = 0x011 then s.fencePort (decide (u = 0x011)) else s
        let s := if unitKind u = .digest then (s.dropBadEntries u).moveCtxs u taker else s
        let s := s.moveJobs u taker
        match x.busy, taker, s.drained u with
        | some t, none, some v => s.drainTo u t v
        | some t, _, _ => s.takeOver u t taker
        | none, _, _ => s)
      s.schedule
    else s

/-- Retires a unit for good (R337, R339, R343). -/
def State.retireUnit (s : State) (u : Nat) : State :=
  let s := { s with fc := { s.fc with retired := addSet s.fc.retired u } }
  let s := s.raise u 0x07 0
  let off (s : State) : State := match unitDomain u with
    | some d => if (tagUnit? u).isSome then s else s.domOff d .off .retired
    | none => s
  match poolOf u with
  | some p => s.poolStep p true (fun s => off (s.modUnit u (fun x => { x with role := .retired, gatedSpare := false })))
  | none => off (s.modUnit u (fun x => { x with role := .retired, gatedSpare := false }))

/-- A unit proofs: `need` clean cycles bring it into service. -/
def State.beginProof (s : State) (u need : Nat) : State :=
  s.modUnit u (fun x => { x with role := .proofing, clean := 0, need := need })

/-- Step 3 of R337: a tag unit is reset in place, any other unit's domain is power-cycled, while Burin is in RUN. -/
def State.startRepair (s : State) (u : Nat) : State :=
  if decide ((s.unit u).role = .fenced) && decide (s.bu.state = .run) && !s.fc.halted then
    if (tagUnit? u).isSome then s.beginProof u 1000
    else match unitDomain u with
      | some d => s.domWants d .restart
      | none => s
  else s

/-- A unit enters service: as a working unit while the pool works below the profile's count, else as a spare (R337). -/
def State.joinUnit (s : State) (u : Nat) (announce : Bool) : State :=
  let enter (role : Role) (s : State) : State :=
    s.modUnit u (fun x => { x with
      role := role, clean := 0, busy := none, gatedSpare := false, idleSince := s.po.tm,
      rejoined := if announce then some s.po.tm else x.rejoined })
  let s := match poolOf u with
    | none => enter .working s
    | some p => s.poolStep p false (fun s =>
        let s := enter (if s.poolWorking p < poolCount p s.pf.current then .working else .spare) s
        if u = 0x010 then { s with po := { s.po with fpaUp := true } }
        else if u = 0x011 then { s with po := { s.po with fpbUp := true } }
        else s.unitJoins u)
  let s := if announce then s.raise u 0x0B 0 else s
  s.renewReserve.schedule

/-- A message of a fencing kind at L3 or higher leads a unit with spares to repair, or to retirement when it rejoined
within REJOIN_MS (R337, R339). -/
def State.repairUnit (s : State) (u : Nat) : State :=
  let recent := match (s.unit u).rejoined with
    | some t => decide (s.po.tm.toNat < t.toNat + s.fc.rejoinMs.toNat * 1000000)
    | none => false
  let s := s.fenceUnit u
  if (s.unit u).role = .fenced then (if recent then s.retireUnit u else s.startRepair u) else s

end Sys2Proof.Machine
end

