-- ==== Sys2Proof/Machine/Rng.lean ====
section
/-! DEFINITION. The random number generator: entropy, instantiation, requests, reseeds, health failures
(08_public_key.md R216–R220). -/

namespace Sys2Proof.Machine

/-- Changes the random number generator. -/
def State.modRng (s : State) (f : Rng → Rng) : State := { s with pk := { s.pk with rng := f s.pk.rng } }

/-- A transition of STATE: while RAW_MODE is set STATE is RAW, and the transition happens under it (R220). -/
def Rng.enter (g : Rng) (st : RngState) : Rng := if g.rawMode then { g with state := .raw, under := st } else { g with state := st }

/-- STATE, or the one that RAW covers. -/
def Rng.current (g : Rng) : RngState := if g.rawMode then g.under else g.state

/-- Takes `n` bytes from the entropy source: free values (log 3). -/
def State.entropy (s : State) (n : Nat) : List Byte × State :=
  ((List.range n).map (fun i => Config.entropyByte (s.freeCount + i)), { s with freeCount := s.freeCount + n })

/-- The unit identity's 8 bytes: lot, wafer, die x, die y, instance (Table 14.8 UNIT). -/
def identityBytes (i : Identity) : List Byte :=
  leBytes 4 i.lot.toNat ++ leBytes 1 i.wafer.toNat ++ leBytes 1 i.diex.toNat ++ leBytes 1 i.diey.toNat ++ leBytes 1 i.inst.toNat

/-- The personalization string: unit identity, then boot count (R217). -/
def State.personalization (s : State) : List Byte := identityBytes s.po.ident ++ leBytes 4 s.d0.bootCount.toNat

/-- Instantiates the DRBG from 768 pool bits (R217). -/
def State.rngInstantiate (s : State) : State :=
  let (e, s) := s.entropy 96
  let p := s.personalization
  s.modRng (fun g => { g with
    state := .ready, drbg := drbgInstantiate e p, pool := g.pool - 768, requests := 0, reseedAt := s.po.tm,
    reseed := false, reseeding := false, restart := false })

/-- Instantiates from the reserve seed, which is then to be refilled; the source starts afresh (R216, R219). -/
def State.rngFromReserve (s : State) : State :=
  let p := s.personalization
  s.modRng (fun g => { g with
    state := .ready, drbg := drbgInstantiate g.reserve p, reserve := [], requests := 0, reseedAt := s.po.tm,
    reseed := false, reseeding := false, pool := 0, passed := 0 })

/-- The DRBG fills its reserve seed with 768 pool bits when it can (R219). -/
def State.rngReserve (s : State) : State :=
  let g := s.pk.rng
  if g.state = .ready ∧ g.reserve.isEmpty ∧ g.reseeding = false ∧ 768 ≤ g.pool then
    let (r, s) := s.entropy 96
    s.modRng (fun g => { g with reserve := r, pool := g.pool - 768 })
  else s

/-- The DRBG takes 512 pool bits and reseeds (R217). -/
def State.reseedNow (s : State) : State :=
  let (e, s) := s.entropy 64
  s.modRng (fun g => { g with
    drbg := g.drbg.reseed e, pool := g.pool - 512, requests := 0, reseedAt := s.po.tm, reseeds := satAdd g.reseeds 1,
    reseed := false, reseeding := false })

/-- What becomes of a request: its bytes, a wait, or an end (R217–R219). -/
inductive Drawn where
  | got (b : List Byte)
  | wait
  | fail

/-- One request of `n` bytes. It fails in ERROR, STARTUP and OFF, waits in REPAIR and RAW and during a reseed, and
reseeds first when it would exceed 2^REQ_LOG2 requests or carries PR (R217–R220). -/
def State.request (s : State) (n : Nat) (pr : Bool := false) : Drawn × State :=
  let g := s.pk.rng
  if 0 < n ∧ n ≤ g.give.length then
    (.got (g.give.take n), s.modRng (fun g => { g with give := g.give.drop n, taken := g.taken ++ g.give.take n }))
  else match g.state with
  | .error | .startup | .off => (.fail, s)
  | .repair | .raw => (.wait, s)
  | .ready =>
    let due := pr || decide (2 ^ g.reqLog2.toNat ≤ g.requests)
    if g.hold || g.reseeding || (due && decide (g.pool < 512)) then (.wait, s)
    else
      let s := if due then s.reseedNow else s
      let (b, d) := s.pk.rng.drbg.generate n
      (.got b, s.modRng (fun g => { g with drbg := d, requests := g.requests + 1, taken := g.taken ++ b }))

/-- The sequence of requests that a link makes, as one: all or none. -/
def State.requests (s : State) (ns : List Nat) : Drawn × State :=
  match ns with
  | [] => (.got [], s)
  | n :: r =>
    match s.request n with
    | (.got b, s1) =>
      match s1.requests r with
      | (.got c, s2) => (.got (b ++ c), s2)
      | (x, _) => (x, s)
    | (x, _) => (x, s)

/-- The DRBG state and the reserve seed are zeroised (R218). -/
def Rng.zeroise (g : Rng) : Rng := { g with pool := 0, drbg := {}, reserve := [], reseeding := false }

/-- A health test fails: everything is discarded and D9 restarts; the third failure within 1 s leaves STATE at ERROR
until RESTART (R218). -/
def State.healthFail (s : State) (adaptive : Bool) : State :=
  let now := s.po.tm
  let times := (now :: s.pk.rng.failTimes).take 3
  let stuck := decide (times.length = 3) && decide (now.toNat < (times.getD 2 now).toNat + 1000000000)
  let s := s.modRng (fun g => { g.zeroise.enter .error with
    lastFail := adaptive, healthFails := satAdd g.healthFails 1, failTimes := times, stuck := stuck })
  s.raise 0x00B 0x25 0

/-- Samples pass their tests, 50 million a second: first the 1,024 of the start-up tests, then those that the pool takes
(R216, R218; log 33). -/
def Rng.fill (g : Rng) (dtNs : Nat) : Rng :=
  match g.state with
  | .ready | .startup =>
    let tested := min (1024 - g.passed) (dtNs / 20)
    { g with passed := g.passed + tested, pool := min 2048 (g.pool + (dtNs / 20 - tested)) }
  | _ => g

end Sys2Proof.Machine
end

