-- ==== Sys2Proof/Machine/LinkRun.lean ====
section
/-! DEFINITION. How a link runs on its unit: its pre-start checks in the order of R84, its chain buffers, its slot's
counts, its reads and its output (03_rings.md R76–R78, R84; 04_chains.md R90–R95; 06_cipher_lanes.md R153–R157;
10_plate_vault.md R250–R252, R264). One runner serves every opcode; an opcode gives it a `Plan`. -/

namespace Sys2Proof.Machine

/-- A running link and what the host's memory holds for it. -/
structure Link where
  tag : Nat
  e : TagEnt
  unit : Nat
  /-- Opcode, function, and whether its ring is an authority ring. -/
  op : Nat
  fn : Nat
  auth : Bool
  /-- Input length, and whether the declared length agrees with the previous link's output (R78). -/
  n : Nat
  chainOk : Bool
  /-- Tag of the link whose chained output is the input. -/
  prev : Option Nat
  /-- The PARAM_LEN bytes of the parameter block. -/
  param : List Byte
  /-- The committed mark it goes on from, and the bytes of output written before it. -/
  mark : Option Mark
  wrote : Nat
  data : LinkData

/-- PARAM_LEN, AUX, OPT. -/
def Link.paramLen (l : Link) : Nat := l.e.desc.paramLen.toNat
def Link.aux (l : Link) : Nat := l.e.desc.aux.toNat
def Link.opt (l : Link) : Nat := l.e.desc.opt.toNat
def Link.slot (l : Link) : Nat := l.e.desc.slot.toNat
def Link.outLen (l : Link) : Nat := l.e.desc.outLen.toNat

/-- Longest parameter block an opcode reads, rounded up: a longer PARAM_LEN is never read (R84). The longest is that of an
8-level HSS signature of w = 1 and n = 32, below 75,008 bytes (R196). -/
def paramMax : Nat := 131072

/-- The link that holds tag `t`, if it runs on a unit and its opcode is one of `p`. -/
def State.link? (s : State) (t : Nat) (d : LinkData) (p : Nat → Bool) : Option Link :=
  match s.tag? t with
  | none => none
  | some e =>
    match e.phase with
    | .running u =>
      let op := e.desc.opcode.toNat
      if !p op || s.fc.halted || s.stopped u || s.unproofed u then none
      else
        let prev := if e.desc.inChain then (s.flight e.pkt).tags[e.link - 1]? else none
        let prevOut := ((prev.bind (fun q => s.tag? q)).map (·.outBytes)).getD 0
        let own := decide (e.desc.inLen ≠ inherit)
        let k := e.desc.paramLen.toNat
        some {
          tag := t, e := e, unit := u, op := op, fn := e.fn, auth := isAuthority e.fn (s.localRing e.fn e.ring),
          n := if own then e.desc.inLen.toNat else prevOut,
          chainOk := !(e.desc.inChain && own) || decide (e.desc.inLen.toNat = prevOut), prev := prev,
          param := match e.mark with
            | some m => m.param
            | none => if paramMax < k then [] else fit k (if e.desc.paramInline then e.desc.inlined else d.param),
          mark := e.mark, wrote := (e.mark.map (·.wrote)).getD 0, data := d }
    | _ => none

/-- How an opcode's work ends. -/
inductive Ended where
  /-- With a failure: no output, RESULT 0. -/
  | fail (st : Status)
  /-- With a failure after some output has been written (R236). -/
  | failAfter (st : Status) (out : List Byte)
  /-- With a failure that carries a RESULT (R213). -/
  | failWith (st : Status) (result : DWord)
  /-- With OK, its output and RESULT. -/
  | good (out : List Byte) (result : DWord)
  /-- With OK when the records it writes have committed: slots with their new contents, and the registered slots
  (R176, R255, R267). -/
  | writes (slots : List (Nat × SlotEnt)) (regs : Option (Tab RegSlot)) (out : List Byte) (result : DWord)
  /-- Not yet: the DRBG makes the request wait (R217, R219). -/
  | later

/-- The IV that R155 allocated, and its invocation field. -/
structure Iv where
  iv : List Byte := []
  field : Nat := 0

/-- What an opcode asks and does. The checks stand in the order of R84; `Option`s are absent where the opcode has no
such part. -/
structure Plan where
  /-- Bytes of the parameter block that are read. -/
  paramRead : Nat := 0
  unsupported : Bool := false
  slot : Option (Nat × SlotUse) := none
  /-- The slot to fill, with its TEMPLATE's attributes (R264). -/
  dest : Option (Nat × Attr) := none
  /-- A second slot that must pass its own checks (WRAP_SLOT). -/
  wrap : Option (Nat × SlotUse) := none
  denied : SlotEnt → Bool := fun _ => false
  badLen : SlotEnt → Bool := fun _ => false
  /-- The produced length, where it is known before the start (R77). -/
  out : SlotEnt → Nat := fun _ => 0
  /-- IV_MODE of a link that allocates (R155). -/
  alloc : Option Nat := none
  /-- Bytes of input of a pass from one mark to the next; 0 for an opcode that replays from its start (R161, R164,
  R189). -/
  segment : Nat := 0
  /-- A second pass follows: over the input read again (R159), or the output of SHAKE (R189). -/
  twoPass : Bool := false
  /-- The second pass reads the input again (R159). -/
  secondInput : Bool := false
  /-- Output written so far, given the pass, the bytes read in it and the position in it (R158, R161). -/
  sofar : SlotEnt → Iv → Nat → List Byte → Nat → List Byte := fun _ _ _ _ _ => []
  /-- The unfinished hash after some input, which a suspended digest link saves (R180). -/
  ctx : State → SlotEnt → List Byte → DCtx := fun _ _ _ => {}
  /-- The check before release that an outcome has, and what it finds: none where the outcome has none (R204). -/
  check : SlotEnt → List Byte → Ended → Option Bool := fun _ _ _ => none
  /-- A position counts bytes of output in place of bytes of input (R238). -/
  byOutput : Bool := false
  /-- The work, given the slot, the second slot, the allocated IV and the input. -/
  body : State → SlotEnt → SlotEnt → Iv → List Byte → Ended × State

/-! Checks -/

/-- Outcome of the slot part of the pre-start checks. -/
inductive Pre where
  | deny (st : Status)
  | wait (slot : Nat)
  | ok (e w : SlotEnt)

/-- A further link fills this slot (R264, R255). -/
def State.beingFilled (s : State) (t slot : Nat) : Bool :=
  s.sq.tags.any (fun p => decide (p.1 ≠ t) && decide (p.2.fills = some slot)) ||
  s.vt.batches.any (fun b => b.slots.any (fun p => decide (p.1 = slot) && decide (p.2.attr.binding ≠ 0)))

/-- The slot window of a function (PV_WIN). -/
def State.inWindow (s : State) (fn slot : Nat) : Bool :=
  let w := s.vt.wins.get (0, 0) fn
  inRange w.1.toNat w.2.toNat slot

/-- A binding whose key sits in a blob (Table 10.5): RSA, and ML-KEM or ML-DSA public keys. -/
def blobBinding (a : Attr) : Bool :=
  decide (a.binding = 0x23) || (a.publicOnly && decide (a.binding = 0x24 ∨ a.binding = 0x25))

/-- The creation rules of R264 for a DEST_SLOT. -/
def State.destCheck (s : State) (t fn slot : Nat) (a : Attr) : Pre :=
  if slot < 256 ∨ (fn ≠ 0 ∧ (s.inWindow fn slot = false ∨ a.owner ≠ fn)) ∨
      (blobBinding a ∧ (8192 ≤ slot ∨ s.vt.blobValid = false)) ∨ s.beingFilled t slot then .deny .keyDenied
  else
    match s.look slot with
    | .free => .ok {} {}
    | .miss => .wait slot
    | _ => .deny .keyDenied

/-- The checks of one slot as a `Pre`. -/
def State.preSlot (s : State) (l : Link) (x : Option (Nat × SlotUse)) : Pre :=
  match x with
  | none => .ok {} {}
  | some (n, u) =>
    match s.checkSlot n l.fn l.auth u with
    | .deny st => .deny st
    | .wait => .wait n
    | .ok e => .ok e {}

/-- The first of several checks that fails, KEY_DENIED going before KEY_LIMIT (R84), or the first wait. -/
def worse (a b : Pre) : Pre :=
  match a, b with
  | .deny .keyLimit, .deny .keyDenied => .deny .keyDenied
  | .deny st, _ => .deny st
  | .ok _ _, .deny st => .deny st
  | .ok _ _, .wait n => .wait n
  | .wait n, _ => .wait n
  | .ok e _, .ok w _ => .ok e w

/-- KEY_DENIED before KEY_LIMIT before LEN_MISMATCH (R84); a slot that must be read first makes the link wait. A link whose
checks have passed before keeps what its slot held then (R167). -/
def State.preChecks (s : State) (l : Link) (p : Plan) : Pre :=
  let lens (e w : SlotEnt) : Pre :=
    if !l.chainOk || p.badLen e || decide (l.outLen < p.out e) then .deny .lenMismatch else .ok e w
  let wrap := s.preSlot l p.wrap
  match l.e.passed with
  | some e =>
    match wrap with
    | .ok w _ => lens e w
    | x => x
  | none =>
    let dest : Pre := match p.dest with
      | none => .ok {} {}
      | some (n, a) => s.destCheck l.tag l.fn n a
    let own : Pre := match s.preSlot l p.slot with
      | .ok e x => if p.denied e then .deny .keyDenied else .ok e x
      | .deny .keyLimit =>
        match p.slot with
        | none => .deny .keyLimit
        | some (n, _) => if p.denied ((assoc s.vt.slots n).getD {}) then .deny .keyDenied else .deny .keyLimit
      | x => x
    match worse (worse own dest) wrap with
    | .ok e w => lens e w
    | x => x

/-! Chain buffers (R93–R95) -/

/-- Units of 64 KiB in the chain spill area. -/
def State.spillUnitCount (s : State) : Nat := if s.sq.spillEn then s.sq.spillSize.toNat * 32 else 0

/-- Units of the spill area that no reservation holds. -/
def State.freeSpill (s : State) : List Nat :=
  let used := (s.sq.tags.map (fun p => p.2.spillUnits)).flatten
  (List.range s.spillUnitCount).filter (fun u => !used.contains u)

/-- Reserves the storage for a link's chained output; none when neither store can take it (R93). -/
def State.reserveOut (s : State) (t : Nat) : Option State :=
  match s.tag? t with
  | none => some s
  | some e =>
    let n := e.desc.outLen.toNat
    if !e.desc.outChain || decide (e.blocks ≠ 0) || !e.spillUnits.isEmpty then some s
    else if n ≤ 2 ^ 21 ∧ s.sq.chUsed + (n + 4095) / 4096 ≤ 512 then
      let b := (n + 4095) / 4096
      some (({ s with sq := { s.sq with chUsed := s.sq.chUsed + b } }).setTag t { e with blocks := b })
    else
      let free := s.freeSpill
      let k := (n + 65535) / 65536
      if free.length < k then none else some (s.setTag t { e with spillUnits := free.take k })

/-- Address of offset `o` of a spilled output. -/
def State.spillAddr (s : State) (units : List Nat) (o : Nat) : Nat :=
  s.sq.spillAddr.toNat * 2 ^ 21 + units.getD (o / 65536) 0 * 65536 + o % 65536

/-- The nonce of a 4 KiB unit of spilled output (R94). -/
def spillNonce (ctr : Nat) : List Byte := zeros 4 ++ beBytes 8 ctr

/-- Keeps a link's output for the next link, on-block or sealed in the spill area (R78, R93, R94; the tags of spilled
units stay on-block, log 34). The answer is false when a write is denied. -/
def State.keepOut (s : State) (t : Nat) (out : List Byte) : Bool × State :=
  match s.tag? t with
  | none => (true, s)
  | some e =>
    if e.spillUnits.isEmpty then (true, s.setTag t { e with chainOut := out })
    else
      let us := chunks 4096 out
      let base := s.sq.spillNonce
      let s := { s with sq := { s.sq with spillNonce := base + us.length } }
      let s := s.setTag t { e with chainOut := out, spillCtr := base }
      us.zipIdx.foldl (fun r p =>
        let c := (gcmSeal s.sq.spillKey (spillNonce (base + p.2)) [] p.1).1
        let (ok, s) := r.2.fabWrite (.chainSpill t) 0 (r.2.spillAddr e.spillUnits (p.2 * 4096)) c false
        (r.1 && ok, s)) (true, s)

/-- Opens spilled units against the tags kept on-block. -/
def openSpill (key : List Byte) (ctr : Nat) (orig ret : List (List Byte)) : Option (List Byte) :=
  match orig, ret with
  | [], _ => some []
  | p :: r, c :: q =>
    match gcmOpen key (spillNonce ctr) [] c (gcmSeal key (spillNonce ctr) [] p).2, openSpill key (ctr + 1) r q with
    | some x, some y => some (x ++ y)
    | _, _ => none
  | _ :: _, [] => none

/-- Input of the first pass that the link's mark has consumed (R161, R189). -/
def Link.before (l : Link) : List Byte :=
  match l.mark with
  | none => []
  | some m => if m.pass = 1 then m.read else m.first

/-- Input of the second pass that the link's mark has consumed (R159). -/
def Link.before2 (l : Link) : List Byte :=
  match l.mark with
  | none => []
  | some m => if m.pass = 1 then [] else m.read

/-- Input up to `upTo`, of which `before` is known: what follows is read from host memory, as the host presents it in `x`.
None when the read is denied. -/
def State.readOn (s : State) (l : Link) (before x : List Byte) (upTo : Nat) : Option (List Byte) × State :=
  if upTo ≤ before.length then (some (before.take upTo), s)
  else
    let (ok, s) := s.fabRead (.link l.tag) l.fn (l.e.desc.inAddr.toNat + before.length) (upTo - before.length) false
    (if ok then some (before ++ (fit upTo x).drop before.length) else none, s)

/-- The input of a link: from the previous link's output, or read from host memory from its mark on (R76, R78, R94, R164).
None when a read is denied or a spilled unit fails authentication. -/
def State.inputOf (s : State) (l : Link) : Option (List Byte) × State :=
  match l.prev with
  | none => s.readOn l l.before l.data.input l.n
  | some q =>
    let e := (s.tag? q).getD {}
    if e.spillUnits.isEmpty then (some e.chainOut, s)
    else
      let (ok, s) := (chunks 4096 e.chainOut).zipIdx.foldl (fun r p =>
        let (ok, s) := r.2.fabRead (.link l.tag) 0 (r.2.spillAddr e.spillUnits (p.2 * 4096)) p.1.length false
        (r.1 && ok, s)) (true, s)
      if ok = false then (none, s)
      else
        let got := if s.sq.spillKey.isEmpty then none
          else openSpill s.sq.spillKey e.spillCtr (chunks 4096 e.chainOut) (chunks 4096 (fit l.n l.data.input))
        match got with
        | some x => (some x, s)
        | none => (none, s.raise 0x00A 0x21 (formA (s.spillAddr e.spillUnits 0)))

/-! Counts and IVs (R155–R157, R251, R252) -/

/-- The family of an IV_MODE: 1 BUILT, 2 OTHER (R154). -/
def ivFamily (mode : Nat) : Nat := if mode = 1 then 1 else 2

/-- The slot's family is fixed to the other one (R155). -/
def otherFamily (e : SlotEnt) (mode : Nat) : Bool := decide (family e.area ≠ 0 ∧ family e.area ≠ ivFamily mode)

/-- A further record write must lease before this use can count; a link whose family does not fit counts nothing. -/
def needsLease (e : SlotEnt) (consumes : Bool) (alloc : Option Nat) : Bool :=
  !alloc.any (otherFamily e) && ((consumes && !e.usageReady) ||
  (match alloc with
   | none => false
   | some m =>
     decide (family e.area = 0 ∧ e.fam ≠ ivFamily m) ||
     if ivFamily m = 1 then decide (e.builtEnd ≤ invBuilt e.area ∧ invBuilt e.area < 2 ^ 64)
     else decide (e.otherEnd ≤ invOther e.area ∧ invOther e.area < 2 ^ 32)))

/-- The slot with its leases moved to the ends of the next runs, and the family that its record will name (R154, R157,
R252). -/
def withLeases (e : SlotEnt) (consumes : Bool) (alloc : Option Nat) : SlotEnt :=
  { e with
    usageEnd := if consumes && !e.usageReady then min (leaseEnd e.attr.usageCount e.attr.usageLimit) usageTop else e.usageEnd,
    builtEnd := if alloc.any (fun m => decide (ivFamily m = 1)) && decide (e.builtEnd ≤ invBuilt e.area) then
      min (leaseEnd (invBuilt e.area) 0) (2 ^ 64) else e.builtEnd,
    otherEnd := if alloc.any (fun m => decide (ivFamily m = 2)) && decide (e.otherEnd ≤ invOther e.area) then
      min (leaseEnd (invOther e.area) 0) (2 ^ 32) else e.otherEnd,
    fam := match alloc with
      | some m => ivFamily m
      | none => e.fam }

/-- A slot still holds the key that it held in `p` (R167). -/
def SlotEnt.sameKey (e p : SlotEnt) : Bool :=
  decide (e.attr.binding ≠ 0 ∧ e.attr.binding = p.attr.binding ∧ e.attr.created = p.attr.created)

/-- A live count has reached USAGE_LIMIT (R251). -/
def SlotEnt.exhausted (e : SlotEnt) : Bool := decide (e.attr.usageLimit ≠ 0 ∧ e.attr.usageLimit ≤ e.attr.usageCount)

/-- The counters of a slot that has been retired, or retired and filled again, since links on it passed their checks: those
links share what it held then (R167). -/
def State.modGone (s : State) (slot : Nat) (e : SlotEnt) : State :=
  { s with sq := { s.sq with tags := s.sq.tags.map (fun p =>
      (p.1, if p.2.desc.slot.toNat = slot ∧ p.2.passed.any (fun x => x.attr.created == e.attr.created) then
        { p.2 with passed := some e } else p.2)) } }

/-- The atomic allocation of R155 on a slot's live counters: the IV, or what the link ends with, and the state either way.
`fixed` is the fixed field that the slot held when the link's checks passed; `gone`: the slot no longer holds that key
(R167). -/
def State.allocate (s : State) (slot mode : Nat) (supplied : List Byte) (fixed : Word) (gone : Bool) (e : SlotEnt) :
    Except Ended Iv × State :=
  let fam := ivFamily mode
  let built := invBuilt e.area
  let other := invOther e.area
  if otherFamily e mode then (.error (.fail .keyDenied), s)
  else
    let drawn := if mode = 2 then s.request 12 else (.got supplied, s)
    match drawn with
    | (.fail, s) => (.error (.fail .entropyFail), s)
    | (.wait, s) => (.error .later, s)
    | (.got iv, s) =>
      if (fam = 1 ∧ 2 ^ 64 ≤ built) ∨ (fam = 2 ∧ 2 ^ 32 ≤ other) ∨ e.exhausted = true then (.error (.fail .keyLimit), s)
      else
        let (b, o) := if fam = 1 then (built + 1, other) else (built, other + 1)
        let s := if gone then s.modGone slot { e with area := setInv e.area b o fam }
          else (s.modSlot slot (fun e => { e with area := setInv e.area b o fam })).consume slot
        let s := if fam = 1 ∧ b = 2 ^ 64 then s.keyEvent [e.attr.owner, 0] slot 0x03 2 0 0
          else if fam = 2 ∧ o = 2 ^ 32 then s.keyEvent [e.attr.owner, 0] slot 0x03 1 0 0 else s
        (.ok { iv := if mode = 1 then leBytes 4 fixed.toNat ++ beBytes 8 built else iv,
               field := if mode = 1 then built else 0 }, s)

/-! The run -/

/-- A digest lane whose access failed clears every context it holds (R185). -/
def State.laneError (s : State) (l : Link) : State :=
  if kindOf l.e.desc.opcode = .digest then (s.clearCtxs (fun k c => decide (k ≠ l.tag ∧ c.place.lane? = some l.unit))).2 else s

/-- An access of a link failed (R185, R403): BUS_ERROR of its unit, or RESP_TIMEOUT of the port's data path, and the
link ends. -/
def State.accessFails (s : State) (l : Link) (addr : Nat) (write timedOut : Bool) : State :=
  let s := s.answered (fun w => w == .link l.tag)
  let s : State := if timedOut then { s with po := { s.po with nTimeouts := satAdd s.po.nTimeouts 1 } } else s
  let s := if timedOut then s.raiseFabric (pathSource (s.po.portB addr)) 0x11 l.fn addr write
    else s.raiseFabric l.unit 0x10 l.fn addr write
  (s.laneError l).finish l.tag .busError 0 0

/-- Where a failed output write of `out` lies, if the link made one that failed. -/
def Link.outFailure (l : Link) (out : List Byte) : Option (Nat × Bool) :=
  if l.e.desc.outChain || (out.drop l.wrote).isEmpty then none
  else
    match l.data.access with
    | .outputFailed o t => some (l.e.desc.outAddr.toNat + o.toNat, t)
    | _ => none

/-- Where a failed input read lies, if the link makes one. -/
def Link.inFailure (l : Link) : Option (Nat × Bool) :=
  if l.e.desc.inChain || decide (l.n ≤ l.before.length) then none
  else
    match l.data.access with
    | .inputFailed o t => some (l.e.desc.inAddr.toNat + o.toNat, t)
    | _ => none

/-- Where a failed read of the parameter block lies, if the link reads one. -/
def Link.paramFailure (l : Link) (inline : Bool) : Option (Nat × Bool) :=
  if inline then none
  else
    match l.data.access with
    | .paramFailed o t => some (l.e.desc.paramAddr.toNat + o.toNat, t)
    | _ => none

/-- The reads of a link are answered; its writes stay outstanding until its end is reported (R90). -/
def State.readsDone (s : State) (t : Nat) : State :=
  { s with po := { s.po with txns := s.po.txns.filter (fun q => !(decide (q.who = .link t) && !q.write)) } }

/-- Writes a link's output to its place: the chain buffer or OUT_ADDR, there from the mark on (R76, R78, R164). -/
def State.writeOut (s : State) (l : Link) (out : List Byte) : Bool × State :=
  if l.e.desc.outChain then s.keepOut l.tag out
  else if (out.drop l.wrote).isEmpty then (true, s)
  else s.fabWrite (.link l.tag) l.fn (l.e.desc.outAddr.toNat + l.wrote) (out.drop l.wrote) false

/-- Writes the blob of a slot that keeps its key in one (R249). -/
def State.writeBlob (s : State) (slot : Nat) (e : SlotEnt) : Bool × State :=
  if e.attr.blob && !e.body.isEmpty then
    s.fabWrite .blobWrite 0 (s.vt.blobBase + slot * 4096)
      (sealBlob (e.area.take 32) slot e.attr.binding.toNat e.attr.alg.toNat e.body) true true
  else (true, s)

/-- The registered slots as the last batch that rewrites them leaves them. -/
def State.latestRegs (s : State) : Tab RegSlot :=
  s.vt.batches.foldl (fun r b => b.regs.getD r) s.vt.regs

/-- A link that waits for its batch to commit: its unit is free (R255, R267). -/
def State.toCommit (s : State) (l : Link) (fills : Option Nat) (out : Nat) (result : DWord) : State :=
  match s.tag? l.tag with
  | none => s
  | some e =>
    let s := s.setTag l.tag { e with phase := .commitWait, status := .ok, outBytes := out, result := result, fills := fills }
    (match e.phase.unit? with
     | some u => s.freeOf u
     | none => s).schedule

/-- Ends the work: writes its output, joins its records to a batch, or ends with the status (R84, R176, R255). -/
def State.conclude (s : State) (l : Link) (r : Ended) : State :=
  match r with
  | .fail st => s.finish l.tag st 0 0
  | .failWith st res => s.finish l.tag st 0 res
  | .later => s
  | .failAfter st out =>
    match s.writeOut l out, l.outFailure out with
    | (true, s), some (a, t) => s.accessFails l a true t
    | (true, s), none => s.finish l.tag st 0 0
    | (false, s), _ => s.finish l.tag .busError 0 0
  | .good out res =>
    match s.writeOut l out, l.outFailure out with
    | (true, s), some (a, t) => s.accessFails l a true t
    | (true, s), none => s.finish l.tag .ok out.length res
    | (false, s), _ => (s.laneError l).finish l.tag .busError 0 0
  | .writes slots regs out res =>
    let (ok, s) := s.writeOut l out
    let (ok', s) : Bool × State := slots.foldl (fun (r : Bool × State) (p : Nat × SlotEnt) =>
      let (ok, s) := r.2.writeBlob p.1 p.2
      (r.1 && ok, s)) (ok, s)
    if !ok' then (s.laneError l).finish l.tag .busError 0 0
    else if let some (a, t) := l.outFailure out then s.accessFails l a true t
    else if s.imageReady = false then s.finish l.tag .keyDenied 0 0
    else
      let s := s.toCommit l ((slots.filter (fun (p : Nat × SlotEnt) => decide (p.2.attr.binding ≠ 0))).map (fun p => p.1)).head?
        out.length res
      match regs with
      | some (_ : Tab RegSlot) =>
        let b : Batch := { slots := slots, regs := regs, waits := [l.tag] }
        s.modVt (fun v => { v with batches := v.batches ++ [b] })
      | none => slots.foldl (fun s (p : Nat × SlotEnt) => s.joinBatch p.1 p.2 (some l.tag)) s

/-- The slots a link uses, each with whether the use consumes a count and the IV_MODE of an allocation. -/
def Plan.uses (p : Plan) : List (Nat × Bool × Option Nat) :=
  (match p.slot with
   | some (n, u) => [(n, u.consumes, p.alloc)]
   | none => []) ++
  (match p.wrap with
   | some (n, u) => [(n, u.consumes, none)]
   | none => [])

/-- The link's counts are taken: an allocation, a usage count of each slot, or nothing (R155, R171, R203, R250). -/
def State.takeCounts (s : State) (supplied : List Byte) (passed : SlotEnt) (uses : List (Nat × Bool × Option Nat)) (iv : Iv) :
    Except Ended Iv × State :=
  match uses with
  | [] => (.ok iv, s)
  | (n, consumes, alloc) :: r =>
    if n < 256 then s.takeCounts supplied passed r iv
    else
      let live := (assoc s.vt.slots n).getD {}
      let gone := alloc.isSome && !live.sameKey passed
      let e := if gone then passed else live
      let s := s.touchSlot n
      match alloc with
      | none =>
        if consumes && e.exhausted then (.error (.fail .keyLimit), s)
        else (if consumes && decide (e.attr.binding ≠ 0) then s.consume n else s).takeCounts supplied passed r iv
      | some m =>
        match s.allocate n m supplied passed.attr.ivFixed gone e with
        | (.error x, s) => (.error x, s)
        | (.ok iv, s) => s.takeCounts supplied passed r iv

/-- What a link's counts need before they can be taken. -/
inductive Ready where
  | go
  /-- The vault is not open (R245), or the slot is retired for encryption (R266). -/
  | deny
  /-- The slot has left the cache: it is read again. -/
  | read (slot : Nat)
  /-- A lease must be opened: the record that does it (R157, R252). -/
  | lease (slot : Nat) (e : SlotEnt)
  /-- A batch that writes the slot must commit first (R157, R255). -/
  | await (slot : Nat)

/-- Whether the counts of a link's uses can be taken now. -/
def State.usesReady (s : State) (uses : List (Nat × Bool × Option Nat)) : Ready :=
  match uses with
  | [] => .go
  | (n, consumes, alloc) :: r =>
    if n < 256 ∨ (consumes = false ∧ alloc = none) then s.usesReady r
    else if s.imageReady = false then .deny
    else
      match assoc s.vt.slots n with
      | none => if s.leaf n = some 0 then s.usesReady r else .read n
      | some e =>
        if e.attr.binding = 0 then s.usesReady r
        else if alloc.isSome && ((s.current n).getD e).attr.encRetired then .deny
        else if !needsLease e consumes alloc || (consumes && e.exhausted) then s.usesReady r
        else
          match s.pendingOf n with
          | none => .lease n (withLeases e consumes alloc)
          | some q =>
            let c := mergeLive q (some e)
            if q.attr.binding = 0 ∨ needsLease c consumes alloc = false then .await n else .lease n (withLeases c consumes alloc)

/-- Changes a held tag's entry. -/
def State.modTag (s : State) (t : Nat) (f : TagEnt → TagEnt) : State :=
  match s.tag? t with
  | some e => s.setTag t (f e)
  | none => s

/-! Requests to the DRBG (R217) -/

/-- A link of class D, or one of the same class that arrived earlier, waits for the DRBG before link `t` (R217). -/
def State.drbgBehind (s : State) (t : Nat) : Bool :=
  let isD (t : Nat) : Bool := decide (((s.tag? t).map (fun e => (s.flight e.pkt).cls)) = some .d)
  let w := s.pk.rng.waiting
  w.any (fun q => decide (q ≠ t) && isD q && !isD t) ||
  (w.takeWhile (fun q => decide (q ≠ t))).any (fun q => isD q || !isD t)

/-- A link is about to make its requests: those of its mark are not made again (R165, R207), and it waits behind the links
that R217 puts before it. -/
def State.drbgOpen (s : State) (l : Link) : State :=
  s.modRng (fun g => { g with give := (l.mark.map (·.drawn)).getD [], taken := [], hold := s.drbgBehind l.tag })

/-- The link has made its requests, or waits for one in its turn (R217). -/
def State.drbgClose (s : State) (t : Nat) (waits : Bool) : State :=
  s.modRng (fun g => { g with
    give := [], taken := [], hold := false, waiting := if waits then addSet g.waiting t else g.waiting.filter (· != t) })

/-! The run -/

/-- How far a link's start has come: it has ended or waits, or it runs with its slots and its allocated IV. -/
inductive Begun where
  | stays (s : State)
  | runs (s : State) (e w : SlotEnt) (iv : Iv)

/-- A link's parameter block is read, when it has one in host memory (R76). The answer is false when the read is denied. -/
def State.paramsRead (s : State) (l : Link) (p : Plan) : Bool × State :=
  if l.e.desc.paramInline || decide (p.paramRead = 0) then (true, s)
  else s.fabRead (.link l.tag) l.fn l.e.desc.paramAddr.toNat p.paramRead false

/-- The start of a link: its checks, storage, leases and counts (R84, R93, R155–R157). A link with a mark has done all
that (R164, R165, R207). -/
def State.beginLink (s0 : State) (l : Link) (p : Plan) (supplied : List Byte) : Begun :=
  match l.mark with
  | some m => .runs s0 m.slot m.wrap { iv := m.iv, field := m.ivField }
  | none =>
    let (pok, s) := s0.paramsRead l p
    if pok = false then .stays ((s.laneError l).finish l.tag .busError 0 0)
    else if let some (a, t) := l.paramFailure (l.e.desc.paramInline || decide (p.paramRead = 0)) then
      .stays (s.accessFails l a false t)
    else if p.unsupported then .stays (s.finish l.tag .unsupported 0 0)
    else
      match s.preChecks l p with
      | .deny st => .stays (s.finish l.tag st 0 0)
      | .wait n => .stays (s0.waitSlot l.tag n)
      | .ok e w =>
        match s.reserveOut l.tag with
        | none => .stays (s.finish l.tag .overload 0 0)
        | some s =>
          let kept := s.modTag l.tag (fun x => { x with passed := some e })
          match s.usesReady p.uses with
          | .deny => .stays (s.finish l.tag .keyDenied 0 0)
          | .read n => .stays (kept.waitSlot l.tag n)
          | .lease n e' => .stays ((kept.linkWaits l.tag).joinBatch n e' (some l.tag))
          | .await n => .stays ((kept.linkWaits l.tag).awaitBatch n l.tag)
          | .go =>
            match (s.drbgOpen l).takeCounts supplied ((s.tag? l.tag).bind (·.passed) |>.getD e) p.uses {} with
            | (.error .later, _) => .stays (kept.drbgClose l.tag true)
            | (.error x, s) => .stays ((s.drbgClose l.tag false).conclude l x)
            | (.ok iv, s) => .runs (s.drbgClose l.tag false) e w iv

/-- The mark of a link that has started (R161, R207). -/
def Link.startMark (l : Link) (e w : SlotEnt) (iv : Iv) : Mark :=
  l.mark.getD { slot := e, wrap := w, iv := iv.iv, ivField := iv.field, counted := true, param := l.param }

/-- An outcome has a check before release, and it fails: by what it finds, or because the host says that this run's fails
(R206). -/
def Link.checkFails (l : Link) (p : Plan) (e : SlotEnt) (x : List Byte) (r : Ended) : Bool :=
  match p.check e x r with
  | none => false
  | some ok => !ok || decide (l.data.checkFails ≠ 0)

/-- A check before release fails: it is counted and raised, and the core is fenced. The link runs again on another core with
the randomness of its mark and REPLAYED; the second failure ends it with VERIFY_FAIL (R206). -/
def State.checkFailed (s : State) (l : Link) (m : Mark) : State :=
  let s := { s with pk := { s.pk with checkFail := s.pk.checkFail + 1 } }
  let s := s.raise l.unit 0x24 (formO (some l.tag) l.fn)
  if m.failed then ((s.modUnit l.unit (fun x => { x with busy := none })).fenceUnit l.unit).finish l.tag .verifyFail 0 0
  else (s.modTag l.tag (fun x => { x with mark := some { m with failed := true } })).fenceUnit l.unit

/-- Runs a link under its plan (R76–R78, R84, R90–R95, R155–R157), from its mark where it has one. A link whose request to
the DRBG waits has started: its counts stay taken (R167, R209). -/
def State.runPlan (s0 : State) (l : Link) (p : Plan) (supplied : List Byte := []) : State :=
  let r : State :=
    match s0.beginLink l p supplied with
    | .stays s => s
    | .runs s e w iv =>
      match s.inputOf l with
      | (none, s) => (s.laneError l).finish l.tag .busError 0 0
      | (some input, s') =>
        if let some (a, t) := l.inFailure then s'.accessFails l a false t
        else
          match p.body (s'.drbgOpen l) e w iv input with
          | (.later, _) => (s.drbgClose l.tag true).modTag l.tag (fun x => { x with mark := some (l.startMark e w iv) })
          | (r, u) =>
            if l.checkFails p e input r then
              (u.drbgClose l.tag false).checkFailed l { l.startMark e w iv with drawn := u.pk.rng.taken }
            else (u.drbgClose l.tag false).conclude l r
  r.readsDone l.tag

/-- Runs the link of a command under the plan its opcode gives; a command whose tag holds no such running link has no
effect (log 2). -/
def State.runOp (s : State) (t : BitVec 14) (d : LinkData) (p : Nat → Bool) (plan : State → Link → Plan)
    (supplied : Link → List Byte := fun _ => []) : State :=
  match s.link? t.toNat d p with
  | none => s
  | some l => s.runPlan l (plan s l) (supplied l)

/-! Marks (R161, R180, R189, R207, R238) -/

/-- What a running link has read at position `at_` of its passes: the pass and its bytes; none when a read is denied. -/
def State.readTo (s : State) (l : Link) (p : Plan) (pos : Nat) : Option (Mark → Mark) × State :=
  let upTo := if p.byOutput then l.n else min pos l.n
  match s.inputOf (if l.prev.isSome then l else { l with n := upTo }) with
  | (none, s) => (none, s)
  | (some x, s) =>
    let x := x.take upTo
    if p.byOutput ∨ pos ≤ l.n ∨ !p.twoPass then (some (fun m => { m with pass := 1, read := x }), s)
    else if p.secondInput = false then (some (fun m => { m with pass := 2, first := x, read := [] }), s)
    else
      match s.readOn l l.before2 l.data.again (min (pos - l.n) l.n) with
      | (none, s) => (none, s)
      | (some y, s) => (some (fun m => { m with pass := 2, first := x, read := y }), s)

/-- A running link reaches position `pos`: it starts if it has not, reads up to there, writes its output up to there, and its
mark is committed (R161, R189, R207). The answer tells whether the link still runs with that mark. -/
def State.markLink (s0 : State) (l : Link) (p : Plan) (supplied : List Byte) (pos : Nat) : Bool × State :=
  match s0.beginLink l p supplied with
  | .stays s => (false, s.readsDone l.tag)
  | .runs s e w iv =>
    match s.readTo l p pos with
    | (none, s) => (false, ((s.laneError l).finish l.tag .busError 0 0).readsDone l.tag)
    | (some f, s) =>
      if let some (a, t) := l.inFailure then (false, (s.accessFails l a false t).readsDone l.tag)
      else
        let m := f (l.startMark e w iv)
        let out := p.sofar e iv m.pass (if m.pass = 1 ∨ p.secondInput then m.read else m.first) (pos - m.first.length)
        let (ok, s) := if l.e.desc.outChain then (true, s) else s.writeOut l out
        if ok = false then (false, ((s.laneError l).finish l.tag .busError 0 0).readsDone l.tag)
        else if let some (a, t) := l.outFailure out then (false, (s.accessFails l a true t).readsDone l.tag)
        else
          let m := if l.e.desc.outChain then m else { m with wrote := max l.wrote out.length }
          (true, (s.modTag l.tag (fun x => { x with mark := some m })).readsDone l.tag)

/-- The randomness that a link has drawn since its start is kept in its mark (R207): the requests it makes are made now. -/
def State.drawAhead (s : State) (l : Link) (p : Plan) : State :=
  match (s.tag? l.tag).bind (·.mark) with
  | none => s
  | some m =>
    let x := (p.body (s.drbgOpen { l with mark := some m }) m.slot m.wrap { iv := m.iv, field := m.ivField } (fit l.n l.data.input)).2
    let got := x.pk.rng.taken
    let s : State := { s with freeCount := x.freeCount, pk := { s.pk with rng := x.pk.rng } }
    (s.drbgClose l.tag false).modTag l.tag (fun e => { e with mark := some { m with drawn := got } })

/-! Pieces that many plans share -/

/-- OPT bits other than those allowed are set. -/
def Link.optBad (l : Link) (allowed : Nat) : Bool := decide (l.opt &&& (31 - allowed) ≠ 0)

/-- A new slot's attributes: TEMPLATE with the fields that the block sets (R247). -/
def newAttr (t : Attr) (kept pub blob : Bool) (parent : Option Nat) (now : DWord) : Attr :=
  { t with
    publicOnly := pub, blob := blob, keyKept := kept, encRetired := false, hasParent := parent.isSome,
    parent := parent.getD 0, usageCount := 0, created := now }

/-- A new slot with a symmetric, HMAC or SECRET key. -/
def newSecret (t : Attr) (key : List Byte) (parent : Option Nat) (now : DWord) : SlotEnt :=
  let (area, kept) := secretArea t.binding.toNat t.hmacStates key
  { attr := newAttr t kept false false parent now, area := area }

/-- A new slot with the private part of a key pair. -/
def newPrivate (t : Attr) (alg : Nat) (priv : List Byte) (now : DWord) : SlotEnt :=
  { attr := newAttr t true false false none now, area := privateArea alg priv }

end Sys2Proof.Machine
end

