-- ==== Sys2Proof/Machine/Cipher.lean ====
section
/-! DEFINITION. The symmetric opcodes on the cipher lanes (06_cipher_lanes.md R147–R167). -/

namespace Sys2Proof.Machine

/-- A use of a slot of one of these bindings under a permission; it consumes a count (R147, R156). -/
def keyUse (b : Nat → Bool) (perm : Nat) : SlotUse :=
  { suits := fun e => b e.attr.binding.toNat, perm := some perm, consumes := true }

/-- A use that allocates IVs: the slot may not be retired for encryption, and the family must fit where IV_MODE is known
(R84, R154, R266). -/
def sealUse (binding perm : Nat) (mode : Option Nat) : SlotUse :=
  { suits := fun e => decide (e.attr.binding.toNat = binding) && !e.attr.encRetired && !mode.any (otherFamily e),
    perm := some perm, consumes := true }

/-- PARAM_LEN is the required one: only then is the block read (R84, R148). -/
def Link.paramIs (l : Link) (n : Nat) : Bool := decide (l.paramLen = n)

/-- Byte `i` of the parameter block. -/
def Link.pb (l : Link) (i : Nat) : Nat := (l.param.getD i 0).toNat

/-- Little-endian field of the parameter block. -/
def Link.pf (l : Link) (o n : Nat) : Nat := fieldAt l.param o n

/-- The output range and the input range overlap in a way R162 does not allow: `v` bytes precede the output, `s` bytes of
input are not copied. -/
def Link.overlapBad (l : Link) (v s : Nat) : Bool :=
  let d := l.e.desc
  !d.inChain && !d.outChain && decide (l.n ≠ 0 ∧ l.outLen ≠ 0) &&
  decide (d.outAddr.toNat < d.inAddr.toNat + l.n ∧ d.inAddr.toNat < d.outAddr.toNat + l.outLen) &&
  !decide (d.outAddr.toNat + v ≤ d.inAddr.toNat + s)

/-- The key of a slot. -/
def SlotEnt.key (e : SlotEnt) : List Byte := e.area.take e.attr.keyLen

/-- A link ended with AUTH_FAIL (CL_AUTH_FAIL). -/
def State.authFailed (s : State) : Ended × State :=
  (.fail .authFail, { s with cl := { s.cl with authFail := s.cl.authFail + 1 } })

/-! CBC, CTR, XTS (Tables 6.3, 6.4) -/

/-- Bytes of a segment of every cipher opcode but CCM's (R161). -/
def segmentBytes : Nat := 65536

/-- CBC_ENCRYPT, CBC_DECRYPT. -/
def cbcPlan (dec : Bool) (_ : State) (l : Link) : Plan where
  segment := segmentBytes
  sofar := fun e _ _ x _ => (if dec then cbcDec else cbcEnc) (roundKeys e.key) (l.param.take 16) (chunks 16 x)
  paramRead := if l.paramIs 32 then 32 else 0
  unsupported := l.optBad 0 || decide (0xFFFFFFF0 < l.n) || (l.paramIs 32 && !allZero (slice l.param 16 16)) || l.overlapBad 0 0
  slot := some (l.slot, keyUse (· == 1) (if dec then permDecrypt else permEncrypt))
  badLen := fun _ => !l.paramIs 32 || decide (l.n < 16 ∨ l.n % 16 ≠ 0)
  out := fun _ => l.n
  body := fun s e _ _ x =>
    let f := if dec then cbcDec else cbcEnc
    (.good (f (roundKeys e.key) (l.param.take 16) (chunks 16 x)) 0, s)

/-- Counter blocks a CTR link needs beyond those its counter has left (R150). -/
def ctrRepeats (l : Link) : Bool :=
  let bits := l.pb 0x10
  decide (2 ^ bits - beNat (l.param.take 16) % 2 ^ bits < (l.n + 15) / 16)

/-- CTR_ENCRYPT, CTR_DECRYPT. -/
def ctrPlan (dec : Bool) (_ : State) (l : Link) : Plan where
  segment := segmentBytes
  sofar := fun e _ _ x _ => (ctrXor (roundKeys e.key) (l.pb 0x10) (l.param.take 16) (chunks 16 x)).1
  paramRead := if l.paramIs 32 then 32 else 0
  unsupported := l.optBad 0 || (l.paramIs 32 && (!([32, 64, 128].contains (l.pb 0x10)) || !allZero (slice l.param 17 15))) ||
    l.overlapBad 0 0
  slot := some (l.slot, keyUse (· == 2) (if dec then permDecrypt else permEncrypt))
  badLen := fun _ => !l.paramIs 32 || decide (l.n = 0) || ctrRepeats l
  out := fun _ => l.n
  body := fun s e _ _ x =>
    let (y, c) := ctrXor (roundKeys e.key) (l.pb 0x10) (l.param.take 16) (chunks 16 x)
    (.good y (BitVec.ofNat 64 (beNat c)), s)

/-- XTS_ENCRYPT, XTS_DECRYPT. At a mark inside a data unit the output of the whole units before it has been written
(log 130). -/
def xtsPlan (dec : Bool) (_ : State) (l : Link) : Plan where
  segment := segmentBytes
  sofar := fun e _ _ x _ =>
    let h := e.attr.keyLen / 2
    let u := l.pf 0x10 4
    xtsUnits (roundKeys (e.key.take h)) (roundKeys (e.key.drop h)) dec (l.pf 0 16) (chunks u (x.take (x.length / u * u)))
  paramRead := if l.paramIs 32 then 32 else 0
  unsupported := l.optBad 0 || (l.paramIs 32 && (decide (l.pf 0x10 4 < 16 ∨ 16777216 < l.pf 0x10 4) ||
    !allZero (slice l.param 0x14 12))) || l.overlapBad 0 0
  slot := some (l.slot, keyUse (· == 4) (if dec then permDecrypt else permEncrypt))
  badLen := fun _ => !l.paramIs 32 || decide (l.n % l.pf 0x10 4 ≠ 0)
  out := fun _ => l.n
  body := fun s e _ _ x =>
    let h := e.attr.keyLen / 2
    let us := chunks (l.pf 0x10 4) x
    let tw := l.pf 0 16
    (.good (xtsUnits (roundKeys (e.key.take h)) (roundKeys (e.key.drop h)) dec tw us) (BitVec.ofNat 64 (tw + us.length)), s)

/-! AEAD (Tables 6.5, 6.6) -/

/-- The AEAD algorithms. -/
inductive Aead where
  | gcm | ccm | ccp
  deriving DecidableEq

/-- Its binding. -/
def Aead.binding : Aead → Nat
  | .gcm => 3 | .ccm => 5 | .ccp => 7

/-- Fields of Table 6.5. -/
def Link.ivMode (l : Link) : Nat := l.pb 0
def Link.ivLen (l : Link) : Nat := l.pb 1
def Link.tagLen (l : Link) : Nat := l.pb 2
def Link.aadLen (l : Link) : Nat := l.pf 4 4

/-- The supplied IV. -/
def Link.ivIn (l : Link) : List Byte := slice l.param 16 l.ivLen

/-- Table 6.6 allows the parameter block; `sealing`: encryption or generation; `mac`: GMAC. -/
def aeadParamsOk (a : Aead) (sealing mac : Bool) (l : Link) : Bool :=
  (if sealing && decide (a ≠ .ccm) then decide (l.ivMode ≤ 2) else decide (l.ivMode = 0)) &&
  (match a with
   | .ccm => decide (7 ≤ l.ivLen ∧ l.ivLen ≤ 13)
   | _ => decide (l.ivLen = 12)) &&
  (match a with
   | .gcm => [8, 12, 13, 14, 15, 16].contains l.tagLen
   | .ccm => [4, 6, 8, 10, 12, 14, 16].contains l.tagLen
   | .ccp => decide (l.tagLen = 16)) &&
  decide (l.pb 3 = 0) && allZero (slice l.param 8 8) &&
  (if l.ivMode = 0 then allZero (slice l.param (16 + l.ivLen) (16 - l.ivLen)) else allZero (slice l.param 16 16)) &&
  (if mac then decide (l.aadLen = 0) else decide (l.aadLen ≤ l.n)) &&
  (match a with
   | .ccm => decide (l.n - l.aadLen - (if sealing then 0 else l.tagLen) < 2 ^ (8 * (15 - l.ivLen)))
   | _ => true)

/-- Bytes of the IV written before the output (Table 6.2, R153). -/
def Link.prefixLen (l : Link) : Nat :=
  if l.ivMode = 2 ∨ (l.ivMode = 1 ∧ l.opt % 2 = 1) then 12 else 0

/-- Seals under an algorithm: ciphertext and full tag. -/
def Aead.seal (a : Aead) (key iv : List Byte) (tagLen : Nat) (aad p : List Byte) : List Byte × List Byte :=
  match a with
  | .gcm => gcmSeal key iv aad p
  | .ccm =>
    let ks := roundKeys key
    (ccmCrypt ks iv p, ccmTag ks iv tagLen aad p)
  | .ccp =>
    let c := ccpCrypt key iv p
    (c, ccpTag key iv aad c)

/-- Deciphers, with the full tag that the input should carry. -/
def Aead.unseal (a : Aead) (key iv : List Byte) (tagLen : Nat) (aad c : List Byte) : List Byte × List Byte :=
  match a with
  | .gcm =>
    let ks := roundKeys key
    (gcmCrypt ks iv c, gcmTag ks iv aad c)
  | .ccm =>
    let ks := roundKeys key
    let p := ccmCrypt ks iv c
    (p, ccmTag ks iv tagLen aad p)
  | .ccp => (ccpCrypt key iv c, ccpTag key iv aad c)

/-- Bytes of a segment (R161). -/
def Aead.segment (a : Aead) : Nat := if a = .ccm then 32768 else segmentBytes

/-- GCM_ENCRYPT, CCM_ENCRYPT, CCP_ENCRYPT, and with `mac` GMAC_GENERATE. Where PARAM_LEN is not 32, IV_MODE is not read, and
the family is not checked (R84, R148). -/
def sealPlan (a : Aead) (mac : Bool) (_ : State) (l : Link) : Plan where
  paramRead := if l.paramIs 32 then 32 else 0
  unsupported := l.optBad (if a = .ccm then 0 else 1) ||
    (l.paramIs 32 && (!aeadParamsOk a true mac l || l.overlapBad l.prefixLen l.aadLen))
  slot := some (l.slot, if a = .ccm then keyUse (· == 5) permEncrypt
    else sealUse a.binding (if mac then permSign else permEncrypt) (if l.paramIs 32 then some l.ivMode else none))
  badLen := fun _ => !l.paramIs 32
  out := fun _ => l.prefixLen + (if mac then 0 else l.n - l.aadLen) + l.tagLen
  alloc := if a = .ccm then none else some l.ivMode
  segment := a.segment
  sofar := fun e iv _ x _ =>
    let nonce := if a = .ccm then l.ivIn else iv.iv
    (if l.prefixLen = 0 then [] else nonce) ++
      (if mac then [] else (a.seal e.key nonce l.tagLen (x.take l.aadLen) (x.drop l.aadLen)).1)
  body := fun s e _ iv x =>
    let k := if mac then l.n else l.aadLen
    let nonce := if a = .ccm then l.ivIn else iv.iv
    let (c, t) := a.seal e.key nonce l.tagLen (x.take k) (x.drop k)
    (.good ((if l.prefixLen = 0 then [] else nonce) ++ c ++ t.take l.tagLen) (BitVec.ofNat 64 iv.field), s)

/-- The decryption runs in a single pass (R159). -/
def Link.singlePass (l : Link) : Bool := l.e.desc.outChain || decide (l.n - l.aadLen - l.tagLen ≤ 65536)

/-- The second pass of R159 over the input read again: the plaintext, or R160 when the input has changed. -/
def secondPass (a : Aead) (l : Link) (key matched : List Byte) (x : List Byte) (s : State) : Ended × State :=
  let k := l.aadLen
  let c := (x.drop k).take (l.n - k - l.tagLen)
  let (p, t) := a.unseal key l.ivIn l.tagLen (x.take k) c
  if t.take l.tagLen = matched then (.good p 0, s)
  else
    let (_, s) := s.writeOut l p
    let (_, s) := s.writeOut { l with wrote := 0 } (zeros p.length)
    (s.raise l.unit 0x22 (formO (some l.tag) l.fn)).authFailed

/-- GCM_DECRYPT, CCM_DECRYPT, CCP_DECRYPT, and with `mac` GMAC_VERIFY. -/
def openPlan (a : Aead) (mac : Bool) (_ : State) (l : Link) : Plan where
  paramRead := if l.paramIs 32 then 32 else 0
  unsupported := l.optBad 0 || (l.paramIs 32 && (!aeadParamsOk a false mac l || l.overlapBad 0 l.aadLen))
  slot := some (l.slot, keyUse (· == a.binding) (if mac then permVerify else permDecrypt))
  badLen := fun _ => !l.paramIs 32 || decide (l.n < l.aadLen + l.tagLen)
  out := fun _ => if mac then 0 else l.n - l.aadLen - l.tagLen
  segment := a.segment
  twoPass := !mac && !l.singlePass
  secondInput := !mac && !l.singlePass
  sofar := fun e _ pass x _ =>
    if pass = 1 then []
    else (a.unseal e.key l.ivIn l.tagLen (x.take l.aadLen) ((x.take (l.n - l.tagLen)).drop l.aadLen)).1
  body := fun s e _ _ x =>
    let m := l.n - l.tagLen
    let k := if mac then m else l.aadLen
    let tag := x.drop m
    let (p, t) := a.unseal e.key l.ivIn l.tagLen (x.take k) ((x.take m).drop k)
    if t.take l.tagLen ≠ tag then s.authFailed
    else if mac || l.singlePass then (.good p 0, s)
    else
      match l.prev with
      | some _ => secondPass a l e.key tag x s
      | none =>
        match s.readOn l l.before2 l.data.again l.n with
        | (some y, s) => secondPass a l e.key tag y s
        | (none, s) => (.fail .busError, s)

/-! Key wrap -/

/-- The use of an AES-KW slot. -/
def kwUse (perm : Nat) : SlotUse := keyUse (· == 6) perm

/-- KW_WRAP. -/
def kwWrapPlan (_ : State) (l : Link) : Plan where
  unsupported := l.optBad 0 || decide (4096 < l.n)
  slot := some (l.slot, kwUse permEncrypt)
  badLen := fun _ => !l.paramIs 0 || decide (l.n < 16 ∨ l.n % 8 ≠ 0)
  out := fun _ => l.n + 8
  body := fun s e _ _ x => (.good (kwWrapAll e.key x) 0, s)

/-- KW_UNWRAP. -/
def kwUnwrapPlan (_ : State) (l : Link) : Plan where
  unsupported := l.optBad 0 || decide (4104 < l.n)
  slot := some (l.slot, kwUse permDecrypt)
  badLen := fun _ => !l.paramIs 0 || decide (l.n < 24 ∨ l.n % 8 ≠ 0)
  out := fun _ => l.n - 8
  body := fun s e _ _ x =>
    match kwUnwrapAll e.key x with
    | some p => (.good p 0, s)
    | none => s.authFailed

/-- Length of a KWP result (Table 6.2). -/
def kwpLen (n : Nat) : Nat := if n ≤ 8 then 16 else (n + 7) / 8 * 8 + 8

/-- KWP_WRAP. -/
def kwpWrapPlan (_ : State) (l : Link) : Plan where
  unsupported := l.optBad 0 || decide (4096 < l.n)
  slot := some (l.slot, kwUse permEncrypt)
  badLen := fun _ => !l.paramIs 0 || decide (l.n = 0)
  out := fun _ => kwpLen l.n
  body := fun s e _ _ x => (.good (kwpWrapAll e.key x) 0, s)

/-- KWP_UNWRAP. -/
def kwpUnwrapPlan (_ : State) (l : Link) : Plan where
  unsupported := l.optBad 0 || decide (4104 < l.n)
  slot := some (l.slot, kwUse permDecrypt)
  badLen := fun _ => !l.paramIs 0 || decide (l.n < 16 ∨ l.n % 8 ≠ 0)
  body := fun s e _ _ x =>
    match kwpUnwrapAll e.key x with
    | some p => if l.outLen < p.length then (.fail .lenMismatch, s) else (.good p 0, s)
    | none => s.authFailed

/-- The opcode of a command's link. -/
def isOp (n : Nat) : Nat → Bool := fun o => o == n

end Sys2Proof.Machine
end

