-- ==== Sys2Proof/Machine/Digest.lean ====
section
/-! DEFINITION. The digest, MAC and KDF opcodes and the sessions on the digest lanes (07_digest.md R170–R178, R189). -/

namespace Sys2Proof.Machine

/-- The context that a running digest link needs is not on its lane yet: it waits for CONTEXT_RESTORE, or for the spill that
frees an entry (R179, R181). -/
def State.restoringFor (s : State) (t : Nat) : Bool :=
  match s.tag? t with
  | none => false
  | some e =>
    match e.phase.unit? with
    | none => false
    | some u => decide (unitKind u = .digest) && !s.ctxsReady t u e

/-- A waiting digest link asks for its contexts again. -/
def State.fetchCtxs (s : State) (t : Nat) : State :=
  match s.tag? t with
  | none => s
  | some e =>
    match e.phase.unit? with
    | none => s
    | some u =>
      match s.digestStart t u e with
      | (true, s) => s
      | (false, s) => s.finish t .busError 0 0

/-- Runs a digest link; its own context is no longer held when it ends (R179). -/
def State.runDigest (s : State) (t : BitVec 14) (d : LinkData) (p : Nat → Bool) (plan : State → Link → Plan) : State :=
  if s.restoringFor t.toNat then s.fetchCtxs t.toNat
  else
    let s' := s.runOp t d p plan
    match s'.tag? t.toNat with
    | some e => if e.phase = .ended ∨ e.phase = .commitWait then s'.dropDctx t.toNat else s'
    | none => s'

/-! Digests and MACs -/

/-- Bytes of input, or of SHAKE output, from one mark of a digest lane to the next (R189). -/
def digestSegment : Nat := 32768

/-- A keyless digest: the hash code by opcode, and the output length. -/
def digestPlan (code : Nat → Nat) (shake : Bool) (_ : State) (l : Link) : Plan where
  unsupported := l.optBad 0 || decide (l.slot ≠ 0) || (shake && decide (l.aux < 1 ∨ 16777216 < l.aux))
  badLen := fun _ => !l.paramIs 0
  out := fun _ => if shake then l.aux else hashLen (code l.op)
  segment := digestSegment
  twoPass := shake
  sofar := fun _ _ pass x k => if shake && decide (pass = 2) then (hash (code l.op) x l.aux).take k else []
  ctx := fun _ _ x => { hash := (HashCtx.start (code l.op)).absorb x }
  body := fun s _ _ _ x => (.good (hash (code l.op) x l.aux) 0, s)

/-- HMAC. -/
def hmacPlan (_ : State) (l : Link) : Plan where
  unsupported := l.optBad 0
  slot := some (l.slot, keyUse bindingHmac permSign)
  badLen := fun _ => !l.paramIs 0
  out := fun e => hashLen (hmacAlg e.attr.binding.toNat)
  segment := digestSegment
  ctx := fun _ e x =>
    let (i, o) := slotHmac e.attr e.area
    { hash := i.absorb x, outer := some o }
  body := fun s e _ _ x =>
    let (i, o) := slotHmac e.attr e.area
    (.good (hmacFinish (i.absorb x) o) 0, s)

/-! Key derivation (Table 7.4) -/

/-- The KDF opcodes. -/
inductive Kdf where
  | hkdf | extract | expand | ctr
  deriving DecidableEq

/-- Fields of Table 7.4. -/
def Link.kdfAlg (l : Link) : Nat := kdfHash (l.pb 0)
def Link.kdfDest (l : Link) : Nat := l.pb 1
def Link.kdfTemplate (l : Link) : List Byte := slice l.param 0x10 64

/-- What Table 7.4 and R170 allow in the parameter block. -/
def kdfParamsOk (k : Kdf) (l : Link) : Bool :=
  decide (1 ≤ l.pb 0 ∧ l.pb 0 ≤ 3) && decide (l.kdfDest ≤ 1) && (decide (k ≠ .extract) || decide (l.kdfDest = 1)) &&
  (if k = .hkdf ∨ k = .extract then decide (l.pb 2 ≤ 64) else decide (l.pb 2 = 0)) &&
  (if k = .ctr then [8, 16, 24, 32].contains (l.pb 3) else decide (l.pb 3 = 0)) &&
  decide (l.pf 4 4 < 2 ^ 19) && (decide (l.kdfDest = 1) || decide (l.pf 4 4 = 0)) && allZero (slice l.param 8 8) &&
  (if l.kdfDest = 1 then templateOk l.kdfTemplate else allZero l.kdfTemplate) &&
  allZero (slice l.param (0x50 + l.pb 2) (64 - l.pb 2)) &&
  (match k with
   | .hkdf | .expand => decide (1 ≤ l.aux ∧ l.aux ≤ 255 * hashLen l.kdfAlg)
   | .extract => decide (l.aux = hashLen l.kdfAlg)
   | .ctr => decide (1 ≤ l.aux ∧ l.aux ≤ 65536)) &&
  (decide (l.kdfDest = 0) || decide (l.outLen = 0))

/-- Bindings that a KDF's slot may have (Table 7.2). -/
def kdfBinding (k : Kdf) (b : Nat) : Bool :=
  bindingHmac b || (decide (k = .hkdf ∨ k = .extract) && decide (b = 0x18))

/-- The derived octets (R173). -/
def kdfOutput (k : Kdf) (l : Link) (e : SlotEnt) (x : List Byte) : List Byte :=
  let alg := l.kdfAlg
  let salt := (slice l.param 0x50 64).take (l.pb 2)
  match k with
  | .hkdf => hkdfExpand (hmacStates alg (hkdfExtract alg salt e.key)) x l.aux
  | .extract => hkdfExtract alg salt e.key
  | .expand => hkdfExpand (slotHmac e.attr e.area) x l.aux
  | .ctr => kdfCtr (slotHmac e.attr e.area) (l.pb 3) x l.aux

/-- The template's rules for a derived slot, KEY_DENIED when one fails (R172, R175, R248, Table 7.5). -/
def kdfDenied (k : Kdf) (l : Link) (e : SlotEnt) : Bool :=
  let t := Attr.parse l.kdfTemplate
  (bindingHmac e.attr.binding.toNat && decide (hmacAlg e.attr.binding.toNat ≠ l.kdfAlg)) ||
  (decide (k = .hkdf ∨ k = .extract) && !e.attr.keyKept) ||
  (decide (l.kdfDest = 1) && (!narrows e.attr t l.fn false false ||
    !(bindingSym t.binding.toNat || bindingHmac t.binding.toNat || (decide (k = .extract) && decide (t.binding = 0x18)))))

/-- The two halves of an XTS key are equal: the vault refuses the slot (R151; the status is log 35). -/
def xtsEqual (binding : Nat) (key : List Byte) : Bool :=
  decide (binding = 4) && decide (key.take (key.length / 2) = key.drop (key.length / 2))

/-- HKDF, HKDF_EXTRACT, HKDF_EXPAND, KDF_CTR. -/
def kdfPlan (k : Kdf) (_ : State) (l : Link) : Plan where
  ctx := fun _ e x => { hash := if k = .hkdf ∨ k = .extract then HashCtx.start l.kdfAlg else (slotHmac e.attr e.area).1.absorb x }
  paramRead := if l.paramIs 144 then 144 else 0
  unsupported := l.optBad 0 || decide (1024 < l.n) || (decide (k = .extract) && decide (l.n ≠ 0)) ||
    (l.paramIs 144 && !kdfParamsOk k l)
  slot := some (l.slot, keyUse (kdfBinding k) permDerive)
  dest := if l.paramIs 144 ∧ l.kdfDest = 1 then some (l.pf 4 4, Attr.parse l.kdfTemplate) else none
  denied := fun e => l.paramIs 144 && kdfDenied k l e
  badLen := fun _ => !l.paramIs 144 || (decide (k = .ctr) && decide (l.n = 0)) ||
    (decide (k = .ctr) && decide (2 ^ l.pb 3 - 1 < (l.aux + hashLen l.kdfAlg - 1) / hashLen l.kdfAlg)) ||
    (decide (l.kdfDest = 1) && decide (l.aux ≠ (Attr.parse l.kdfTemplate).keyLen))
  out := fun _ => if l.kdfDest = 1 then 0 else l.aux
  body := fun s e _ _ x =>
    let y := kdfOutput k l e x
    if l.kdfDest = 0 then (.good y 0, s)
    else
      let t := Attr.parse l.kdfTemplate
      let d := l.pf 4 4
      if xtsEqual t.binding.toNat y then (.fail .keyDenied, s)
      else (.writes [(d, newSecret t y (some l.slot) s.po.tm)] none [] (BitVec.ofNat 64 d), s)

/-! Sessions (R177, R178) -/

/-- Key of the session's context. -/
def Link.sess (l : Link) : Nat := sessKey l.fn (l.aux % 64)

/-- Bytes of message a context has absorbed: the key block of HMAC is not part of it. -/
def DCtx.absorbed (c : DCtx) : Nat := c.hash.total - (if c.outer.isSome then hashBlock c.hash.alg.toNat else 0)

/-- The message is longer than its SHA-2 hash allows (R178). -/
def DCtx.tooLong (c : DCtx) : Bool :=
  let a := c.hash.alg.toNat
  (decide (a ≤ 2) && decide (2 ^ 61 - 1 < c.absorbed)) || (decide (2 < a ∧ a < 8) && decide (2 ^ 125 - 1 < c.absorbed))

/-- A code of Table 7.6. -/
def sessionCode (c : Nat) : Bool := decide ((1 ≤ c ∧ c ≤ 4) ∨ (8 ≤ c ∧ c ≤ 0x0D) ∨ c = 0x10)

/-- What every session opcode refuses (R170, R177). -/
def sessBad (s : State) (l : Link) : Bool := l.optBad 0 || !s.dg.spillEn || decide (65536 ≤ l.aux ∨ l.aux / 64 % 4 ≠ 0)

/-- A context takes the next part: it goes on, or LEN_MISMATCH closes it (R178). -/
def State.sessAbsorb (s : State) (l : Link) (c : DCtx) (x : List Byte) : Ended × State :=
  let c := { c with hash := c.hash.absorb x, place := .lane l.unit }
  if c.tooLong then (.fail .lenMismatch, s.dropDctx l.sess)
  else (.good [] (BitVec.ofNat 64 c.absorbed), s.putDctx l.sess c)

/-- The context that SESS_START opens (R177). -/
def sessOpens (l : Link) (e : SlotEnt) : DCtx :=
  let code := l.aux / 256
  if code = 0x10 then
    let (i, o) := slotHmac e.attr e.area
    { hash := i, outer := some o }
  else { hash := HashCtx.start code }

/-- The session's context with some more input (R178, R180). -/
def sessSofar (l : Link) (s : State) (_ : SlotEnt) (x : List Byte) : DCtx :=
  let c := (s.dctx l.sess).getD {}
  { c with hash := c.hash.absorb x }

/-- SESS_START. -/
def sessStartPlan (s : State) (l : Link) : Plan where
  segment := digestSegment
  ctx := fun _ e x =>
    let c := sessOpens l e
    { c with hash := c.hash.absorb x }
  unsupported :=
    let code := l.aux / 256
    sessBad s l || !sessionCode code || (decide (code ≠ 0x10) && decide (l.slot ≠ 0))
  slot := if l.aux / 256 = 0x10 then some (l.slot, keyUse bindingHmac permSign) else none
  badLen := fun _ => !l.paramIs 0
  body := fun s e _ _ x => (s.dropDctx l.sess).sessAbsorb l (sessOpens l e) x

/-- What UPDATE, FINISH and ABORT refuse: a slot, or bits of AUX beyond CTX_ID. -/
def sessLaterBad (s : State) (l : Link) : Bool := sessBad s l || decide (l.slot ≠ 0 ∨ 256 ≤ l.aux)

/-- SESS_UPDATE. -/
def sessUpdatePlan (s : State) (l : Link) : Plan where
  segment := digestSegment
  ctx := sessSofar l
  unsupported := sessLaterBad s l
  badLen := fun _ => !l.paramIs 0
  body := fun s _ _ _ x =>
    match s.dctx l.sess with
    | none => (.fail .contextLost, s)
    | some c => s.sessAbsorb l c x

/-- SHAKE sessions deliver OUT_LEN bytes. -/
def DCtx.isShake (c : DCtx) : Bool := decide (0x0C ≤ c.hash.alg.toNat)

/-- SESS_FINISH. -/
def sessFinishPlan (s : State) (l : Link) : Plan where
  segment := digestSegment
  ctx := sessSofar l
  unsupported := sessLaterBad s l || (match s.dctx l.sess with
    | some c => c.isShake && decide (65536 < l.outLen)
    | none => false)
  badLen := fun _ => !l.paramIs 0 || (match s.dctx l.sess with
    | some c => c.isShake && decide (l.outLen = 0)
    | none => false)
  out := fun _ => match s.dctx l.sess with
    | some c => if c.isShake then l.outLen else hashLen c.hash.alg.toNat
    | none => 0
  body := fun s _ _ _ x =>
    match s.dctx l.sess with
    | none => (.fail .contextLost, s)
    | some c =>
      let c := { c with hash := c.hash.absorb x }
      let s := s.dropDctx l.sess
      if c.tooLong then (.fail .lenMismatch, s)
      else
        let y := match c.outer with
          | some o => hmacFinish c.hash o
          | none => c.hash.finish l.outLen
        (.good y (BitVec.ofNat 64 c.absorbed), s)

/-- SESS_ABORT. -/
def sessAbortPlan (s : State) (l : Link) : Plan where
  unsupported := sessLaterBad s l || decide (l.n ≠ 0)
  badLen := fun _ => !l.paramIs 0
  body := fun s _ _ _ _ =>
    match s.dctx l.sess with
    | none => (.fail .contextLost, s)
    | some _ => (.good [] 0, s.dropDctx l.sess)

/-- A restored context came back: the link that waited for it goes on, or ends with CONTEXT_LOST (R183). -/
def State.contextRestored (s : State) (k : Nat) (data : List Byte) : State :=
  let user := s.sq.tags.find? (fun p => decide (p.1 = k ∨ sessionOf p.2 = some k) && p.2.phase.unit?.isSome)
  let s := s.answered (fun w => decide (w = ctxWho k))
  match user with
  | none => s
  | some (t, e) =>
    match e.phase.unit? with
    | none => s
    | some u =>
      let (ok, s) := s.restoreCtx k u (fit 512 data)
      if ok || decide (k ≥ 16384) then s
      else
        let s := s.freeOf u
        (s.endLink t .contextLost 0 0).schedule

end Sys2Proof.Machine
end

