-- ==== Sys2Proof/Machine/PublicKey.lean ====
section
/-! DEFINITION. The public-key, lattice and random opcodes (08_public_key.md R193–R214). -/

namespace Sys2Proof.Machine

/-! The parameter block (Table 8.3) -/

def Link.alg (l : Link) : Nat := l.pb 0
def Link.destFlag (l : Link) : Nat := l.pb 1
def Link.hashCode (l : Link) : Nat := l.pb 2
def Link.ctxLen (l : Link) : Nat := l.pb 3
def Link.destSlot (l : Link) : Nat := l.pf 4 4
def Link.saltLen (l : Link) : Nat := l.pf 8 2
def Link.keyLen (l : Link) : Nat := l.pf 0x0C 4
def Link.sigLen (l : Link) : Nat := l.pf 0x10 4
def Link.pkTemplate (l : Link) : List Byte := slice l.param 0x20 64
def Link.ctx (l : Link) : List Byte := slice l.param 0x60 l.ctxLen
def Link.keyIn (l : Link) : List Byte := slice l.param (0x60 + l.ctxLen) l.keyLen
def Link.sigIn (l : Link) : List Byte := slice l.param (0x60 + l.ctxLen + l.keyLen) l.sigLen

/-- The hash of the RSA opcodes (Table 8.3 HASH). -/
def Link.rsaHash (l : Link) : Nat := l.hashCode + 1

/-- PARAM_LEN is the required one (R196). -/
def pkLenOk (batch : Bool) (l : Link) : Bool :=
  decide (0x60 ≤ l.paramLen ∧ l.paramLen = 0x60 + l.ctxLen + (if batch then 0 else l.keyLen + l.sigLen))

/-- Bytes of the parameter block that are read (R84). -/
def pkParamRead (batch : Bool) (l : Link) : Nat :=
  if pkLenOk batch l then l.paramLen else if 0x14 ≤ l.paramLen then 0x14 else 0

/-- What an opcode accepts in the block. -/
structure PkForm where
  algs : Nat → Bool
  rsa : Bool := false
  /-- CTX may be non-empty (R197). -/
  ctx : Nat → Bool := fun _ => false
  salt : Bool := false
  /-- DEST values: 0, 1 or either. -/
  dest0 : Bool := true
  dest1 : Bool := false
  /-- A single verification carries SIG. -/
  sig : Bool := false
  batch : Bool := false

/-- The contents of the block that give UNSUPPORTED (R196, R197; SIG_LEN outside single verification: log 37). -/
def PkForm.bad (f : PkForm) (l : Link) : Bool :=
  pkLenOk f.batch l && !(f.algs l.alg &&
    ((f.dest0 && decide (l.destFlag = 0)) || (f.dest1 && decide (l.destFlag = 1))) &&
    (if f.rsa then decide (1 ≤ l.hashCode ∧ l.hashCode ≤ 3) else decide (l.hashCode = 0)) &&
    (f.ctx l.alg || decide (l.ctxLen = 0)) &&
    (if l.destFlag = 1 then decide (l.destSlot < 2 ^ 19) && templateOk l.pkTemplate
     else decide (l.destSlot = 0) && allZero l.pkTemplate) &&
    (if f.salt then decide (l.saltLen ≤ 64) else decide (l.saltLen = 0)) &&
    allZero (slice l.param 0x0A 2) && allZero (slice l.param 0x14 12) && (f.sig || decide (l.sigLen = 0)))

/-- The slot an opcode works under: BINDING and ALG suit; a private key is asked for, or a public one will do (R197,
R250). -/
def pkUse (batch : Bool) (l : Link) (binding : Nat → Bool) (priv : Bool) (perm : Option Nat)
    (auth : Nat → Attr → Bool := fun _ _ => false) : SlotUse :=
  { auth := auth, perm := perm, consumes := true, needsBlob := true,
    suits := fun e => binding e.attr.binding.toNat && (!priv || !e.attr.publicOnly) &&
      (!pkLenOk batch l || decide (e.attr.alg.toNat = l.alg)) }

/-- Registered slots holding a public key may be named by the verification opcodes (Table 10.16). -/
def verifyAuth (slot : Nat) (a : Attr) : Bool := decide (16 ≤ slot) && bindingPublic a.binding.toNat

/-- A key from a slot or inline. -/
def Link.publicKey (l : Link) (e : SlotEnt) : List Byte := if l.slot = 0 then l.keyIn else slotPublic e.attr e.area e.body

/-- Modulus length of an RSA link. -/
def Link.rsaK (l : Link) (e : SlotEnt) : Nat := if l.slot = 0 then l.keyLen - 4 else e.attr.keyLen

/-- KEY_LEN breaks R197 (the status of a KEY_LEN beside a slot: log 38). -/
def inlineLenBad (l : Link) : Bool :=
  if l.slot ≠ 0 then decide (l.keyLen ≠ 0)
  else if l.alg = 0x20 then decide (l.keyLen < 260 ∨ 1028 < l.keyLen)
  else if l.alg = 0x40 then decide (l.keyLen ≠ 60 ∧ l.keyLen ≠ 52)
  else decide (l.keyLen ≠ pubLen l.alg)

/-- An inline key that fails validation (R199). -/
def inlineInvalid (l : Link) : Bool := decide (l.slot = 0) && !publicKeyOk l.alg (l.keyLen - 4) l.keyIn

/-- A message longer than 65,536 bytes (R200). -/
def msgTooLong (l : Link) : Bool := decide (65536 < l.n)

/-! Checks before release (R204) -/

/-- The check of Table 8.5 on a signature: it verifies. -/
def signChecked (verify : SlotEnt → List Byte → List Byte → Bool) (e : SlotEnt) (x : List Byte) (r : Ended) : Option Bool :=
  match r with
  | .good sig _ => some (verify e x sig)
  | _ => none

/-- A check that two computations of a result agree: the model computes it once, so only the host's word makes it fail. -/
def twice (_ : SlotEnt) (_ : List Byte) (r : Ended) : Option Bool :=
  match r with
  | .good .. | .writes .. => some true
  | _ => none

/-- Draws the link's randomness as one request and goes on with it (R204). -/
def State.withRandom (s : State) (n : Nat) (f : State → List Byte → Ended × State) : Ended × State :=
  match s.request n with
  | (.got b, s) => f s b
  | (.wait, s) => (.later, s)
  | (.fail, s) => (.fail .entropyFail, s)

/-- The verdict of a verification. -/
def verdict (b : Bool) : Ended := if b then .good [] 0 else .fail .verifyFail

/-! RSA -/

def algRsa (a : Nat) : Bool := a == 0x20

def rsaForm : PkForm := { algs := algRsa, rsa := true }

/-- SLOT under a binding, or none for an inline key. -/
def orInline (l : Link) (u : SlotUse) : Option (Nat × SlotUse) := if l.slot = 0 then none else some (l.slot, u)

/-- RSA_OAEP_ENCRYPT. -/
def oaepEncryptPlan (_ : State) (l : Link) : Plan :=
  let f : PkForm := { rsaForm with ctx := algRsa }
  { paramRead := pkParamRead false l
    unsupported := l.optBad 0 || f.bad l
    slot := orInline l (pkUse false l (· == 0x23) false (some permEncrypt))
    badLen := fun e => !pkLenOk false l || inlineLenBad l || decide (l.rsaK e < l.n + 2 * hashLen l.rsaHash + 2)
    out := fun e => l.rsaK e
    body := fun s e _ _ x =>
      if inlineInvalid l then (.fail .verifyFail, s)
      else
        let k := l.rsaK e
        let pub := l.publicKey e
        s.withRandom (hashLen l.rsaHash) (fun s seed =>
          (.good (beBytes k (powMod (beNat (oaepEncode l.rsaHash l.ctx x seed k)) (beNat (pub.drop k)) (beNat (pub.take k)))) 0, s)) }

/-- Bytes of blinding an RSA private operation draws (Table 8.5). -/
def rsaBlind (k : Nat) : Nat := k + 24

/-- RSA_OAEP_DECRYPT. -/
def oaepDecryptPlan (_ : State) (l : Link) : Plan :=
  let f : PkForm := { rsaForm with ctx := algRsa }
  { paramRead := pkParamRead false l
    unsupported := l.optBad 0 || decide (1024 < l.n) || f.bad l
    slot := some (l.slot, pkUse false l (· == 0x23) true (some permDecrypt))
    badLen := fun e => !pkLenOk false l || decide (l.keyLen ≠ 0) || decide (l.n ≠ e.attr.keyLen)
    check := fun e x r =>
      let k := rsaOfBody e.attr.keyLen e.body
      match r with
      | .good .. | .fail .authFail | .fail .lenMismatch =>
        if k.n ≤ beNat x then none else some (decide (powMod (k.priv (beNat x)) k.e k.n = beNat x))
      | _ => none
    body := fun s e _ _ x =>
      let r := rsaOfBody e.attr.keyLen e.body
      s.withRandom (rsaBlind r.k) (fun s _ =>
        if r.n ≤ beNat x then (.fail .authFail, s)
        else
          match oaepDecode l.rsaHash l.ctx (beBytes r.k (r.priv (beNat x))) r.k with
          | none => (.fail .authFail, s)
          | some m => if l.outLen < m.length then (.fail .lenMismatch, s) else (.good m 0, s)) }

/-- Bits of a modulus less one: the encoded message of PSS. -/
def pssBits (n : Nat) : Nat := bitLen n - 1

/-- RSA_PSS_SIGN and RSA_PKCS1_SIGN. -/
def rsaSignPlan (pss : Bool) (_ : State) (l : Link) : Plan :=
  let f : PkForm := { rsaForm with salt := pss }
  { paramRead := pkParamRead false l
    unsupported := l.optBad 0 || f.bad l
    slot := some (l.slot, pkUse false l (· == 0x23) true (some permSign))
    badLen := fun _ => !pkLenOk false l || decide (l.keyLen ≠ 0) || decide (l.n ≠ hashLen l.rsaHash)
    out := fun e => e.attr.keyLen
    check := signChecked (fun e x sig =>
      let r := rsaOfBody e.attr.keyLen e.body
      let m := powMod (beNat sig) r.e r.n
      if pss then pssVerify l.rsaHash x (beBytes ((pssBits r.n + 7) / 8) m) l.saltLen (pssBits r.n)
      else decide (beBytes r.k m = pkcs1Encode l.rsaHash x r.k))
    body := fun s e _ _ x =>
      let r := rsaOfBody e.attr.keyLen e.body
      s.withRandom (l.saltLen + rsaBlind r.k) (fun s rnd =>
        let em := if pss then pssEncode l.rsaHash x (rnd.take l.saltLen) (pssBits r.n) else some (pkcs1Encode l.rsaHash x r.k)
        match em with
        | none => (.fail .lenMismatch, s)
        | some m => (.good (beBytes r.k (r.priv (beNat m))) 0, s)) }

/-- RSA_PSS_VERIFY and RSA_PKCS1_VERIFY. -/
def rsaVerifyPlan (pss : Bool) (_ : State) (l : Link) : Plan :=
  let f : PkForm := { rsaForm with salt := pss, sig := true }
  { paramRead := pkParamRead false l
    unsupported := l.optBad 0 || f.bad l
    slot := orInline l (pkUse false l (· == 0x23) false (some permVerify) verifyAuth)
    badLen := fun _ => !pkLenOk false l || inlineLenBad l || decide (l.n ≠ hashLen l.rsaHash)
    body := fun s e _ _ x =>
      let k := l.rsaK e
      let pub := l.publicKey e
      let n := beNat (pub.take k)
      let sig := beNat l.sigIn
      if inlineInvalid l || decide (l.sigLen ≠ k) || decide (n ≤ sig) then (.fail .verifyFail, s)
      else
        let m := powMod sig (beNat (pub.drop k)) n
        (verdict (if pss then decide (m < 2 ^ (8 * ((pssBits n + 7) / 8))) &&
            pssVerify l.rsaHash x (beBytes ((pssBits n + 7) / 8) m) l.saltLen (pssBits n)
          else decide (beBytes k m = pkcs1Encode l.rsaHash x k)), s) }

/-- RSA_PUBLIC_RAW. -/
def rsaRawPlan (_ : State) (l : Link) : Plan where
  paramRead := pkParamRead false l
  unsupported := l.optBad 0 || decide (1024 < l.n) || rsaForm.bad l
  slot := orInline l (pkUse false l (· == 0x23) false (some permVerify))
  badLen := fun e => !pkLenOk false l || inlineLenBad l || decide (l.n ≠ l.rsaK e)
  out := fun e => l.rsaK e
  body := fun s e _ _ x =>
    let k := l.rsaK e
    let pub := l.publicKey e
    let n := beNat (pub.take k)
    if inlineInvalid l then (.fail .verifyFail, s)
    else if n ≤ beNat x then (.fail .lenMismatch, s)
    else (.good (beBytes k (powMod (beNat x) (beNat (pub.drop k)) n)) 0, s)

/-! Key generation (R202) -/

/-- The private part of a parameter set from DRBG output, with 64 extra bits for a scalar of ECDSA (Table 8.5). -/
def keygenBytes (alg : Nat) : Nat :=
  if alg < 0x10 then (bitLen (curveOf alg).n + 64 + 7) / 8 else privLen alg

/-- A scalar below the order from extra random bits. -/
def scalarOf (c : Curve) (b : List Byte) : Nat :=
  beNat b / 2 ^ (8 * b.length - (bitLen c.n + 64)) % (c.n - 1) + 1

/-- The private part that the drawn bytes give. -/
def keygenPrivate (alg : Nat) (b : List Byte) : List Byte :=
  if alg < 0x10 then beBytes (privLen alg) (scalarOf (curveOf alg) b) else b

/-- The template's binding names ALG (R202). -/
def templateNames (t : Attr) (binding alg : Nat) : Bool := decide (t.binding.toNat = binding ∧ t.alg.toNat = alg)

/-- A key-generation opcode of one binding. -/
def keygenPlan (algs : Nat → Bool) (binding : Nat) (_ : State) (l : Link) : Plan :=
  let f : PkForm := { algs := algs, dest0 := false, dest1 := true }
  let t := Attr.parse l.pkTemplate
  { paramRead := pkParamRead false l
    unsupported := l.optBad 0 || decide (l.slot ≠ 0) || decide (l.n ≠ 0) || f.bad l
    dest := if pkLenOk false l then some (l.destSlot, { t with publicOnly := false }) else none
    denied := fun _ => pkLenOk false l && !templateNames t binding l.alg
    badLen := fun _ => !pkLenOk false l || decide (l.keyLen ≠ 0)
    out := fun _ => pubLen l.alg
    check := twice
    body := fun s _ _ _ _ =>
      s.withRandom (keygenBytes l.alg) (fun s b =>
        let p := keygenPrivate l.alg b
        (.writes [(l.destSlot, newPrivate t l.alg p s.po.tm)] none (publicOf l.alg p) (BitVec.ofNat 64 l.destSlot), s)) }

/-! ECDSA -/

def algEcdsa (a : Nat) : Bool := decide (1 ≤ a ∧ a ≤ 6)

/-- Lengths of a hash value (Table 8.4). -/
def hashLenOk (n : Nat) : Bool := [28, 32, 48, 64].contains n

/-- ECDSA_SIGN. -/
def ecdsaSignPlan (_ : State) (l : Link) : Plan where
  paramRead := pkParamRead false l
  unsupported := l.optBad 0 || ({ algs := algEcdsa } : PkForm).bad l
  slot := some (l.slot, pkUse false l (· == 0x20) true (some permSign))
  badLen := fun _ => !pkLenOk false l || decide (l.keyLen ≠ 0) || !hashLenOk l.n
  out := fun e => sigLen e.attr.alg.toNat
  check := signChecked (fun e x sig =>
    match (curveOf e.attr.alg.toNat).decode (slotPublic e.attr e.area e.body) with
    | some q => (curveOf e.attr.alg.toNat).verify q x sig
    | none => false)
  body := fun s e _ _ x =>
    let c := curveOf e.attr.alg.toNat
    let kb := keygenBytes e.attr.alg.toNat
    s.withRandom (kb + 8 + c.len) (fun s rnd =>
      match c.sign (beNat (e.area.take (privLen e.attr.alg.toNat))) (scalarOf c (rnd.take kb)) x with
      | some sig => (.good sig 0, s)
      | none => (.fail .verifyFail, s))

/-- A single verification of a message, or with `isHash` of a hash value: the opcode's form, its binding, and its
equation. A hash value of a wrong length gives LEN_MISMATCH, a message that is too long UNSUPPORTED (R200). -/
def verifyPlan (f : PkForm) (isHash : Bool) (binding : Nat) (equation : Nat → List Byte → List Byte → List Byte → List Byte → Bool)
    (_ : State) (l : Link) : Plan where
  paramRead := pkParamRead false l
  unsupported := l.optBad 0 || (!isHash && msgTooLong l) || f.bad l
  slot := orInline l (pkUse false l (· == binding) false (some permVerify) verifyAuth)
  badLen := fun _ => !pkLenOk false l || inlineLenBad l || (isHash && !hashLenOk l.n)
  body := fun s e _ _ x =>
    if inlineInvalid l || (decide (l.alg ≠ 0x40) && decide (l.sigLen ≠ sigLen l.alg)) then (.fail .verifyFail, s)
    else (verdict (equation l.alg (l.publicKey e) l.ctx x l.sigIn), s)

/-- ECDSA_VERIFY. -/
def ecdsaVerifyPlan : State → Link → Plan :=
  verifyPlan { algs := algEcdsa, sig := true } true 0x20 (fun alg pub _ h sig =>
    match (curveOf alg).decode pub with
    | some q => (curveOf alg).verify q h sig
    | none => false)

/-! EdDSA -/

def algEddsa (a : Nat) : Bool := decide (a = 0x10 ∨ a = 0x11)
def ctxEd448 (a : Nat) : Bool := decide (a = 0x11)

/-- EDDSA_SIGN. -/
def eddsaSignPlan (_ : State) (l : Link) : Plan where
  paramRead := pkParamRead false l
  unsupported := l.optBad 0 || msgTooLong l || ({ algs := algEddsa, ctx := ctxEd448 } : PkForm).bad l
  slot := some (l.slot, pkUse false l (· == 0x21) true (some permSign))
  badLen := fun _ => !pkLenOk false l || decide (l.keyLen ≠ 0)
  out := fun e => sigLen e.attr.alg.toNat
  check := signChecked (fun e x sig =>
    (edwardsOf e.attr.alg.toNat).verify (slotPublic e.attr e.area e.body) l.ctx x sig)
  body := fun s e _ _ x =>
    let c := edwardsOf e.attr.alg.toNat
    s.withRandom (8 + c.len) (fun s _ => (.good (c.sign (e.area.take c.len) l.ctx x) 0, s))

/-- EDDSA_VERIFY. -/
def eddsaVerifyPlan : State → Link → Plan :=
  verifyPlan { algs := algEddsa, ctx := ctxEd448, sig := true } false 0x21
    (fun alg pub ctx m sig => (edwardsOf alg).verify pub ctx m sig)

/-! Batches (R210–R213) -/

/-- Reads the packed items of a batch: key, signature and message of each (Table 8.8). -/
def batchItems (keyLen sigLen n : Nat) (b : List Byte) : Except Status (List (List Byte × List Byte × List Byte)) :=
  match n with
  | 0 => if b.isEmpty then .ok [] else .error .lenMismatch
  | k + 1 =>
    let m := fieldAt b 0 4
    let body := 8 + keyLen + sigLen + m
    let pad := (8 - body % 8) % 8
    if b.length < 8 then .error .lenMismatch
    else if 65536 < m ∨ fieldAt b 4 4 ≠ 0 then .error .unsupported
    else if b.length < body + pad then .error .lenMismatch
    else if allZero (slice b body pad) = false then .error .unsupported
    else
      match batchItems keyLen sigLen k (b.drop (body + pad)) with
      | .error e => .error e
      | .ok r => .ok ((slice b 8 keyLen, slice b (8 + keyLen) sigLen, slice b (8 + keyLen + sigLen) m) :: r)

/-- An item of an EdDSA batch with its number. -/
abbrev EdItem := Nat × (EPoint × Nat × EPoint × Nat)

/-- Exact single verification of a decoded item (R199). -/
def edExact (c : Edwards) (x : EPoint × Nat × EPoint × Nat) : Bool :=
  let (r, s, a, k) := x
  c.same (c.mul (8 * s) c.base) (c.mul 8 (c.add r (c.mul k a)))

/-- A non-zero scalar from 16 bytes (0 is read as 1: log 39). -/
def batchScalar (b : List Byte) : Nat := max 1 (leNat b)

/-- The bisection of R211: the valid items' numbers. -/
def State.bisect (c : Edwards) (fuel : Nat) (l : List EdItem) (s : State) : Except Ended (List Nat × State) :=
  match fuel with
  | 0 => .ok ([], s)
  | f + 1 =>
    if l.isEmpty then .ok ([], s)
    else
      match s.request (16 * l.length) with
      | (.wait, _) => .error .later
      | (.fail, _) => .error (.fail .entropyFail)
      | (.got b, s) =>
        if c.batchCheck ((l.map (·.2)).zip ((chunks 16 b).map batchScalar)) then .ok (l.map (·.1), s)
        else
          let h := (l.length + 1) / 2
          let half (x : List EdItem) (s : State) : Except Ended (List Nat × State) :=
            if x.length ≤ 4 then .ok ((x.filter (fun i => edExact c i.2)).map (·.1), s) else State.bisect c f x s
          match half (l.take h) s with
          | .error e => .error e
          | .ok (v1, s) =>
            match half (l.drop h) s with
            | .error e => .error e
            | .ok (v2, s) => .ok (v1 ++ v2, s)

/-- OK or VERIFY_FAIL with the bitmap in RESULT (R213). -/
def bitmapEnd (n : Nat) (valid : List Nat) : Ended :=
  let bits := BitVec.ofNat 64 ((valid.map (fun i => 2 ^ i)).sum)
  if valid.length = n then .good [] bits else .failWith .verifyFail bits

/-- A batch opcode: its form, binding, and the decision over the items. -/
def batchPlan (f : PkForm) (binding : Nat)
    (decideItems : State → Nat → List Byte → List (List Byte × List Byte × List Byte) → Except Ended (List Nat × State))
    (_ : State) (l : Link) : Plan where
  paramRead := pkParamRead true l
  unsupported := l.optBad 0 || decide (l.aux < 2 ∨ 64 < l.aux) || f.bad l
  slot := orInline l (pkUse true l (· == binding) false (some permVerify) verifyAuth)
  badLen := fun _ => !pkLenOk true l || inlineLenBad l
  body := fun s e _ _ x =>
    match batchItems l.keyLen (sigLen l.alg) l.aux x with
    | .error st => (.fail st, s)
    | .ok items =>
      let items := if l.slot = 0 then items else items.map (fun i => (l.publicKey e, i.2))
      match decideItems s l.alg l.ctx items with
      | .error r => (r, s)
      | .ok (v, s) => (bitmapEnd l.aux v, s)

/-- EDDSA_VERIFY_BATCH. -/
def eddsaBatchPlan : State → Link → Plan :=
  batchPlan { algs := algEddsa, ctx := ctxEd448, batch := true } 0x21 (fun s alg ctx items =>
    let c := edwardsOf alg
    let good := (items.zipIdx).filterMap (fun p => (c.item p.1.1 ctx p.1.2.2 p.1.2.1).map (fun x => (p.2, x)))
    State.bisect c 8 good s)

/-! XDH (R202, R204) -/

def algXdh (a : Nat) : Bool := decide (a = 0x18 ∨ a = 0x19)

/-- Bytes of a shared secret. -/
def secretLen (alg : Nat) : Nat := if alg = 0x19 then 56 else 32

/-- A template that a shared secret may fill, KEY_LEN apart (R202). -/
def secretBinding (t : Attr) : Bool :=
  decide (t.binding.toNat = 0x18) || bindingSym t.binding.toNat || bindingHmac t.binding.toNat

/-- Where a shared secret goes: the output, or a new slot (R202); `parent` is the private key's slot. -/
def Link.placeSecret (l : Link) (now : DWord) (parent : Option Nat) (before secret : List Byte) : Ended :=
  if l.destFlag = 0 then .good (before ++ secret) 0
  else
    let t := Attr.parse l.pkTemplate
    if xtsEqual t.binding.toNat secret then .fail .keyDenied
    else .writes [(l.destSlot, newSecret t secret parent now)] none before (BitVec.ofNat 64 l.destSlot)

/-- The denials of an opcode that delivers a secret under a slot: narrowing, or wrap-export permission (R202). -/
def secretDenied (l : Link) (e : SlotEnt) : Bool :=
  pkLenOk false l &&
  (if l.destFlag = 1 then
    !narrows e.attr (Attr.parse l.pkTemplate) l.fn false false || !secretBinding (Attr.parse l.pkTemplate)
   else !e.attr.perms.getLsbD permExport)

/-- The template's KEY_LEN is not the secret's. -/
def secretLenBad (l : Link) : Bool := decide (l.destFlag = 1 ∧ (Attr.parse l.pkTemplate).keyLen ≠ secretLen l.alg)

/-- XDH_AGREE. -/
def xdhAgreePlan (_ : State) (l : Link) : Plan where
  paramRead := pkParamRead false l
  unsupported := l.optBad 0 || decide (56 < l.n) || ({ algs := algXdh, dest1 := true } : PkForm).bad l
  slot := some (l.slot, pkUse false l (· == 0x22) true (some permDerive))
  dest := if pkLenOk false l && decide (l.destFlag = 1) then some (l.destSlot, Attr.parse l.pkTemplate) else none
  denied := secretDenied l
  badLen := fun _ => !pkLenOk false l || decide (l.keyLen ≠ 0) || decide (l.n ≠ pubLen l.alg) || secretLenBad l
  out := fun _ => if l.destFlag = 0 then secretLen l.alg else 0
  check := twice
  body := fun s e _ _ x =>
    let n := privLen e.attr.alg.toNat
    s.withRandom (2 * n) (fun s _ =>
      let z := xdh (decide (e.attr.alg.toNat = 0x19)) (e.area.take n) x
      (if allZero z then .fail .verifyFail else l.placeSecret s.po.tm (some l.slot) [] z, s))

/-! Public keys of slots -/

/-- PK_PUBLIC and PK_PUBLIC_PQ: the parameter sets served, and their bindings. -/
def pkPublicPlan (algs : Nat → Bool) (binding : Nat → Bool) (_ : State) (l : Link) : Plan where
  paramRead := pkParamRead false l
  unsupported := l.optBad 0 || decide (l.n ≠ 0) || ({ algs := algs } : PkForm).bad l
  slot := some (l.slot, pkUse false l binding false none)
  badLen := fun _ => !pkLenOk false l || decide (l.keyLen ≠ 0)
  out := fun e => (slotPublic e.attr e.area e.body).length
  body := fun s e _ _ _ => (.good (slotPublic e.attr e.area e.body) 0, s)

def algClassic (a : Nat) : Bool := algRsa a || algEcdsa a || algEddsa a || algXdh a
def bindingClassic (b : Nat) : Bool := decide (0x20 ≤ b ∧ b ≤ 0x23)
def algKem (a : Nat) : Bool := decide (0x30 ≤ a ∧ a ≤ 0x32)
def algDsa (a : Nat) : Bool := decide (0x38 ≤ a ∧ a ≤ 0x3A)
def algHss (a : Nat) : Bool := a == 0x40
def algSlh (a : Nat) : Bool := decide (0x48 ≤ a ∧ a ≤ 0x53)
def algPq (a : Nat) : Bool := algKem a || algDsa a || algHss a || algSlh a
def bindingPq (b : Nat) : Bool := decide (0x24 ≤ b ∧ b ≤ 0x27)

/-! ML-KEM -/

/-- MLKEM_ENCAPS. -/
def encapsPlan (_ : State) (l : Link) : Plan where
  paramRead := pkParamRead false l
  unsupported := l.optBad 0 || decide (l.n ≠ 0) || ({ algs := algKem, dest1 := true } : PkForm).bad l
  slot := orInline l (pkUse false l (· == 0x24) false (some permEncrypt))
  dest := if pkLenOk false l && decide (l.destFlag = 1) then some (l.destSlot, Attr.parse l.pkTemplate) else none
  denied := fun _ => pkLenOk false l && decide (l.destFlag = 1) && !secretBinding (Attr.parse l.pkTemplate)
  badLen := fun _ => !pkLenOk false l || inlineLenBad l || secretLenBad l
  out := fun _ => sigLen l.alg + (if l.destFlag = 0 then 32 else 0)
  body := fun s e _ _ _ =>
    if inlineInvalid l then (.fail .verifyFail, s)
    else s.withRandom 32 (fun s m =>
      let (k, c) := kemEncaps l.alg (l.publicKey e) m
      (l.placeSecret s.po.tm none c k, s))

/-- MLKEM_DECAPS. -/
def decapsPlan (_ : State) (l : Link) : Plan where
  paramRead := pkParamRead false l
  unsupported := l.optBad 0 || decide (1568 < l.n) || ({ algs := algKem, dest1 := true } : PkForm).bad l
  slot := some (l.slot, pkUse false l (· == 0x24) true (some permDerive))
  dest := if pkLenOk false l && decide (l.destFlag = 1) then some (l.destSlot, Attr.parse l.pkTemplate) else none
  denied := secretDenied l
  badLen := fun _ => !pkLenOk false l || decide (l.keyLen ≠ 0) || decide (l.n ≠ sigLen l.alg) || secretLenBad l
  out := fun _ => if l.destFlag = 0 then 32 else 0
  check := twice
  body := fun s e _ _ x =>
    s.withRandom 32 (fun s _ =>
      (l.placeSecret s.po.tm (some l.slot) [] (kemDecaps e.attr.alg.toNat (e.area.take 64) x), s))

/-! ML-DSA, HSS, SLH-DSA -/

/-- MLDSA_SIGN; OPT bit 0 is DETERMINISTIC (R197). -/
def mldsaSignPlan (_ : State) (l : Link) : Plan where
  paramRead := pkParamRead false l
  unsupported := l.optBad 1 || msgTooLong l || ({ algs := algDsa, ctx := algDsa } : PkForm).bad l
  slot := some (l.slot, pkUse false l (· == 0x25) true (some permSign))
  badLen := fun _ => !pkLenOk false l || decide (l.keyLen ≠ 0)
  out := fun e => sigLen e.attr.alg.toNat
  check := signChecked (fun e x sig => dsaVerify e.attr.alg.toNat (slotPublic e.attr e.area e.body) l.ctx x sig)
  body := fun s e _ _ x =>
    let go (s : State) (rnd : List Byte) : Ended × State :=
      match dsaSign e.attr.alg.toNat (e.area.take 32) rnd l.ctx x with
      | some (sig, it) => (.good sig (BitVec.ofNat 64 it), s)
      | none => (.fail .verifyFail, s)
    if l.opt % 2 = 1 then go s (zeros 32) else s.withRandom 32 go

/-- MLDSA_VERIFY. -/
def mldsaVerifyPlan : State → Link → Plan :=
  verifyPlan { algs := algDsa, ctx := algDsa, sig := true } false 0x25 dsaVerify

/-- MLDSA_VERIFY_BATCH. -/
def mldsaBatchPlan : State → Link → Plan :=
  batchPlan { algs := algDsa, ctx := algDsa, batch := true } 0x25 (fun s alg ctx items =>
    .ok ((items.zipIdx.filter (fun p => dsaVerify alg p.1.1 ctx p.1.2.2 p.1.2.1)).map (·.2), s))

/-- HSS_VERIFY. -/
def hssVerifyPlan : State → Link → Plan :=
  verifyPlan { algs := algHss, sig := true } false 0x26 (fun _ pub _ m sig => hssVerify pub m sig)

/-- SLHDSA_VERIFY. -/
def slhVerifyPlan : State → Link → Plan :=
  verifyPlan { algs := algSlh, sig := true } false 0x27 (fun alg pub _ m sig => slhVerify alg pub m sig)

/-! RANDOM -/

/-- RANDOM; OPT bit 0 is PR, on rings of function 0 only (R197, R200, R217). -/
def randomPlan (_ : State) (l : Link) : Plan where
  unsupported := l.optBad 1 || (decide (l.opt % 2 = 1) && decide (l.fn ≠ 0)) || decide (l.slot ≠ 0) || decide (l.n ≠ 0) ||
    decide (l.aux < 1 ∨ 65536 < l.aux)
  badLen := fun _ => !l.paramIs 0
  out := fun _ => l.aux
  body := fun s _ _ _ _ =>
    match s.request l.aux (decide (l.opt % 2 = 1)) with
    | (.got b, s) => (.good b 0, s)
    | (.wait, s) => (.later, s)
    | (.fail, s) => (.fail .entropyFail, s)

end Sys2Proof.Machine
end

