-- ==== Sys2Proof/Machine/Vault.lean ====
section
/-! DEFINITION. The vault opcodes (10_plate_vault.md R263–R269). -/

namespace Sys2Proof.Machine

/-! The parameter block (Table 10.13) -/

def Link.vDest (l : Link) : Nat := l.pf 0 4
def Link.vWrap (l : Link) : Nat := l.pf 4 4
def Link.vKeyLen (l : Link) : Nat := l.pf 8 2
def Link.vTemplate (l : Link) : List Byte := slice l.param 0x10 64
def Link.vAttr (l : Link) : Attr := Attr.parse l.vTemplate

/-- Which fields an opcode uses. -/
structure VaultForm where
  dest : Bool := false
  wrap : Bool := false
  keyLen : Bool := false
  template : Bool := true
  /-- SLOT names a slot; otherwise it must be 0. -/
  slot : Bool := true
  /-- The opcode takes an input. -/
  input : Bool := false

/-- Fields that give UNSUPPORTED (R247, R263). -/
def VaultForm.bad (f : VaultForm) (l : Link) : Bool :=
  l.optBad 0 || (!f.slot && decide (l.slot ≠ 0)) || (!f.input && decide (l.n ≠ 0)) ||
  (l.paramIs 80 && !(
    (if f.dest then decide (l.vDest < 2 ^ 19) else decide (l.vDest = 0)) &&
    (if f.wrap then decide (l.vWrap < 2 ^ 19) else decide (l.vWrap = 0)) &&
    (f.keyLen || decide (l.vKeyLen = 0)) && allZero (slice l.param 0x0A 6) && (!f.template || templateOk l.vTemplate)))

/-- The parameter block is read only when PARAM_LEN is 80. -/
def vaultRead (l : Link) : Nat := if l.paramIs 80 then 80 else 0

/-- DEST_SLOT under the creation rules; the block sets PUBLIC_ONLY itself (R247). -/
def Link.vFill (l : Link) (pub : Bool := false) : Option (Nat × Attr) :=
  if l.paramIs 80 then some (l.vDest, { l.vAttr with publicOnly := pub }) else none

/-- A new slot's blob key: 32 bytes of one request, in the key area with BODY_LEN (R249, Table 10.5). -/
def State.withBlob (s : State) (e : SlotEnt) (f : State → SlotEnt → Ended × State) : Ended × State :=
  if e.attr.blob then
    s.withRandom 32 (fun s k => f s { e with area := area160 (k ++ leBytes 4 e.body.length) })
  else f s e

/-- The key area under a template's HMAC_STATES, from a kept key; other areas are copied (R248). -/
def rekeyArea (t : Attr) (e : SlotEnt) : List Byte × Bool :=
  if bindingHmac t.binding.toNat && e.attr.keyKept then secretArea t.binding.toNat t.hmacStates e.key
  else (e.area, e.attr.keyKept)

/-! VAULT_CREATE -/

/-- Draws a key; equal XTS halves are drawn again. -/
def State.drawKey (fuel : Nat) (binding n : Nat) (s : State) : Drawn × State :=
  match fuel with
  | 0 => (.fail, s)
  | f + 1 =>
    match s.request n with
    | (.got b, s) => if xtsEqual binding b then State.drawKey f binding n s else (.got b, s)
    | r => r

/-- VAULT_CREATE. -/
def createPlan (_ : State) (l : Link) : Plan where
  paramRead := vaultRead l
  unsupported := ({ dest := true, keyLen := true, slot := false } : VaultForm).bad l
  dest := l.vFill
  denied := fun _ => l.paramIs 80 && !bindingSecretKey l.vAttr.binding.toNat
  badLen := fun _ => !l.paramIs 80 || decide (l.vKeyLen ≠ l.vAttr.keyLen)
  body := fun s _ _ _ _ =>
    match State.drawKey 64 l.vAttr.binding.toNat l.vKeyLen s with
    | (.got k, s) => (.writes [(l.vDest, newSecret l.vAttr k none s.po.tm)] none [] (BitVec.ofNat 64 l.vDest), s)
    | (.wait, s) => (.later, s)
    | (.fail, s) => (.fail .entropyFail, s)

/-! Transfers (Table 10.15) -/

/-- A key transfer before wrapping. -/
def transferBytes (kind slot : Nat) (e : SlotEnt) : List Byte :=
  let m := if e.attr.blob then e.body else fit 160 e.area
  [0x01, BitVec.ofNat 8 kind, 0, 0] ++ leBytes 4 slot ++ leBytes 4 m.length ++ zeros 4 ++ e.attr.bytes ++ m

/-- The slot a transfer carries, when it keeps Table 10.15: its number and contents. -/
def parseTransfer (kind : Nat) (b : List Byte) : Option (Nat × SlotEnt) :=
  let n := fieldAt b 8 4
  let a := Attr.parse (slice b 0x10 64)
  let m := b.drop 0x50
  if b.getD 0 0 = 1 ∧ (b.getD 1 9).toNat = kind ∧ fieldAt b 2 2 = 0 ∧ fieldAt b 4 4 < 2 ^ 19 ∧ fieldAt b 0x0C 4 = 0 ∧
      0x50 ≤ b.length ∧ m.length = n ∧ (if a.blob then n ≤ 4016 else n = 160) then
    some (fieldAt b 4 4, { attr := a, area := if a.blob then [] else m, body := if a.blob then m else [] })
  else none

/-- A use of an ordinary AES-KW slot to unwrap, or to wrap. -/
def kwSlot (perm : Nat) : SlotUse := keyUse (· == 6) perm

/-- An AES-KW authority slot: 8, or a registered one, from an authority ring (Table 10.16). -/
def kwAuth : SlotUse :=
  { auth := fun n a => (decide (n = 8) || decide (16 ≤ n)) && decide (a.binding.toNat = 6), suits := fun e => decide (e.attr.binding.toNat = 6) }

/-- The same of a slot that must be an authority slot. -/
def kwWrapAuth (slot : Nat) : SlotUse := { kwAuth with suits := fun e => decide (slot < 256) && kwAuth.suits e }

/-- Lengths of a wrapped transfer. -/
def transferLenBad (l : Link) : Bool := decide (l.n < 24 ∨ l.n % 8 ≠ 0)

/-- VAULT_IMPORT. -/
def importPlan (_ : State) (l : Link) : Plan where
  paramRead := vaultRead l
  unsupported := ({ dest := true, input := true } : VaultForm).bad l || decide (4104 < l.n)
  slot := some (l.slot, kwSlot permDecrypt)
  dest := l.vFill
  badLen := fun _ => !l.paramIs 80 || transferLenBad l
  body := fun s e _ _ x =>
    match (kwpUnwrapAll e.key x).bind (parseTransfer 0) with
    | none => (.fail .authFail, s)
    | some (_, src) =>
      let t := l.vAttr
      let same := decide (t.binding = src.attr.binding ∧ t.alg = src.attr.alg ∧ t.keyLen = src.attr.keyLen)
      let blobOk := !src.attr.blob || decide (l.vDest < 8192 ∧ s.vt.blobValid = true)
      if !same || !narrows src.attr t l.fn true false || !blobOk || xtsEqual t.binding.toNat src.key then
        (.fail .keyDenied, s)
      else
        let (area, kept) := rekeyArea t src
        let a := { newAttr t kept false src.attr.blob none s.po.tm with usageCount := src.attr.usageCount }
        let new : SlotEnt := { attr := a, area := area, body := src.body }
        s.withBlob new (fun s n => (.writes [(l.vDest, n.exact)] none [] (BitVec.ofNat 64 l.vDest), s))

/-- VAULT_EXPORT: AEAD slots are retired for encryption at once, and the exact counts are written (R252, R266). -/
def exportPlan (s0 : State) (l : Link) : Plan where
  paramRead := vaultRead l
  unsupported := ({ wrap := true, template := false } : VaultForm).bad l
  slot := some (l.slot, { perm := some permExport, consumes := true, needsBlob := true })
  wrap := if l.paramIs 80 then some (l.vWrap, kwSlot permEncrypt) else none
  denied := fun e => !e.attr.keyKept || (e.attr.blob && !s0.vt.blobValid) ||
    decide (((s0.current l.slot).getD e).attr.binding = 0)
  badLen := fun _ => !l.paramIs 80
  out := fun e => kwpLen (0x50 + (if e.attr.blob then e.body.length else 160))
  body := fun s e w _ _ =>
    let live := { (s.current l.slot).getD e with body := e.body }
    let retired := live.attr.encRetired || bindingAead live.attr.binding.toNat
    (.writes [(l.slot, { live.exact with attr := { live.attr with encRetired := retired }, body := [] })] none
      (kwpWrapAll w.key (transferBytes 0 l.slot live)) 0, s)

/-- VAULT_IMPORT_PUBLIC (a TEMPLATE whose PERMS hold more than verify and encrypt, or whose binding is no public-key one, is
denied: log 41). -/
def importPublicPlan (_ : State) (l : Link) : Plan where
  paramRead := vaultRead l
  unsupported := ({ dest := true, slot := false, input := true } : VaultForm).bad l || decide (2592 < l.n)
  dest := l.vFill true
  denied := fun _ => l.paramIs 80 && (!bindingPublic l.vAttr.binding.toNat || decide (l.vAttr.perms &&& 0x76 ≠ 0))
  badLen := fun _ => !l.paramIs 80 || publicLenBad l
  body := fun s _ _ _ x =>
    let t := l.vAttr
    let alg := t.alg.toNat
    if publicKeyOk alg t.keyLen x = false then (.fail .verifyFail, s)
    else
      let blob := decide (alg = 0x20 ∨ (0x30 ≤ alg ∧ alg ≤ 0x3A))
      let new : SlotEnt := {
        attr := newAttr t true true blob none s.po.tm, area := if blob then [] else area160 x, body := if blob then x else [] }
      s.withBlob new (fun s n => (.writes [(l.vDest, n)] none [] (BitVec.ofNat 64 l.vDest), s))
where
  /-- The input is not as long as a public key of the template. -/
  publicLenBad (l : Link) : Bool :=
    let alg := l.vAttr.alg.toNat
    if alg = 0x20 then decide (l.n ≠ l.vAttr.keyLen + 4)
    else if alg = 0x40 then decide (l.n ≠ 60 ∧ l.n ≠ 52)
    else decide (l.n ≠ pubLen alg)

/-! Attributes of slots -/

/-- A template clears HMAC_STATES of a slot that has only its states (R248). -/
def clearsStates (t : Attr) (e : SlotEnt) : Bool := !e.attr.keyKept && !t.hmacStates

/-- BINDING and ALG are the slot's. -/
def sameKind (t : Attr) (e : SlotEnt) : Bool := decide (t.binding = e.attr.binding ∧ t.alg = e.attr.alg)

/-- VAULT_DERIVE. -/
def derivePlan (_ : State) (l : Link) : Plan where
  paramRead := vaultRead l
  unsupported := ({ dest := true } : VaultForm).bad l
  slot := some (l.slot, { perm := some permDerive, consumes := true, needsBlob := true })
  dest := l.vFill
  denied := fun e => l.paramIs 80 && (!narrows e.attr l.vAttr l.fn false false || !sameKind l.vAttr e ||
    bindingAead e.attr.binding.toNat || clearsStates l.vAttr e || (e.attr.blob && decide (8192 ≤ l.vDest)))
  badLen := fun e => !l.paramIs 80 || decide (l.vAttr.keyLen ≠ e.attr.keyLen)
  body := fun s e _ _ _ =>
    let (area, kept) := rekeyArea l.vAttr e
    let new : SlotEnt := {
      attr := newAttr l.vAttr kept false e.attr.blob (some l.slot) s.po.tm, area := area, body := e.body }
    s.withBlob new (fun s n => (.writes [(l.vDest, n)] none [] (BitVec.ofNat 64 l.vDest), s))

/-- VAULT_SET_ATTR. -/
def setAttrPlan (s0 : State) (l : Link) : Plan where
  paramRead := vaultRead l
  unsupported := ({} : VaultForm).bad l
  slot := some (l.slot, { ownerOnly := true })
  denied := fun e =>
    let e := (s0.current l.slot).getD e
    l.paramIs 80 && (!narrows e.attr l.vAttr l.fn false true || !sameKind l.vAttr e ||
      decide (l.vAttr.keyLen ≠ e.attr.keyLen) || clearsStates l.vAttr e)
  badLen := fun _ => !l.paramIs 80
  body := fun s e _ _ _ =>
    let live := (s.current l.slot).getD e
    let (area, kept) := if l.vAttr.hmacStates = live.attr.hmacStates then (live.area, live.attr.keyKept) else rekeyArea l.vAttr live
    let a := { l.vAttr with
      publicOnly := live.attr.publicOnly, blob := live.attr.blob, keyKept := kept, encRetired := live.attr.encRetired,
      hasParent := live.attr.hasParent, parent := live.attr.parent, usageCount := live.attr.usageCount,
      created := live.attr.created }
    (.writes [(l.slot, { live with attr := a, area := area, body := [] })] none [] 0, s)

/-- VAULT_QUERY. -/
def queryPlan (_ : State) (l : Link) : Plan where
  unsupported := ({ template := false } : VaultForm).bad l
  slot := some (l.slot, { auth := fun n _ => decide (16 ≤ n), query := true })
  badLen := fun _ => !l.paramIs 0
  out := fun _ => 96
  body := fun s e _ _ _ =>
    let aead := bindingAead e.attr.binding.toNat
    (.good (e.attr.bytes ++ leBytes 8 (if aead then invBuilt e.area else 0) ++ leBytes 8 (if aead then invOther e.area else 0) ++
      leBytes 8 e.leaf ++ zeros 8) 0, s)

/-- VAULT_RETIRE. -/
def retirePlan (_ : State) (l : Link) : Plan where
  unsupported := ({ template := false } : VaultForm).bad l
  slot := some (l.slot, { ownerOnly := true, anyFn := l.auth })
  badLen := fun _ => !l.paramIs 0
  body := fun s _ _ _ _ => (.writes [(l.slot, {})] none [] 0, s)

/-! Authority opcodes -/


/-- VAULT_AUTH_REGISTER: from a public key, or from an ordinary AES-KW slot of function 0. -/
def authRegisterPlan (s0 : State) (l : Link) : Plan where
  paramRead := vaultRead l
  unsupported := ({ dest := true, input := true } : VaultForm).bad l || decide (1 < l.aux) || (decide (l.slot ≠ 0) && decide (l.n ≠ 0)) ||
    decide (2592 < l.n)
  slot := if l.auth && decide (l.slot ≠ 0) then some (l.slot, { kwSlot permExport with ownerOnly := true }) else none
  denied := fun _ => !l.auth || !s0.imageReady || (l.paramIs 80 && (decide (l.vDest < 16 ∨ 255 < l.vDest) ||
    decide ((s0.latestRegs.get {} l.vDest).attr.binding ≠ 0) ||
    (if l.slot = 0 then !bindingPublic l.vAttr.binding.toNat || blobBinding { l.vAttr with publicOnly := true }
     else decide (l.vAttr.binding.toNat ≠ 6))))
  badLen := fun e => !l.paramIs 80 ||
    (if l.slot = 0 then importPublicPlan.publicLenBad l else decide (l.vAttr.keyLen ≠ e.attr.keyLen))
  body := fun s e _ _ x =>
    let locked := decide (l.aux = 1)
    let put (a : Attr) (area : List Byte) : Tab RegSlot :=
      s.latestRegs.set {} l.vDest { attr := a, area := area, locked := locked }
    let res := BitVec.ofNat 64 l.vDest
    if l.slot = 0 then
      if publicKeyOk l.vAttr.alg.toNat l.vAttr.keyLen x = false then (.fail .verifyFail, s)
      else (.writes [] (some (put (newAttr l.vAttr true true false none s.po.tm) (area160 x))) [] res, s)
    else (.writes [(l.slot, {})] (some (put (newAttr l.vAttr true false false none s.po.tm) (area160 e.key))) [] res, s)

/-- VAULT_AUTH_CLEAR. -/
def authClearPlan (s0 : State) (l : Link) : Plan where
  unsupported := ({ template := false } : VaultForm).bad l
  denied := fun _ =>
    let r := s0.latestRegs.get {} l.slot
    !l.auth || !s0.imageReady || decide (l.slot < 16 ∨ 255 < l.slot) || decide (r.attr.binding = 0) || r.locked
  badLen := fun _ => !l.paramIs 0
  body := fun s _ _ _ _ => (.writes [] (some (s.latestRegs.erase l.slot)) [] 0, s)

/-- VAULT_REKEY_SWEEP: a sweep that stopped is resumed, a running one gives OVERLOAD (R269, R270). -/
def sweepPlan (s0 : State) (l : Link) : Plan where
  unsupported := ({ template := false, slot := false } : VaultForm).bad l || decide (l.aux % 65536 = 0 ∨ 2 ^ 17 ≤ l.aux)
  denied := fun _ => !l.auth || !s0.imageReady
  badLen := fun _ => !l.paramIs 0
  body := fun s _ _ _ _ =>
    if s.d0.sweepActive && !s.vt.stopped then (.fail .overload, s)
    else
      let s := s.modVt (fun v => { v with
        stopped := false, sweepClear := decide (2 ^ 16 ≤ l.aux), sweepRate := BitVec.ofNat 16 l.aux })
      let s := if s.d0.sweepActive then s
        else (s.modD0 (fun d => { d with epoch := d.epoch + 1, sweepActive := true, sweepPos := 256 })).modVt (fun v => { v with
          sweepAt := 256 })
      (.good [] 0, s.sweepRead)

/-- VAULT_ESCROW_EXPORT: changes nothing. -/
def escrowExportPlan (s0 : State) (l : Link) : Plan where
  paramRead := vaultRead l
  unsupported := ({ wrap := true, template := false } : VaultForm).bad l
  slot := if l.auth then some (l.slot, { anyFn := true, needsBlob := true }) else none
  wrap := if l.auth && l.paramIs 80 then some (l.vWrap, kwWrapAuth l.vWrap) else none
  denied := fun e => !l.auth || !e.attr.keyKept || (e.attr.blob && !s0.vt.blobValid) ||
    (l.paramIs 80 && decide (l.vWrap ≠ 8) && !e.attr.perms.getLsbD permExport)
  badLen := fun _ => !l.paramIs 80
  out := fun e => kwpLen (0x50 + (if e.attr.blob then e.body.length else 160))
  body := fun s e w _ _ => (.good (kwpWrapAll w.key (transferBytes 1 l.slot ((assoc s.vt.slots l.slot).getD e))) 0, s)

/-- The slot that an escrow transfer restores, if it unwraps. -/
def State.escrowIn (s : State) (l : Link) : Option (Nat × SlotEnt) :=
  match s.authEnt l.slot, (s.inputOf l).1 with
  | some e, some x => (kwpUnwrapAll e.key x).bind (parseTransfer 1)
  | _, _ => none

/-- VAULT_ESCROW_IMPORT: the slot at SOURCE_SLOT returns with its attributes whole; ENC_RETIRED when its FAMILY is not 0
(R266). -/
def escrowImportPlan (s0 : State) (l : Link) : Plan where
  paramRead := vaultRead l
  unsupported := ({ input := true, template := false } : VaultForm).bad l || decide (4104 < l.n)
  slot := if l.auth then some (l.slot, kwWrapAuth l.slot) else none
  dest := if l.auth && l.paramIs 80 then (s0.escrowIn l).map (fun p =>
    (p.1, { p.2.attr with publicOnly := p.2.attr.publicOnly || p.2.attr.blob })) else none
  denied := fun _ => !l.auth
  badLen := fun _ => !l.paramIs 80 || transferLenBad l
  body := fun s e _ _ x =>
    match (kwpUnwrapAll e.key x).bind (parseTransfer 1) with
    | none => (.fail .authFail, s)
    | some (n, src) =>
      let new := { src with attr := { src.attr with
        encRetired := src.attr.encRetired || (bindingAead src.attr.binding.toNat && decide (family src.area ≠ 0)) } }
      if xtsEqual src.attr.binding.toNat src.key then (.fail .keyDenied, s)
      else s.withBlob new (fun s x => (.writes [(n, x.exact)] none [] (BitVec.ofNat 64 n), s))

end Sys2Proof.Machine
end

