-- ==== Sys2Proof/Machine/VaultCmd.lean ====
section
/-! DEFINITION. What happens to the vault outside its opcodes: reads that return, batches that close, commit or fail, the
sweep's steps, PV_REGION and PV_BLOB (10_plate_vault.md R245, R254–R256, R269, R270). -/

namespace Sys2Proof.Machine

/-- A read that failed, as the vault engine sees it. -/
def VaultRead.fails : VaultRead := { record := [], nodes := [], blob := [], image := [], failed := true }

/-- A miss read returned (R254, R256, R262); one that was denied has failed. While the vault engine is fenced its answers
wait (R19; DEDUCED, log 129). -/
def State.missReadReturn (s : State) (slot : Nat) (read : VaultRead) : State :=
  if s.vt.reading.contains slot && !s.fc.halted && !s.stopped 0x004 then
    let read := if s.po.txns.any (fun q => decide (q.who = .vaultRead slot)) then read else VaultRead.fails
    let s := s.answered (fun w => decide (w = .vaultRead slot))
    if slot = 0 then
      if s.vt.state = .opening then s.imageReturn read.image read.failed else s
    else
      match s.d0.batch with
      | some d =>
        if s.vt.recoverDue && d.pairs.any (fun p => p.1 == slot) then
          if read.failed then (s.missReads slot).2 else s.recoverReturn slot read d
        else s.missReturn slot read
      | none => s.missReturn slot read
  else s

/-- Closes the first batch that is still being formed (R255). -/
def closeFirst (l : List Batch) : List Batch :=
  match l with
  | [] => []
  | b :: r => if b.closed then b :: closeFirst r else { b with closed := true } :: r

/-- A batch closes and, as the first, is issued (R255). -/
def State.batchClose (s : State) : State :=
  if s.stopped 0x004 then s else (s.modVt (fun v => { v with batches := closeFirst v.batches })).pumpBatches

/-- Every write of the first batch has its response (R255); a vault that closes meanwhile may open again (R245). -/
def State.batchCommit (s : State) : State :=
  match s.vt.batches with
  | [] => s
  | b :: r =>
    if b.issued && !s.fc.halted && !s.stopped 0x004 then
      ((s.answered (fun w => decide (w = .vaultWrite ∨ w = .blobWrite))).commitBatch b r).tryOpen
    else s

/-- A write of the first batch failed: its changes are discarded, its links end with BUS_ERROR, recovery runs (R256). -/
def State.batchFail (s : State) : State :=
  match s.vt.batches with
  | [] => s
  | b :: r => if b.issued && !s.fc.halted && !s.stopped 0x004 then (s.failFirst b r .busError).closeStep else s

/-! The sweep -/

/-- The last batch carries the sweep's position. -/
def sweptLast (pos : Nat) (l : List Batch) : List Batch :=
  match l with
  | [] => []
  | [b] => [{ b with sweptTo := some pos }]
  | b :: r => b :: sweptLast pos r

/-- The sweep goes on at a position. Its position in D0 follows when what it has passed has committed (R269). -/
def State.sweepTo (s : State) (pos : Nat) : State :=
  let s := if s.vt.batches.isEmpty then s.modD0 (fun d => { d with sweepPos := BitVec.ofNat 19 (min pos (2 ^ 19 - 1)) }) else s
  (s.modVt (fun v => { v with sweepAt := pos, batches := sweptLast pos v.batches })).sweepRead

/-- A batch of its own that clears or rewrites an item's counter. -/
def State.clearBatch (s : State) (place idx : Nat) : State :=
  (s.modVt (fun v => { v with batches := v.batches ++ [{ clear := some (place, idx), closed := true }] })).pumpBatches

/-- The sweep passes a part of the tree that was never written; a node that was written but has only zero counters is
rewritten (R269). -/
def State.sweepSkip (s : State) (pos place : Nat) : State :=
  let i := pos / 8 ^ place
  let zero := decide (place < 6) && decide (i % 8 = 7) && ((s.nodeVal 6 place (i / 8)).getD [1]).all (· == 0)
  (if zero then s.clearBatch place i else s).sweepTo ((i + 1) * 8 ^ place)

/-- A slot is known to be free (R241, R253). -/
def State.knownFree (s : State) (slot : Nat) : Bool :=
  decide (slot < 256) || decide (s.leaf slot = some 0) ||
  (match s.current slot with
   | some e => decide (e.attr.binding = 0)
   | none => false)

/-- An item fails authentication in the sweep: with CLEAR 0 the sweep stops, with CLEAR 1 all beneath is freed, with a
KEY_EVENT for each slot that was not free. What a slot held that nothing authentic describes is not known: it counts as not
free (DESIGN CHOICE, log 148). PV_INTEGRITY counts either way (R270). -/
def State.sweepFails (s : State) (pos place : Nat) : State :=
  let s := s.modVt (fun v => { v with
    fails := satAdd v.fails 1, lastSlot := BitVec.ofNat 19 pos, lastLevel := BitVec.ofNat 3 place })
  let s := if s.vt.sweepClear && decide (place = 0) then s else s.raise 0x004 0x26 (formS pos place)
  if s.vt.sweepClear then
    let i := pos / 8 ^ place
    let beneath (n : Nat) : Bool := decide (n / 8 ^ place = i)
    let gone := (List.range' (i * 8 ^ place) (8 ^ place)).filter (fun n => !s.knownFree n)
    let s := s.modVt (fun v => { v with
      slots := v.slots.filter (fun p => !beneath p.1),
      nodes := v.nodes.filter (fun p => !(decide (p.1 / 65536 < place) &&
        decide (p.1 % 65536 / 8 ^ (place - 1 - p.1 / 65536) = i))) })
    let s := gone.foldl (fun s n => (s.slotGone n).keyEvent [0] n 0x0D 5 0 0) s
    (s.clearBatch place i).sweepTo ((i + 1) * 8 ^ place)
  else s.modVt (fun v => { v with stopped := true })

/-- The record at the sweep's position joins a batch under the new epoch, with the slot's latest contents (R269). -/
def State.sweepJoin (s : State) (pos : Nat) (read : VaultRead) : State :=
  match s.current pos with
  | some e => (s.joinBatch pos e none).sweepTo (pos + 1)
  | none =>
    match s.openSlot pos ((s.leaf pos).getD 0) read.record with
    | some e => (s.joinBatch pos e none).sweepTo (pos + 1)
    | none => s.sweepFails pos 0

/-- One step of the sweep: at its end, once its last batch has committed, the previous keys are erased; a part never written
is passed; otherwise the record at its position is rewritten (R269, R270). -/
def State.sweepStep (s : State) (read : VaultRead) : State :=
  if s.d0.sweepActive && decide (s.vt.state = .vopen) && !s.vt.closing && !s.vt.stopped && !s.vt.recoverDue && !s.fc.halted &&
      !s.stopped 0x004 then
    let pos := s.vt.sweepAt
    let asked := s.sweepReads
    let s := s.answered (fun w => decide (w = .sweep))
    if 2 ^ 19 ≤ pos then
      if s.vt.batches.isEmpty then s.modD0 (fun d => { d with sweepActive := false, sweepPos := 0 }) else s
    else
      match s.zeroPlace pos with
      | some place => s.sweepSkip pos place
      | none =>
        if read.failed || !asked || s.vt.nodeRoom = false then s.sweepRead
        else
          match State.verifyPath pos read.nodes false 6 5 (s.touchPath pos) with
          | .error place => s.sweepFails pos place
          | .ok s =>
            match s.zeroPlace pos with
            | some place => s.sweepSkip pos place
            | none => s.sweepJoin pos read
  else s

/-! Registers -/

/-- Closing the vault: no further batch is formed, and those formed close and commit (R245). -/
def State.closeVault (s : State) : State :=
  if s.vt.state = .recovering then s.modVt (fun v => { v with closing := true })
  else if s.vt.state = .vopen then
    (s.modVt (fun v => { v with
      closing := true, batches := v.batches.map (fun b => { b with closed := true }) })).pumpBatches.closeStep
  else if s.vt.state = .erased then s
  else s.vaultClosed

/-- A write to PV_REGION (R245). -/
def State.writeRegion (s : State) (q : WReq) : State :=
  let x := q.x
  let v := s.vt
  let addr := fld x 21 36
  let valid := bit x 0
  if v.lock || (v.valid && decide (addr ≠ v.addr)) then s
  else
    let s := s.modVt (fun v => { v with valid := valid, addr := addr, lock := q.lockHi 63 })
    if valid && !v.valid then s.tryOpen
    else if !valid && v.valid then s.closeVault
    else s

/-- A write to PV_BLOB (R245); clearing VALID drops the cached blobs (log 124). -/
def State.writeBlobReg (s : State) (q : WReq) : State :=
  let x := q.x
  let v := s.vt
  let addr := fld x 21 36
  if v.blobLock || (v.blobValid && decide (addr ≠ v.blobAddr)) then s
  else s.modVt (fun v => { v with
    blobValid := bit x 0, blobAddr := addr, blobLock := q.lockHi 63,
    slots := if bit x 0 then v.slots else v.slots.map (fun p => (p.1, { p.2 with body := [] })) })

/-- The registers of the plate vault (page 0x000A_0xxx): reads. -/
def pvRead (s : State) (off : Nat) : DWord :=
  let v := s.vt
  let w := v.wins.get (0, 0) v.winSel.toNat
  match off with
  | 0x00 => pk [(0, b2n v.valid), (21, v.addr.toNat), (63, b2n v.lock)]
  | 0x08 => pk [(0, b2n v.blobValid), (21, v.blobAddr.toNat), (63, b2n v.blobLock)]
  | 0x10 => pk [(0, v.state.code), (3, b2n s.d0.sweepActive), (4, b2n v.fresh), (8, min v.slots.length 32767)]
  | 0x18 => pk [(0, v.winSel.toNat)]
  | 0x20 => pk [(0, w.1.toNat), (32, w.2.toNat)]
  | 0x28 => pk [(0, s.d0.sweepPos.toNat), (19, b2n s.d0.sweepActive), (20, b2n v.stopped), (32, s.d0.epoch.toNat)]
  | 0x30 => pk [(0, v.misses.toNat), (32, v.recWrites.toNat)]
  | 0x38 => pk [(0, v.fails.toNat), (32, v.lastSlot.toNat), (51, v.lastLevel.toNat)]
  | _ => 0

/-- The registers of the plate vault: writes. -/
def pvWrite (s : State) (off : Nat) (q : WReq) : State :=
  match off with
  | 0x00 => s.writeRegion q
  | 0x08 => s.writeBlobReg q
  | 0x18 => s.modVt (fun v => { v with winSel := fld q.x 0 10 })
  | 0x20 => s.modVt (fun v => { v with wins := v.wins.set (0, 0) v.winSel.toNat (fld q.x 0 19, fld q.x 32 20) })
  | _ => s

end Sys2Proof.Machine
end

