-- ==== Sys2Proof/Machine/Boot.lean ====
section
/-! DEFINITION. The firmware image and its boot (11_burin.md R288, R289), the etch state and its registers (R290,
R293, R294, R297–R300), and the BU_ register page. -/

namespace Sys2Proof.Machine

/-- Changes Burin. -/
def State.modBu (s : State) (f : Burin → Burin) : State := { s with bu := f s.bu }

/-- Changes the etch state. -/
def State.modEtch (s : State) (f : Etch → Etch) : State := s.modBu (fun b => { b with etch := f b.etch })

/-! The etch state -/

/-- Bytes of the routine area. -/
def Burin.routine (b : Burin) : List Byte := b.imem.readBytes routineLo 0x8000

/-- The 67,072 bytes that the etch measurement covers (R300). -/
def Burin.etchImage (b : Burin) : List Byte :=
  (List.range 64).flatMap (fun i => leBytes 8 (Tab.get b.etch.entries 0 i).toNat) ++
  (List.range 4096).flatMap (fun i => leBytes 8 (Tab.get b.etch.words 0 i).toNat) ++
  (List.range 256).flatMap (fun i => leBytes 4 (Tab.get b.etch.dispatch 0 i).toNat) ++ b.routine

/-- The etch measurement is recomputed (R300). -/
def Burin.measured (b : Burin) : Burin := { b with etch := { b.etch with meas := sha384 b.etchImage } }

/-- Nothing is etched: tables and routine area are empty (R298, R299). -/
def Burin.etchEmptied (b : Burin) : Burin :=
  { b with
    imem := b.imem.filter (fun p => !decide (routineLo ≤ p.1 ∧ p.1 < routineHi)),
    etch := { b.etch with entries := [], words := [], dispatch := [] } }

/-- BU_STATUS.ETCH_VALID: the etch state is not empty. -/
def Burin.etched (b : Burin) : Bool :=
  !b.etch.entries.isEmpty || !b.etch.words.isEmpty || !b.etch.dispatch.isEmpty ||
  b.imem.any (fun p => decide (routineLo ≤ p.1 ∧ p.1 < routineHi))

/-- The etch state is replaced or emptied and measured again (R299, R300). -/
def Burin.etchClear (b : Burin) : Burin := b.etchEmptied.measured

/-- An etched link runs on Burin (R298). -/
def State.etchedRuns (s : State) : Bool :=
  s.sq.tags.any (fun p => decide (0xE00 ≤ p.2.desc.opcode.toNat ∧ p.2.desc.opcode.toNat < 0xF00) &&
    decide (p.2.phase = .running 0x003))

/-- Sets BU_ETCH_CTRL.ERR. -/
def State.etchErr (s : State) (n : Nat) : State := s.modEtch (fun e => { e with err := BitVec.ofNat 4 n })

/-- A write of 1 to OPEN (R297, R298): refused outside DEVELOPMENT or when locked; it waits for the running etched
link. -/
def State.etchOpen (s : State) : State :=
  if s.ts.lcs ≠ 1 then s.etchErr 1
  else if s.bu.etch.lock then s.etchErr 2
  else if s.bu.etch.isOpen ∨ s.bu.etch.waits then s.etchErr 0
  else if s.etchedRuns then s.modEtch (fun e => { e with waits := true, err := 0 })
  else s.modEtch (fun e => { e with isOpen := true, err := 0 })

/-- No etched link runs: OPEN takes effect (R298). -/
def State.etchOpenDone (s : State) : State :=
  if s.bu.etch.waits && !s.etchedRuns then s.modEtch (fun e => { e with isOpen := true, waits := false }) else s

/-- A write of 0 to OPEN: closing validates the state, empties an invalid one and measures it (R298, R300). -/
def State.etchClose (s : State) : State :=
  if s.bu.etch.waits then s.etchErr 4
  else if !s.bu.etch.isOpen then s.etchErr 0
  else
    let ok := s.bu.etch.valid
    let s := s.modBu (fun b => if ok then b.measured else b.etchClear)
    s.modEtch (fun e => { e with isOpen := false, err := if ok then 0 else 3 })

/-- A write of 1 to CLEAR: as ETCH_CLEAR, so not while LOCK or OPEN is set (R299). -/
def State.etchCtrlClear (s : State) : State :=
  if s.bu.etch.lock then s.etchErr 2
  else if s.bu.etch.isOpen ∨ s.bu.etch.waits then s.etchErr 4
  else (s.modBu Burin.etchClear).etchErr 0

/-- A write of BU_ETCH_CTRL: a closing, then CLEAR, then an opening, then LOCK (log 102). -/
def State.etchCtrl (s : State) (q : WReq) : State :=
  if !q.lo then s
  else
    let clear := bit q.x 1
    let s' := match clear, bit q.x 0 with
      | false, true => s.etchOpen
      | false, false => s.etchClose
      | true, true => if s.bu.etch.isOpen ∨ s.bu.etch.waits then s.etchCtrlClear else s.etchCtrlClear.etchOpen
      | true, false => (if s.bu.etch.isOpen then s.etchClose else s).etchCtrlClear
    if q.lockLo 2 then s'.modEtch (fun e => { e with lock := true }) else s'

/-- The unit at BU_ETCH_ADDR. -/
def Burin.etchUnit (b : Burin) : DWord :=
  let a := b.etch.addr.toNat
  if a < 0x1000 then Tab.get b.etch.words 0 a
  else if a < 0x1040 then Tab.get b.etch.entries 0 (a - 0x1000)
  else if 0x1100 ≤ a ∧ a < 0x1200 then (Tab.get b.etch.dispatch 0 (a - 0x1100)).setWidth 64
  else if 0x2000 ≤ a ∧ a < 0x3000 then BitVec.ofNat 64 (leNat (b.imem.readBytes (routineLo + 8 * (a - 0x2000)) 8))
  else 0

/-- Writes the unit at BU_ETCH_ADDR. -/
def Burin.etchPut (b : Burin) (x : DWord) : Burin :=
  let a := b.etch.addr.toNat
  if a < 0x1000 then { b with etch := { b.etch with words := b.etch.words.set 0 a x } }
  else if a < 0x1040 then { b with etch := { b.etch with entries := b.etch.entries.set 0 (a - 0x1000) x } }
  else if 0x1100 ≤ a ∧ a < 0x1200 then
    { b with etch := { b.etch with dispatch := b.etch.dispatch.set 0 (a - 0x1100) (loHalf x) } }
  else if 0x2000 ≤ a ∧ a < 0x3000 then
    { b with imem := b.imem.writeBytes (routineLo + 8 * (a - 0x2000)) (leBytes 8 x.toNat) }
  else b

/-- ADDR advances after an access to BU_ETCH_DATA when AUTOINC is 1. -/
def State.etchStep (s : State) : State :=
  s.modEtch (fun e => if e.autoInc then { e with addr := e.addr + 1 } else e)

/-- A write to BU_ETCH_DATA takes effect only while OPEN is 1 and LOCK is 0 (R297, R298). -/
def State.etchData (s : State) (x : DWord) : State :=
  (if s.bu.etch.isOpen && !s.bu.etch.lock then s.modBu (fun b => b.etchPut x) else s).etchStep

/-- A bundle's parts (Table 11.17). -/
structure Bundle where
  lcMask : Nat
  entries : Nat
  words : Nat
  dispatch : Nat
  routine : Nat
  slot : Nat
  body : List Byte
  signed : List Byte
  sig : List Byte

/-- Length of BODY that the header implies. -/
def bundleBody (b : List Byte) : Nat :=
  8 * fieldAt b 9 1 + 8 * fieldAt b 10 2 + 4 * fieldAt b 12 2 + fieldAt b 0x10 4

/-- Length of the bundle that its header implies. -/
def bundleLen (b : List Byte) : Nat := 0x44 + bundleBody b + fieldAt b (0x40 + bundleBody b) 4

/-- Reads a bundle. -/
def bundleOf (b : List Byte) : Bundle where
  lcMask := fieldAt b 8 1
  entries := fieldAt b 9 1
  words := fieldAt b 10 2
  dispatch := fieldAt b 12 2
  routine := fieldAt b 0x10 4
  slot := fieldAt b 0x14 4
  body := (b.drop 0x40).take (bundleBody b)
  signed := b.take (0x40 + bundleBody b)
  sig := (b.drop (0x44 + bundleBody b)).take (fieldAt b (0x40 + bundleBody b) 4)

/-- The header keeps to Table 11.17. -/
def bundleHeaderOk (b : List Byte) : Bool :=
  decide (b.take 4 = [0x42, 0x55, 0x45, 0x54]) && decide (fieldAt b 9 1 ≤ 64) && decide (fieldAt b 10 2 ≤ 4096) &&
  decide (fieldAt b 12 2 ≤ 256) && decide (fieldAt b 14 2 = 0) &&
  decide (fieldAt b 0x10 4 ≤ 32768 ∧ fieldAt b 0x10 4 % 8 = 0) && decide (fieldAt b 0x14 4 < 2 ^ 19) &&
  (slice b 0x18 40).all (fun x => decide (x = 0)) && decide (fieldAt b 8 1 < 32)

/-- A table of words from bytes, entries of zero not listed. -/
def tabOf {w : Nat} (n k : Nat) (l : List Byte) : Tab (BitVec w) :=
  ((List.range n).map (fun i => (i, BitVec.ofNat w (fieldAt l (i * k) k)))).filter (fun p => decide (p.2 ≠ 0))

/-- The etch state that a bundle supplies; everything it does not supply is empty (R299). -/
def Burin.etchLoaded (b : Burin) (x : Bundle) : Burin :=
  let b := b.etchEmptied
  let r := x.body.drop (8 * x.entries + 8 * x.words + 4 * x.dispatch)
  { b with
    imem := b.imem.writeBytes routineLo (r.take x.routine),
    etch := { b.etch with
      entries := tabOf x.entries 8 x.body,
      words := tabOf x.words 8 (x.body.drop (8 * x.entries)),
      dispatch := tabOf x.dispatch 4 (x.body.drop (8 * x.entries + 8 * x.words)) } }

/-! The boot -/

/-- Fields of the image (Table 11.10). -/
def imageCode (b : List Byte) : Nat := fieldAt b 0x10 4
def imageData (b : List Byte) : Nat := fieldAt b 0x14 4
def imageSigned (b : List Byte) : Nat := 0x40 + imageCode b + imageData b
def imageSig (b : List Byte) : Nat := fieldAt b (imageSigned b) 4

/-- The header keeps to Table 11.10. -/
def imageHeaderOk (b : List Byte) : Bool :=
  decide (b.take 4 = [0x42, 0x55, 0x46, 0x57]) &&
  decide (0x100000 ≤ fieldAt b 0x0C 4 ∧ fieldAt b 0x0C 4 < 0x138000 ∧ fieldAt b 0x0C 4 % 2 = 0) &&
  decide (4 ≤ imageCode b ∧ imageCode b ≤ 229376 ∧ imageCode b % 4 = 0) &&
  decide (imageData b ≤ 212992 ∧ imageData b % 4 = 0) && (slice b 0x18 40).all (fun x => decide (x = 0))

/-- ID_VERSION. -/
def idVersion : Nat := 0x00090200

/-- The boot fails: BOOT_FAIL with its BOOT_ERR code, and BU_BOOT (R288). -/
def State.bootFails (s : State) (code : Nat) : State :=
  (s.modBu (fun b => { b with state := .bootFail, bootErr := BitVec.ofNat 4 code })).raise 0x003 0x36
    (formB s.bu.ctx.pc.toNat code)

/-- The boot ROM begins to read the image, through DMA channel 0 with function 0's ID (R288): its header first. -/
def State.bootBegin (s : State) : State :=
  let s := s.modBu (fun b => { b with state := .boot, waiting := false, bootErr := 0, unsigned := false, fwVer := 0 })
  let (ok, s) := s.fabRead .bootImage 0 (s.bu.ptrAddr.toNat * 4096) 64 false
  if ok then s else s.bootFails 2

/-- Burin starts at ENTRY with CODE and DATA in place and the rest of both SRAMs zero; the routine area stays (R288,
R344). -/
def State.bootStart (s : State) (image : List Byte) (unsigned : Bool) : State :=
  let entry := BitVec.ofNat 32 (fieldAt image 0x0C 4)
  let code := (image.drop 0x40).take (imageCode image)
  let data := (image.drop (0x40 + imageCode image)).take (imageData image)
  s.modBu (fun b =>
    let c : BuCtx := { pc := entry }
    { b with
      state := .run, waiting := false, unsigned := unsigned, bootErr := 0, ctx := c, saved := c,
      loads := [], products := [], undo := [], outb := [], readLog := [], replay := [], mismatched := false,
      commitDue := false, lowHalf := none, loadHalf := none, savedLow := none, savedHalf := none, savedEvt := b.evt, evtNew := 0,
      imem := Memory.writeBytes (b.imem.filter (fun p => decide (routineLo ≤ p.1))) 0x100000 code,
      dmem := Memory.writeBytes [] 0 data,
      fwVer := BitVec.ofNat 32 (fieldAt image 4 4), fwMeas := sha384 (image.take (imageSigned image)) })

/-- The HSS public key of authority slot 7, of the length its LMS type gives (Table 10.11; log 21). -/
def firmwareKeyBytes : List Byte :=
  let b := (List.range 60).map Config.firmwareKey
  match lmsType (beNat ((b.drop 4).take 4)) with
  | some (_, m, _) => b.take (28 + m)
  | none => b

/-- The checks of R288 in their order: BUS, HEADER, VERSION, SIGNATURE. -/
def State.bootVerify (s : State) (image : List Byte) (busError : Bool) : State :=
  let s := s.answered (· == .bootImage)
  let h := fit 64 image
  if busError then s.bootFails 2
  else if !imageHeaderOk h then s.bootFails 1
  else
    let total := imageSigned h + 4 + imageSig image
    let (ok, s) := s.fabRead .bootImage 0 (s.bu.ptrAddr.toNat * 4096 + 64) (total - 64) false
    let s := s.answered (· == .bootImage)
    if !ok then s.bootFails 2
    else if idVersion < fieldAt h 8 4 then s.bootFails 4
    else
      let image := image ++ zeros (total - image.length)
      let sig := (image.drop (imageSigned h + 4)).take (imageSig image)
      if hssVerify firmwareKeyBytes (image.take (imageSigned h)) sig then s.bootStart image false
      else if s.testLife && s.bu.unsignedOk then s.bootStart image true
      else s.bootFails 3

/-! The BU_ page -/

/-- BU_BOOT_PTR as it reads. -/
def Burin.ptrWord (b : Burin) : DWord :=
  pk [(0, b2n b.ptrValid), (1, b2n b.unsignedOk), (12, b.ptrAddr.toNat), (63, b2n b.ptrLock)]

/-- BU_ETCH_CTRL as it reads. -/
def Etch.ctrlWord (e : Etch) : DWord :=
  pk [(0, b2n e.isOpen), (2, b2n e.lock), (3, b2n e.waits), (8, e.err.toNat)]

/-- BU_STATUS as it reads. -/
def Burin.statusWord (b : Burin) : DWord :=
  pk [(0, b.state.code), (3, b2n b.waiting), (4, b2n b.unsigned), (5, b2n b.etched), (8, b.bootErr.toNat)]

/-- A read of the BU_ page. -/
def buRead (s : State) (off : Nat) : DWord :=
  let b := s.bu
  if off = 0 then b.statusWord
  else if off = 0x8 then b.ptrWord
  else if off = 0x10 then b.fwVer.setWidth 64
  else if off = 0x18 then halves b.rollbacks b.memCe
  else if 0x20 ≤ off ∧ off < 0x50 then BitVec.ofNat 64 (leNat (slice b.fwMeas (off - 0x20) 8))
  else if off = 0x100 then b.etch.ctrlWord
  else if off = 0x108 then pk [(0, b.etch.addr.toNat), (16, b2n b.etch.autoInc)]
  else if off = 0x110 then b.etchUnit
  else if 0x120 ≤ off ∧ off < 0x150 then BitVec.ofNat 64 (leNat (slice b.etch.meas (off - 0x120) 8))
  else 0

/-- Burin is back in RUN after a rollback: its re-execution begins (R277). -/
def State.rolledBack (s : State) : State :=
  if s.bu.state = .rollback ∧ s.fc.halted = false then s.modBu (fun b => { b with state := .run }) else s

/-- A write of BU_BOOT_PTR. A write that covers VALID with 1 starts the boot while the boot ROM waits for it or after
BOOT_FAIL (R288, R407). -/
def State.bootPtr (s : State) (q : WReq) : State :=
  let b := s.bu
  if b.ptrLock then s
  else
    let s := s.modBu (fun b => { b with
      ptrValid := bit q.x 0, unsignedOk := bit q.x 1, ptrAddr := fld q.x 12 45, ptrLock := q.lockHi 63 })
    let waiting := decide (b.state = .bootFail) || (decide (b.state = .boot) && !s.po.txns.any (fun t => decide (t.who = .bootImage)))
    if q.lo && bit q.x 0 && waiting && !s.fc.halted then s.bootBegin else s

/-- A write to the BU_ page. -/
def buWrite (s : State) (off : Nat) (q : WReq) : State :=
  if off = 0x8 then s.bootPtr q
  else if off = 0x100 then s.etchCtrl q
  else if off = 0x108 then
    if q.lo then s.modEtch (fun e => { e with addr := fld q.x 0 14, autoInc := bit q.x 16 }) else s
  else if off = 0x110 then s.etchData q.x
  else s

/-- The side effect of a read of the BU_ page: BU_ETCH_DATA advances ADDR. -/
def buTake (s : State) (off : Nat) : State := if off = 0x110 then s.etchStep else s

end Sys2Proof.Machine
end

