-- ==== Sys2Proof/Machine/Mover.lean ====
section
/-! DEFINITION. The DMA mover (12_mailboxes_dma.md R313–R319). -/

namespace Sys2Proof.Machine

/-- Channel `c`. -/
def State.ch (s : State) (c : Nat) : DmaCh := s.dm.chs.get {} c

/-- Changes channel `c`. -/
def State.modCh (s : State) (c : Nat) (f : DmaCh → DmaCh) : State :=
  { s with dm := { s.dm with chs := s.dm.chs.modify {} c f } }

/-- A range lies within its space, and the channel may name it (R313, R314; Table 11.1 for firmware). -/
def spaceOk (c space addr len : Nat) (write rom : Bool) : Bool :=
  match space with
  | 0 => decide (addr + len ≤ 2 ^ 57)
  | 1 => decide (c < 16) && decide (addr + len ≤ 0x40000)
  | 2 => decide (c < 16) && decide ((if write && !rom then routineLo else 0x100000) ≤ addr) && decide (addr + len ≤ 0x140000)
  | _ => false

/-- Bytes of the CRC that is stored. -/
def DmaCh.crcLen (x : DmaCh) : Nat := if x.crcStore then (if x.crcKind then 8 else 4) else 0

/-- A start is well formed (R314). -/
def DmaCh.configOk (x : DmaCh) (c : Nat) : Bool :=
  decide (x.remain ≠ 0) && spaceOk c x.srcSpace.toNat x.src.toNat x.remain.toNat false x.byRom &&
  spaceOk c x.dstSpace.toNat x.dst.toNat (x.remain.toNat + x.crcLen) true x.byRom

/-- The channel has stopped: DONE or HALTED, with its bit of DM_DONE and Burin's event (DM_DONE). -/
def State.chEnd (s : State) (c : Nat) (st : DmaState) (err : Nat) : State :=
  let s := s.modCh c (fun x => { x with
    state := st, err := BitVec.ofNat 4 err, bursts := [], ahead := 0, ending := 0, crcOut := false, crcTries := 0, crcWait := false })
  let s := { s with dm := { s.dm with done := s.dm.done ||| (1#32 <<< c) } }
  if c < 16 then { s with bu := s.bu.arrive 0x10 } else s

/-- The running CRC over bytes (R316). -/
def DmaCh.crcOver (x : DmaCh) (l : List Byte) : DWord :=
  if x.crcKind then crc64Run x.crc l else (crc32cRun (loHalf x.crc) l).setWidth 64

/-- The final CRC. -/
def DmaCh.crcFinal (x : DmaCh) : DWord := if x.crcKind then x.crc else ((loHalf x.crc) ^^^ 0xFFFFFFFF).setWidth 64

/-- Writes bytes to one of Burin's SRAMs. -/
def State.sramWrite (s : State) (space addr : Nat) (l : List Byte) : State :=
  if space = 1 then { s with bu := { s.bu with dmem := s.bu.dmem.writeBytes addr l } }
  else { s with bu := { s.bu with imem := s.bu.imem.writeBytes addr l } }

/-- Changes a burst. -/
def State.modBurst (s : State) (c n : Nat) (f : Burst → Burst) : State :=
  s.modCh c (fun x => { x with bursts := x.bursts.map (fun b => if b.no = n then f b else b) })

/-- A channel stops with an error once its outstanding writes have ended (R318). -/
def State.chStop (s : State) (c err : Nat) : State :=
  s.modCh c (fun x => if x.ending = 0 then { x with ending := err, state := .stopping } else x)

/-- The bursts at the head whose writes have responses move the registers on (R316). -/
def advancePrefix (fuel : Nat) (x : DmaCh) : DmaCh :=
  match fuel with
  | 0 => x
  | n + 1 =>
    match x.bursts with
    | b :: r =>
      if b.phase = .written then
        advancePrefix n { x with
          bursts := r, src := x.src + BitVec.ofNat 57 b.len, dst := x.dst + BitVec.ofNat 57 b.len,
          remain := x.remain - BitVec.ofNat 32 b.len, ahead := x.ahead - b.len, crc := x.crcOver b.data, retries := 0 }
      else x
    | [] => x

/-- Writes the CRC after the data (R316); a Burin SRAM takes it at once. -/
def State.crcWrite (s : State) (c : Nat) : State :=
  let x := s.ch c
  let l := leBytes x.crcLen x.crcFinal.toNat
  let s := s.modCh c (fun x => { x with crcOut := true, crcWait := false })
  if x.dstSpace = 0 then
    let (ok, s) := s.fabWrite (.dmaCrc c) 0 x.dst.toNat l false
    if ok then s else s.chEnd c .halted 2
  else ((s.sramWrite x.dstSpace.toNat x.dst.toNat l).modCh c (fun x => { x with crc := x.crcFinal })).chEnd c .done 0

/-- A channel whose data is all written: the CRC is stored, or the channel is DONE; it waits for the response of a CRC that
is under way (R316), or for its retry (R318). -/
def State.chFinish (s : State) (c : Nat) : State :=
  let x := s.ch c
  if x.crcOut || x.crcWait then s
  else if x.crcStore then s.crcWrite c
  else (s.modCh c (fun x => { x with crc := x.crcFinal })).chEnd c .done 0

/-- Where a channel goes when a write has ended: DONE, PAUSED or HALTED (R316–R318). -/
def State.chSettle (s : State) (c : Nat) : State :=
  let s := s.modCh c (fun x => advancePrefix x.bursts.length x)
  let x := s.ch c
  let writes := x.bursts.any (fun b => decide (b.phase = .writing))
  match x.state with
  | .stopping => if writes || x.crcOut then s else s.chEnd c .halted x.ending
  | .pausing =>
    if x.remain = 0 then s.chFinish c
    else if x.bursts.any (fun b => decide (b.phase ≠ .written ∧ b.phase ≠ .readRetry)) then s
    else s.modCh c (fun x => { x with state := .paused, bursts := [], ahead := 0, retries := 0 })
  | .run => if x.remain = 0 then s.chFinish c else s
  | _ => s

/-- The write of a burst is issued; a Burin SRAM takes it at once (R316). -/
def State.burstWrite (s : State) (c : Nat) (b : Burst) : State :=
  let x := s.ch c
  if x.dstSpace = 0 then
    let s := s.modBurst c b.no (fun y => { y with phase := .writing, data := b.data })
    let (ok, s) := s.fabWrite (.dmaWrite c b.no) 0 b.dst b.data false
    if ok then s else ((s.modBurst c b.no (fun y => { y with phase := .readRetry })).chStop c 2).chSettle c
  else
    ((s.sramWrite x.dstSpace.toNat b.dst b.data).modBurst c b.no (fun y => { y with phase := .written, data := b.data })).chSettle c

/-- Issues the read of a burst; a Burin SRAM answers at once. -/
def State.burstRead (s : State) (c : Nat) (b : Burst) : State :=
  let x := s.ch c
  if x.srcSpace = 0 then
    let (ok, s) := s.fabRead (.dmaRead c b.no) 0 b.src b.len false
    if ok then s else ((s.modBurst c b.no (fun y => { y with phase := .readRetry })).chStop c 2).chSettle c
  else
    let m := if x.srcSpace = 1 then s.bu.dmem else s.bu.imem
    s.burstWrite c { b with data := m.readBytes b.src b.len }

/-- Reads of a channel that are outstanding: those of its bursts, and those that a stop has left behind (R315). -/
def State.readsOut (s : State) (c : Nat) : Nat :=
  let l := (s.ch c).bursts
  (l.filter (fun b => decide (b.phase = .reading ∨ b.phase = .readRetry))).length +
  (s.po.txns.filter (fun q => match q.who with
    | .dmaRead d n => decide (d = c) && !l.any (fun b => decide (b.no = n))
    | _ => false)).length

/-- The channel to serve: RUN, with data to issue and a read slot, highest PRIO, then the turn (R315, log 20). -/
def State.nextCh (s : State) : Option Nat :=
  let live (c : Nat) : Bool :=
    let x := s.ch c
    decide (x.state = .run) && decide (x.ending = 0) && decide (x.ahead < x.remain.toNat) && decide (s.readsOut c < 4)
  let turn (c : Nat) : Nat := (c + 32 - s.dm.last % 32) % 32
  ((List.range 32).filter live).foldl (fun best c =>
    match best with
    | none => some c
    | some b =>
      let pb := (s.ch b).prio.toNat
      let pc := (s.ch c).prio.toNat
      if pb < pc ∨ (pb = pc ∧ turn c < turn b) then some c else best) none

/-- Issues bursts while read slots are free (R315). -/
def State.mover (fuel : Nat) (s : State) : State :=
  match fuel with
  | 0 => s
  | n + 1 =>
    if s.fc.halted || decide (16 ≤ ((List.range 32).map s.readsOut).sum) then s
    else
      match s.nextCh with
      | none => s
      | some c =>
        let x := s.ch c
        let src := x.src.toNat + x.ahead
        let dst := x.dst.toNat + x.ahead
        let len := min (x.remain.toNat - x.ahead) (min (4096 - src % 4096) (4096 - dst % 4096))
        let b : Burst := { no := x.nextNo, src := src, dst := dst, len := len }
        let s := { s with dm := { s.dm with last := c + 1 } }
        let s := s.modCh c (fun x => { x with bursts := x.bursts ++ [b], ahead := x.ahead + len, nextNo := x.nextNo + 1 })
        State.mover n (s.burstRead c b)

/-- No channel can issue more bursts than this: each burst but two ends at a 4 KiB boundary of its source or destination. -/
def State.burstBound (s : State) : Nat := ((List.range 32).map (fun c => (s.ch c).remain.toNat / 2048 + 3)).sum

/-- Every free slot is used. -/
def State.moveOn (s : State) : State := if (s.unit 0x00D).role = .working then State.mover s.burstBound s else s

/-- START (R314): from IDLE, DONE or HALTED CONFIG with a fresh CRC, otherwise a resume. -/
def State.dmaStart (s : State) (c : Nat) : State :=
  let x := s.ch c
  let fresh := decide (x.state = .idle) || decide (x.state = .done) || (decide (x.state = .halted) && decide (x.err = 3))
  let resume := decide (x.state = .paused) || (decide (x.state = .halted) && decide (x.err ≠ 3))
  if !fresh && !resume then s
  else if (s.unit 0x00D).outOfService then s.chEnd c .halted 1
  else
    let s := s.modCh c (fun x => { x with
      crc := if fresh then (if x.crcKind then 0 else 0xFFFFFFFF) else x.crc, err := 0, retries := 0, bursts := [], ahead := 0, ending := 0 })
    if (s.ch c).configOk c then (s.modCh c (fun x => { x with state := .run })).moveOn else s.chEnd c .halted 3

/-- PAUSE (R317): a read that waits for its retry stays unread, so nothing behind it counts as written. -/
def State.dmaPause (s : State) (c : Nat) : State :=
  if (s.ch c).state = .run then
    ((s.modCh c (fun x => { x with
      state := .pausing, retries := if x.bursts.any (fun b => decide (b.phase = .readRetry)) then 0 else x.retries })).chSettle
      c).moveOn
  else s

/-- ABORT (R318). -/
def State.dmaAbort (s : State) (c : Nat) : State :=
  let x := s.ch c
  if x.state = .paused then s.chEnd c .halted 4
  else if x.state = .run ∨ x.state = .pausing then
    ((s.modCh c (fun x => { x with state := .stopping, ending := 4 })).chSettle c).moveOn
  else s

/-- A burst of a channel by its number. -/
def State.burst? (s : State) (c n : Nat) : Option Burst := (s.ch c).bursts.find? (fun b => decide (b.no = n))

/-- Read data arrives: written on, or discarded under a stop (R317, R318) or after one. -/
def State.dmaReadReturn (s : State) (c n : Nat) (data : List Byte) : State :=
  match s.burst? c n with
  | none => (s.answered (fun w => decide (w = .dmaRead c n))).moveOn
  | some b =>
    if b.phase ≠ .reading then s
    else
      let s := s.answered (fun w => decide (w = .dmaRead c n))
      if (s.ch c).state = .stopping then
        (s.modBurst c n (fun y => { y with phase := .readRetry })).chSettle c
      else (s.burstWrite c { b with data := fit b.len data }).moveOn

/-- A burst's write has its response (R316). -/
def State.dmaBurstDone (s : State) (c n : Nat) : State :=
  match s.burst? c n with
  | none => s
  | some b =>
    if b.phase ≠ .writing then s
    else
      ((s.answered (fun w => decide (w = .dmaWrite c n))).modBurst c n (fun y => { y with phase := .written })).chSettle c |>.moveOn

/-- A burst failed (R318): retried, or the channel halts; a denial is not retried. A failed read of a pausing channel that
would wait for its retry is abandoned (R317). -/
def State.dmaBurstFail (s : State) (c n : Nat) (denied : Bool) : State :=
  match s.burst? c n with
  | none => (s.answered (fun w => decide (w = .dmaRead c n))).moveOn
  | some b =>
    let x := s.ch c
    if b.phase ≠ .reading ∧ b.phase ≠ .writing then s
    else
      let rd := decide (b.phase = .reading)
      let s := s.answered (fun w => decide (w = .dmaRead c n ∨ w = .dmaWrite c n))
      let gone (s : State) : State := s.modBurst c n (fun y => { y with phase := .readRetry })
      if x.state = .stopping then ((gone s).chSettle c).moveOn
      else if denied then (((gone s).chStop c 2).chSettle c).moveOn
      else if b.tries < x.retry.toNat then
        if rd && decide (x.state = .pausing) then (((gone s).modCh c (fun x => { x with retries := 0 })).chSettle c).moveOn
        else (s.modBurst c n (fun y => { y with tries := b.tries + 1, phase := if rd then .readRetry else .writeRetry })).modCh c
          (fun x => { x with retries := BitVec.ofNat 3 (b.tries + 1) })
      else ((((gone s).raiseFabric 0x00D 0x10 0 (if rd then b.src else b.dst) (!rd)).chStop c 1).chSettle c).moveOn

/-- The CRC's write failed: retried like a write burst, or the channel halts (R318). -/
def State.dmaCrcFail (s : State) (c : Nat) : State :=
  let x := s.ch c
  if x.crcOut = false then s
  else if x.state = .stopping then s.chEnd c .halted x.ending
  else if x.crcTries < x.retry.toNat then
    s.modCh c (fun x => { x with
      crcOut := false, crcWait := true, crcTries := x.crcTries + 1, retries := BitVec.ofNat 3 (x.crcTries + 1) })
  else (s.raiseFabric 0x00D 0x10 0 x.dst.toNat true).chEnd c .halted 1

/-- The wait before a retry has ended (R318): of a burst, or of the CRC's write, which has no burst. -/
def State.dmaRetry (s : State) (c n : Nat) : State :=
  match s.burst? c n with
  | none =>
    let x := s.ch c
    if x.crcWait && !s.fc.halted && decide (x.state = .run ∨ x.state = .pausing) then s.crcWrite c else s
  | some b =>
    let x := s.ch c
    if s.fc.halted then s
    else if b.phase = .readRetry ∧ x.state = .run then
      (s.modBurst c n (fun y => { y with phase := .reading })).burstRead c { b with phase := .reading }
    else if b.phase = .writeRetry ∧ (x.state = .run ∨ x.state = .pausing) then s.burstWrite c b
    else s

/-- The stored CRC's write has its response: DONE (R316), or the end of a stop that waited for it (R318). -/
def State.dmaCrcWritten (s : State) (c : Nat) : State :=
  let x := s.ch c
  if x.crcOut && decide (x.state = .stopping) then
    (s.answered (fun w => decide (w = .dmaCrc c))).chEnd c .halted x.ending
  else if x.crcOut then
    ((s.answered (fun w => decide (w = .dmaCrc c))).modCh c (fun x => { x with crc := x.crcFinal })).chEnd c .done 0
  else s

/-- A channel that has work. -/
def DmaCh.active (x : DmaCh) : Bool := decide (x.state = .run) || decide (x.state = .pausing) || decide (x.state = .stopping)

/-- D50 has restarted: each channel goes on from its shadow in the state it held (R319). -/
def State.dmaResume (s : State) : State :=
  ((List.range 32).foldl (fun s c => if (s.ch c).active then s.chSettle c else s) s).moveOn

/-- D50 faults: every channel stops issuing and falls back to its shadow (R319). -/
def State.dmaFault (s : State) : State :=
  let s := s.answered (fun w => match w with
    | .dmaRead _ _ | .dmaWrite _ _ | .dmaCrc _ => true
    | _ => false)
  (List.range 32).foldl (fun s c =>
    if (s.ch c).active then s.modCh c (fun x => { x with
      bursts := [], ahead := 0, crcOut := false, crcTries := 0, crcWait := false, retries := 0 }) else s) s

/-- Every active channel stops with an error at once: the mover is out of service (Table 13.8), or the block halts. -/
def State.dmaHaltAll (s : State) (err : Nat) : State :=
  (List.range 32).foldl (fun s c =>
    if (s.ch c).active ∨ (s.ch c).state = .paused then s.chEnd c .halted err else s) s

/-! Registers -/

/-- The registers of a channel accept a write: channels 0–15 only from Burin (R313). -/
def chOpen (c : Nat) (init : BitVec 16) : Bool := decide (16 ≤ c) || decide (init = burinId)

/-- Code of the boot ROM makes the write (R313). -/
def State.fromRom (s : State) (init : BitVec 16) : Bool := decide (init = burinId) && inRom s.bu.ctx.pc

/-- A write to DM_CTRL (R314, R317, R318). -/
def State.dmCtrl (s : State) (c : Nat) (x : DWord) (init : BitVec 16) : State :=
  let busy := (s.ch c).active
  let s := if busy then s
    else s.modCh c (fun y => { y with
      prio := fld x 4 3, retry := fld x 8 3, crcKind := bit x 11, crcStore := bit x 12, srcSpace := fld x 14 2, dstSpace := fld x 16 2,
      byRom := s.fromRom init })
  let s := if bit x 0 && !busy then s.dmaStart c else s
  let s := if bit x 1 then s.dmaPause c else s
  if bit x 2 then s.dmaAbort c else s

/-- The DM_ page: reads. -/
def dmRead (s : State) (off : Nat) : DWord :=
  if off = 0x800 then pk [(0, s.dm.done.toNat)]
  else if off < 0x800 then
    let x := s.ch (off / 0x40)
    match off % 0x40 with
    | 0x00 => pk [(4, x.prio.toNat), (8, x.retry.toNat), (11, b2n x.crcKind), (12, b2n x.crcStore), (14, x.srcSpace.toNat),
        (16, x.dstSpace.toNat)]
    | 0x08 => pk [(0, x.src.toNat)]
    | 0x10 => pk [(0, x.dst.toNat)]
    | 0x18 => pk [(0, x.remain.toNat)]
    | 0x20 => x.crc
    | 0x28 => pk [(0, x.state.code), (4, x.err.toNat), (8, x.retries.toNat)]
    | _ => 0
  else 0

/-- The DM_ page: writes. -/
def dmWrite (s : State) (off : Nat) (q : WReq) : State :=
  if off = 0x800 then
    (if q.lo then { s with dm := { s.dm with done := s.dm.done &&& ~~~(loHalf q.x) } } else s)
  else if off < 0x800 ∧ chOpen (off / 0x40) q.init then
    let c := off / 0x40
    if off % 0x40 = 0 then (if q.lo then s.dmCtrl c q.x q.init else s)
    else if (s.ch c).active then s
    else
      match off % 0x40 with
      | 0x08 => s.modCh c (fun y => { y with src := fld q.x 0 57 })
      | 0x10 => s.modCh c (fun y => { y with dst := fld q.x 0 57 })
      | 0x18 => s.modCh c (fun y => { y with remain := fld q.x 0 32 })
      | _ => s
  else s

end Sys2Proof.Machine
end

