-- ==== Sys2Proof/Machine/Frame.lean ====
section
/-! DEFINITION. Reading a frame (05_stream_verifier.md R126–R128). The manual names the standards for the fields; their
layout here is taken from the standards' general form (log 50). -/

namespace Sys2Proof.Machine

/-- Big-endian field of a frame. -/
def beAt (b : List Byte) (o n : Nat) : Nat := beNat ((b.drop o).take n)

/-- A BER element with a one-byte tag at `o`, which must end by `stop`: tag, first content byte, end. -/
def tlv (b : List Byte) (o stop : Nat) : Option (Nat × Nat × Nat) :=
  if stop < o + 2 then none
  else
    let l := (b.getD (o + 1) 0).toNat
    let n := l - 128
    let r := if l < 128 then some (o + 2, l) else if 1 ≤ n ∧ n ≤ 4 ∧ o + 2 + n ≤ stop then some (o + 2 + n, beAt b (o + 2) n) else none
    match r with
    | none => none
    | some (c, m) => if c + m ≤ stop then some ((b.getD o 0).toNat, c, c + m) else none

/-- The elements between two offsets, each as tag, first content byte, end. -/
def tlvs (b : List Byte) (fuel o stop : Nat) : Option (List (Nat × Nat × Nat)) :=
  match fuel with
  | 0 => none
  | f + 1 =>
    if o = stop then some []
    else
      match tlv b o stop with
      | none => none
      | some e => (tlvs b f e.2.2 stop).map (fun r => e :: r)

/-- The first element with a tag. -/
def elem (l : List (Nat × Nat × Nat)) (tag : Nat) : Option (Nat × Nat) := (l.find? (fun e => e.1 == tag)).map (·.2)

/-- An unsigned value of an element of at most `most` bytes, below 2^32. -/
def elemNat (b : List Byte) (e : Option (Nat × Nat)) (most : Nat) : Option Nat :=
  match e with
  | none => none
  | some (a, z) =>
    let v := beAt b a (z - a)
    if 1 ≤ z - a ∧ z - a ≤ most ∧ v < 2 ^ 32 then some v else none

/-- Truncated length of an algorithm's authentication value (Table 5.8). -/
def tagLen (alg : Nat) : Option Nat :=
  match alg with
  | 0 => some 10
  | 1 => some 16
  | 2 => some 32
  | 3 => some 8
  | 4 => some 16
  | _ => none

/-- The authentication value is not of its algorithm's truncated length, or a GMAC IV is not 12 bytes (R127). An identifier of
no algorithm has no length to break: it differs from every FORM (log 93). -/
def tagBad (alg n : Nat) (iv : List Byte) : Bool :=
  (tagLen alg).any (fun m => decide (m ≠ n)) || (decide (alg = 3 ∨ alg = 4) && decide (iv.length ≠ 12))

/-- What a frame is found to be. -/
inductive Found where
  /-- MALFORMED. -/
  | malformed
  | lenMismatch (p : Parsed)
  | bare (p : Parsed)
  | secured (p : Parsed)

/-- The freshness fields of an APDU at `o`, and its end: the APDU of a sampled-value frame (`sv`) or of GOOSE. -/
def readApdu (b : List Byte) (sv : Bool) (o stop : Nat) : Option (Nat × Nat × Nat × Nat) :=
  match tlv b o stop with
  | none => none
  | some (t, a, z) =>
    if t ≠ (if sv then 0x60 else 0x61) then none
    else
      match tlvs b 64 a z with
      | none => none
      | some es =>
        if sv then
          match (elem es 0xA2).bind (fun e => tlv b e.1 e.2) with
          | none => none
          | some (t, a, z') =>
            if t ≠ 0x30 then none
            else ((tlvs b 64 a z').bind (fun l => elemNat b (elem l 0x82) 2)).map (fun c => (z, c, 0, 0))
        else
          match elemNat b (elem es 0x85) 5, elemNat b (elem es 0x86) 5 with
          | some st, some sq => some (z, 0, st, sq)
          | _, _ => none

/-- The authentication extension at `o` (R127). -/
def readExtension (b : List Byte) (o len : Nat) (p : Parsed) : Option Parsed :=
  match tlv b o b.length with
  | none => none
  | some (t, a, z) =>
    if t ≠ 0xAF ∨ z - o ≠ len then none
    else
      match tlvs b 64 a z with
      | none => none
      | some es =>
        match elemNat b (elem es 0x80) 4, elem es 0x81, elem es 0x85 with
        | some k, some (x, y), some (v, w) =>
          let alg := (b.getD x 0).toNat
          let iv := ((elem es 0x82).map (fun e => (b.drop e.1).take (e.2 - e.1))).getD []
          if y - x ≠ 1 ∨ tagBad alg (w - v) iv then none
          else some { p with
            keyId := BitVec.ofNat 32 k, alg := BitVec.ofNat 8 alg, iv := iv, value := (b.drop v).take (w - v),
            span := b.take v ++ (b.drop w).take (z - w) }
        | _, _, _ => none

/-- A sampled-value or GOOSE frame whose header is at `i`. -/
def readL2 (b : List Byte) (sv : Bool) (i : Nat) : Found :=
  let appid : BitVec 16 := if b.length < i + 2 then 0 else BitVec.ofNat 16 (beAt b i 2)
  match if b.length < 60 ∨ 9216 < b.length ∨ b.length < i + 8 then none else readApdu b sv (i + 8) b.length with
  | none => .malformed
  | some (z, c, st, sq) =>
    let p : Parsed := {
      kind := if sv then 0 else 1, appid := appid, srcKind := 0,
      src := BitVec.ofNat 128 (fieldAt b 6 6), smpCnt := c, stNum := st, sqNum := sq }
    let n := beAt b (i + 4) 2 % 4096
    match if n = 0 then some p else readExtension b z n p with
    | none => .malformed
    | some p =>
      let declared := beAt b (i + 2) 2 + n
      let got := b.length - i
      if declared ≠ got ∧ ¬(b.length = 60 ∧ declared < got) then .lenMismatch p
      else if n = 0 then .bare p else .secured p

/-- A routable frame: session header at `o`, UDP payload up to `z` (Table 5.5, R127). -/
def readSession (b : List Byte) (o z : Nat) (p : Parsed) : Option (Parsed × Bool) :=
  let h := (b.getD (o + 5) 0).toNat
  let d := o + 6
  let e := d + h
  let si := (b.getD (o + 2) 0).toNat
  if z < o + 28 ∨ beAt b o 2 ≠ 0x0140 ∨ b.getD (o + 4) 0 ≠ 0x80 ∨ (si ≠ 0xA1 ∧ si ≠ 0xA2) ∨ h < 22 ∨ z < e + 10 then none
  else
    let alg := (b.getD (d + 17) 0).toNat
    let ivLen := if h = 22 then 0 else (b.getD (d + 22) 0).toNat
    let iv := (b.drop (d + 23)).take ivLen
    match readApdu b (si = 0xA2) (e + 10) z with
    | none => none
    | some (a, _, _, _) =>
      let p := { p with
        appid := BitVec.ofNat 16 (beAt b (e + 6) 2), spdu := beAt b (d + 4) 4, keyId := BitVec.ofNat 32 (beAt b (d + 18) 4),
        alg := BitVec.ofNat 8 alg, iv := iv }
      if a = z then some (p, false)
      else
        match tlv b a z with
        | none => none
        | some (t, v, w) =>
          if t ≠ 0x85 ∨ w ≠ z ∨ tagBad alg (w - v) iv then none
          else some ({ p with value := (b.drop v).take (w - v), span := (b.drop o).take (v - o) }, true)

/-- A frame over IP at `i`, or a frame of no kind. -/
def readIp (b : List Byte) (v6 : Bool) (udp i : Nat) : Found :=
  let u := if v6 then i + 40 else i + 20
  let proto := if v6 then (b.getD (i + 6) 0).toNat else (b.getD (i + 9) 0).toNat
  let plain := v6 || (decide ((b.getD i 0).toNat = 0x45) && decide (beAt b (i + 6) 2 % 0x4000 = 0))
  if b.length < 60 ∨ 9216 < b.length ∨ b.length < u + 8 ∨ proto ≠ 17 ∨ plain = false ∨ beAt b (u + 2) 2 ≠ udp then
    .malformed
  else
    let ip := if v6 then 40 + beAt b (i + 4) 2 else beAt b (i + 2) 2
    let got := b.length - i
    let ul := beAt b (u + 4) 2
    let p : Parsed := {
      kind := 2, srcKind := if v6 then 2 else 1,
      src := BitVec.ofNat 128 (if v6 then fieldAt b (i + 8) 16 else fieldAt b (i + 12) 4) }
    match readSession b (u + 8) (if b.length = 60 ∧ ip < got then i + ip else b.length) p with
    | none => .malformed
    | some (p, prot) =>
      if (ip ≠ got ∧ ¬(b.length = 60 ∧ ip < got)) ∨ ul ≠ ip - (u - i) then .lenMismatch p
      else if prot then .secured p else .bare p

/-- Skips up to two VLAN tags: the offset of the EtherType. -/
def etherAt (b : List Byte) : Nat :=
  let vlan (o : Nat) : Bool := decide (beAt b o 2 = 0x8100 ∨ beAt b o 2 = 0x88A8)
  if vlan 12 then (if vlan 16 then 20 else 16) else 12

/-- The APPID that a layer-2 frame has at its place; its first beat holds it (R129). -/
def layer2Appid (b : List Byte) : Option (BitVec 16) :=
  let o := etherAt b
  if o + 4 ≤ b.length ∧ (beAt b o 2 = 0x88BA ∨ beAt b o 2 = 0x88B8) then some (BitVec.ofNat 16 (beAt b (o + 2) 2)) else none

/-- Reads a frame (R126). -/
def readFrame (udp : Nat) (b : List Byte) : Found :=
  let o := etherAt b
  match beAt b o 2 with
  | 0x88BA => readL2 b true (o + 2)
  | 0x88B8 => readL2 b false (o + 2)
  | 0x0800 => readIp b false udp (o + 2)
  | 0x86DD => readIp b true udp (o + 2)
  | _ => .malformed

/-- The tag of a span under a key map entry's form: a slot's key area for HMAC, its key for GMAC (R127). -/
def frameTag (form : Nat) (key : List Byte) (p : Parsed) : List Byte :=
  if form ≤ 2 then
    let c := slotHmac { binding := 0x10, hmacStates := true, keyLen := 32 } key
    (hmacFinish (c.1.absorb p.span) c.2).take ((tagLen form).getD 0)
  else (gcmSeal key p.iv p.span []).2.take ((tagLen form).getD 0)

end Sys2Proof.Machine
end

