-- ==== Sys2Proof/Machine/Stream.lean ====
section
/-! DEFINITION. The stream ports: ingress, parser, key map, freshness, verdicts (05_stream_verifier.md R116–R143). -/

namespace Sys2Proof.Machine

/-! The ingress FIFO: its write side (R116, R117, R124) -/

/-- Changes the marker that is open, if any. -/
def onOpenGap (f : Gap → Gap) (l : List FifoItem) : List FifoItem :=
  l.map (fun i => match i with
    | .gap g => if g.isOpen then .gap (f g) else i
    | _ => i)

/-- A marker is open. -/
def SPort.gapOpen (x : SPort) : Bool := x.fifo.any (fun i => match i with
  | .gap g => g.isOpen
  | _ => false)

/-- The open marker closes (R124). -/
def SPort.closeGap (x : SPort) : SPort := { x with fifo := onOpenGap (fun g => { g with isOpen := false }) x.fifo }

/-- A marker is opened in the free stage; `pos` is the first stage it holds (R124). -/
def SPort.openGap (x : SPort) (seq : Word) (cut : Bool) (first last : DWord) (pos : Nat) : SPort :=
  { x with
    gaps := satAdd x.gaps 1, written := x.written + 1,
    fifo := x.fifo ++ [.gap {
      first := seq, last := seq, count := 1, cut := cut, tFirst := first, tLast := last, isOpen := true, pos := pos }] }

/-- A sof arrives while FULL is asserted: the whole frame is dropped (R124). -/
def SPort.drop (x : SPort) (seq : Word) (first last : DWord) : SPort :=
  if x.gapOpen then
    { x with fifo := onOpenGap (fun g => { g with last := seq, count := seq - g.first + 1, tLast := last }) x.fifo }
  else x.openGap seq false first last x.written

/-- FULL is asserted during the open frame, the last in the FIFO: it is cut, and its written beats stay until the parser has
passed the marker (R124, R125). -/
def SPort.cut (x : SPort) (f : Queued) : SPort :=
  ({ x with fifo := x.fifo.dropLast } : SPort).openGap f.seq true f.first f.last f.pos

/-- What becomes of a frame while its beats arrive. -/
inductive Intake where
  | stored | cut | dropped
  deriving DecidableEq, Repr

/-- Beat `i` of a frame of `n` beats is presented, after what the readers have absorbed until then (R121, R124). -/
def SPort.beat (f : FrameIn) (q : Queued) (n : Nat) (acc : SPort × Intake) (i : Nat) : SPort × Intake :=
  let x := (f.moves.filter (fun m => decide (m.beat = i))).foldl SPort.absorb acc.1
  let (x, way) : SPort × Intake :=
    if i = 0 then
      if x.full then (x.drop q.seq f.first f.last, .dropped)
      else
        let y := x.closeGap
        ({ y with fifo := y.fifo ++ [.frame { q with pos := x.written }], written := x.written + 1 }, .stored)
    else if acc.2 = .stored then
      if x.full then
        (match x.fifo.getLast? with
         | some (.frame g) => x.cut g
         | _ => x, .cut)
      else (if i < 288 then { x with written := x.written + 1 } else x, .stored)
    else (x, acc.2)
  let x := if way = .dropped ∧ i + 1 = n ∧ x.full = false then x.closeGap else x
  (x.mark, way)

/-- The beats of a frame arrive one by one; what the readers absorb behind the last beat follows. -/
def SPort.intake (x : SPort) (f : FrameIn) (q : Queued) : SPort :=
  let n := max 1 (frameBeats f.bytes.length)
  let y := ((List.range n).foldl (SPort.beat f q n) (x, .stored)).1
  (f.moves.filter (fun m => decide (n ≤ m.beat))).foldl SPort.absorb y

/-- The port edge gives NOT_CHECKED_REPAIR to every frame: a restart, or a halt of the block (R143, R326, R327). -/
def State.edgeRepairs (s : State) (p : Nat) : Bool :=
  decide ((s.sport p).state = .restart) || s.fc.lockdown || s.fc.haltPorts.contains p

/-! Parsing and the key lookup (R126–R131) -/

/-- A key map entry admits the port and APPID and is valid. -/
def KmEnt.admits (k : KmEnt) (p : Nat) (appid : BitVec 16) : Bool :=
  k.valid && k.ports.getLsbD p && decide (k.appid = appid)

/-- The stream table entry of a publisher (R134). -/
def State.stream? (s : State) (p : Nat) (x : Parsed) : Option (Nat × SsEnt) :=
  s.st.ss.find? (fun e => e.2.valid && e.2.ports.getLsbD p && decide (e.2.appid = x.appid) &&
    decide (e.2.srcKind = x.srcKind) && decide (e.2.src = x.src))

/-- The entry of a frame, and whether it rolls over to an entry that is not active (R129, R130). -/
def State.keyFor (s : State) (p len : Nat) (x : Parsed) : Option (Nat × KmEnt × Bool) :=
  if x.kind = 2 then
    (s.st.km.find? (fun e => e.2.admits p x.appid && decide (e.2.keyId = x.keyId))).map (fun e => (e.1, e.2, !e.2.active))
  else
    match s.st.km.find? (fun e => e.2.admits p x.appid && e.2.active) with
    | none => none
    | some a =>
      if a.2.keyId = x.keyId then some (a.1, a.2, false)
      else if 2048 < len then none
      else (s.st.km.find? (fun e => e.2.valid && decide (e.2.appid = x.appid) && decide (e.2.keyId = x.keyId))).map
        (fun e => (e.1, e.2, true))

/-- The entry that a layer-2 frame chooses at its first beat (R129). -/
def State.firstEntry (s : State) (p : Nat) (b : List Byte) : Option KmEnt :=
  (layer2Appid b).bind (fun a => (s.st.km.find? (fun e => e.2.admits p a && e.2.active)).map (·.2))

/-- Changes a key map entry. -/
def State.modKm (s : State) (e : Nat) (f : KmEnt → KmEnt) : State :=
  s.modSt (fun t => { t with km := t.km.modify {} e f })

/-- Compressions of a span (R137). -/
def spanCost (n : Nat) : Nat := (n + 9 + 63) / 64 + 1

/-- Compressions of a parsed frame under its entry: twice where a layer-2 frame is hashed again (R130, R137). -/
def frameCost (x : Parsed) (rolled : Bool) : Nat :=
  if rolled && decide (x.kind ≠ 2) then 2 * spanCost x.span.length else spanCost x.span.length

/-- Compressions that a frame will need as an HMAC frame, 0 for any other (ST_PLOAD.OWED). -/
def State.hmacCost (s : State) (p : Nat) (b : List Byte) : Nat :=
  match readFrame (s.sport p).udp.toNat b with
  | .secured x =>
    (match s.keyFor p b.length x with
     | some (_, k, rolled) => if isHmac k.form.toNat && decide (x.alg.toNat = k.form.toNat) then frameCost x rolled else 0
     | none => 0)
  | _ => 0

/-- A frame arrives (R116, R117, R124, R138). -/
def State.frameArrival (s : State) (p : Nat) (f : FrameIn) : State :=
  let x := s.sport p
  if x.state = .off ∨ x.state = .draining then s
  else
    let seq := x.nextSeq
    let s := s.modPort p (fun x => { x with nextSeq := seq + 1, numbered := satAdd x.numbered 1 })
    if s.edgeRepairs p then s.emit p { seq := seq, code := .repair, time := f.last }
    else
      let q : Queued := {
        seq := seq, bytes := f.bytes, truncated := f.abort || f.cutBySof, first := f.first, last := f.last, pos := x.written,
        owed := x.owed, units := (s.tagUnits p true).length, q := s.hmacCost p f.bytes }
      (s.modPort p (fun x => x.intake f q)).assignUnits p

/-- V of R138 exceeds 2,000 ns. -/
def overCap (owed n q d : Nat) : Bool := decide (n = 0) || decide (2000 * n + d * n < 70 * n + 16 * owed + 16 * q * n)

/-- A frame that has its authentication value looks up its key and goes to a tag unit (R119, R129–R131, R137). `a`: the
entry chosen at the first beat. With no unit of its algorithm's kind left it is lost, whatever its key (R142, Table 5.3). -/
def State.lookup (s : State) (p : Nat) (f : Queued) (x : Parsed) (a : Option KmEnt) : State :=
  let found := s.keyFor p f.bytes.length x
  let hm := isHmac x.alg.toNat
  let stop (code : Verdict) (k : Option KmEnt) (s : State) : State := s.early p f.seq code (some x) k f.last
  if x.alg.toNat ≤ 4 ∧ s.tagUnits p hm = [] then stop .repair ((found.map (·.2.1)).orElse (fun _ => a)) s
  else
    match found with
    | none => stop .noKey a s
    | some (e, k, rolled) =>
      if x.alg.toNat ≠ k.form.toNat then stop .noKey (some k) s
      else
        match assoc s.vt.slots k.slot.toNat with
        | none => stop .noKey (some k) s
        | some sl =>
          if sl.attr.notAfter ≠ 0 ∧ sl.attr.notAfter.toNat < f.first.toNat then
            let s := if k.expired then s
              else (s.modKm e (fun k => { k with expired := true })).keyEvent [k.fn.toNat, 0] k.slot.toNat 0x03 4 1 e
            stop .keyExpired (some k) s
          else
            let q := frameCost x rolled
            let job : Job := {
              seq := f.seq, first := f.first, last := f.last, parsed := x, entry := e, km := k,
              key := if hm then sl.area else sl.area.take sl.attr.keyLen, rolled := rolled,
              overcap := hm && overCap f.owed f.units q (f.last.toNat - f.first.toNat), q := if hm then q else 0,
              pos := f.pos, beats := storedBeats f.bytes.length,
              read := if rolled && decide (x.kind ≠ 2) then 0 else f.read }
            (s.modPort p (fun y => ({ y with jobs := y.jobs ++ [job] } : SPort).mark)).assignUnits p

/-- smpCnt is not below the WRAP of the publisher's stream entry (R126). -/
def State.wrapBad (s : State) (p : Nat) (x : Parsed) : Bool :=
  decide (x.kind = 0) &&
  (match s.stream? p x with
   | some (_, e) => decide (e.fresh = 1 ∧ e.wrap.toNat ≤ x.smpCnt)
   | none => false)

/-- The parser takes the frame at its position (R119, R126). -/
def State.parseFrame (s : State) (p : Nat) : State :=
  let x := s.sport p
  match x.fifo with
  | .frame f :: r =>
    let b := f.bytes
    let s := s.modPort p (fun y => { y with fifo := r })
    let k := s.firstEntry p b
    let y0 := (layer2Appid b).map (fun a => ({ appid := a } : Parsed))
    let stop (code : Verdict) (y : Option Parsed) : State := s.early p f.seq code y k f.last
    if s.edgeRepairs p then stop .repair y0
    else if f.truncated then stop .truncated y0
    else
      match readFrame x.udp.toNat b with
      | .malformed => stop .malformed y0
      | .lenMismatch y => stop (if s.wrapBad p y then .malformed else .lenMismatch) (some y)
      | .bare y => stop (if s.wrapBad p y then .malformed else .unprotected) (some y)
      | .secured y => if s.wrapBad p y then stop .malformed (some y) else s.lookup p f y k
  | _ => s

/-- The parser reaches a closed gap marker (R125). -/
def State.parseGap (s : State) (p : Nat) : State :=
  match (s.sport p).fifo with
  | .gap g :: r =>
    if g.isOpen then s
    else (s.modPort p (fun y => { y with fifo := r })).emitRange p .overload g.first g.count.toNat g.tLast
  | _ => s

/-! Freshness (R134–R136) -/

/-- The freshness value F (R135). -/
def SsEnt.freshValue (e : SsEnt) (x : Parsed) : Nat :=
  match e.fresh.toNat with
  | 2 => x.stNum * 2 ^ 32 + x.sqNum
  | 3 => x.spdu
  | _ =>
    let c := x.smpCnt
    let w := e.wrap.toNat
    if !e.seeded then c
    else
      let hc := e.hi.toNat % w
      let base := e.hi.toNat - hc
      if hc ≤ c then (if w / 2 < c - hc ∧ w ≤ base then base - w + c else base + c)
      else if w / 2 < hc - c then base + w + c
      else base + c

/-- The freshness check: whether the frame is accepted, and the entry after it (R136). -/
def SsEnt.accept (e : SsEnt) (f : DWord) : Bool × SsEnt :=
  if e.fresh = 0 then (true, e)
  else if !e.seeded then (true, { e with hi := f, win := 1, seeded := true })
  else if e.hi.toNat < f.toNat then
    let d := f.toNat - e.hi.toNat
    (true, { e with win := if 64 ≤ d then 1 else (e.win <<< d) ||| 1, hi := f })
  else
    let d := e.hi.toNat - f.toNat
    if 64 ≤ d ∨ e.win.getLsbD d then (false, e) else (true, { e with win := e.win ||| (1#64 <<< d) })

/-- FRESH fits the frame's kind (R134). -/
def freshFits (fresh : BitVec 2) (kind : Nat) : Bool := decide (fresh = 0) || decide (fresh.toNat = kind + 1)

/-- The verdict of a frame whose tag has matched (R134–R136). -/
def State.freshness (s : State) (p : Nat) (j : Job) : Verdict × State :=
  match s.stream? p j.parsed with
  | none => (if j.km.replayReq then .noKey else .pass, s)
  | some (i, e) =>
    if !freshFits e.fresh j.parsed.kind then (.noKey, s)
    else
      let (ok, e) := e.accept (BitVec.ofNat 64 (e.freshValue j.parsed))
      (if ok then .pass else .replay, if ok then s.modSt (fun t => { t with ss := t.ss.set {} i e }) else s)

/-- A FAIL_TAG verdict counts toward FAIL_LIMIT (R133). -/
def State.tagFailed (s : State) (j : Job) : State :=
  let k := s.st.km.get {} j.entry
  if k.valid then
    let n := min 65535 (k.failCount.toNat + 1)
    let dead := decide (k.failLimit ≠ 0 ∧ k.failLimit.toNat ≤ n)
    let s := s.modKm j.entry (fun k => { k with
      failCount := BitVec.ofNat 16 n, valid := !dead, failed := dead, active := k.active && !dead, pending := k.pending && !dead })
    if dead then s.keyEvent [k.fn.toNat, 0] k.slot.toNat 0x03 3 0 j.entry else s
  else s

/-- A tag unit finishes a frame: the verdict (R119, R134, R137). -/
def State.tagComplete (s : State) (p : Nat) (seq : Word) : State :=
  match (s.sport p).jobs.find? (fun j => decide (j.seq = seq) && (j.unit.isSome || j.done)) with
  | none => s
  | some j =>
    let s := s.modPort p (fun y =>
      let z : SPort := { y with jobs := y.jobs.filter (fun i => decide (i.seq ≠ seq)) }
      match j.unit with
      | some u => z.frees u
      | none => z)
    let (code, s) : Verdict × State :=
      if s.edgeRepairs p then (.repair, s)
      else if j.key.isEmpty then (.noKey, s)
      else if frameTag j.km.form.toNat j.key j.parsed = j.parsed.value then s.freshness p j
      else (.failTag, s.tagFailed j)
    let s := s.emit p {
      seq := seq, code := code, overcap := j.overcap, replayed := j.replayed, rolled := j.rolled, slot := j.km.slot.toNat,
      appid := j.parsed.appid.toNat, km := some j.km, time := j.last }
    s.assignUnits p

/-! Port state (R120, R143) -/

/-- The numbered frames that have no verdict, in the order of their numbers, as runs. -/
def SPort.owedFrames (x : SPort) : List (Word × Nat × DWord) :=
  x.jobs.map (fun j => (j.seq, 1, j.last)) ++ x.fifo.map (fun i => match i with
    | .frame f => (f.seq, 1, f.last)
    | .gap g => (g.first, g.count.toNat, g.tLast))

/-- Joins runs of consecutive numbers. -/
def joinRuns (l : List (Word × Nat × DWord)) : List (Word × Nat × DWord) :=
  match l with
  | [] => []
  | a :: r =>
    match joinRuns r with
    | [] => [a]
    | b :: t => if b.1 = a.1 + BitVec.ofNat 32 a.2.1 then (a.1, a.2.1 + b.2.1, b.2.2) :: t else a :: b :: t

/-- The parser faults: every frame that has no verdict gets NOT_CHECKED_REPAIR (R143). A port that is DRAINING stays so, since it
takes no further frame (R120; log 159). -/
def State.portRestart (s : State) (p : Nat) : State :=
  let x := s.sport p
  if x.state = .off then s
  else
    let s := s.modPort p (fun y => { y with
      state := if y.state = .draining then .draining else .restart, fifo := [], jobs := [], freed := [] })
    (joinRuns x.owedFrames).foldl (fun s r => s.emitRange p .repair r.1 r.2.1 r.2.2) s

/-- A DRAINING port without a frame left goes OFF; with EN set again it starts anew once its domain is ready (R120). -/
def State.portDrained (s : State) (p : Nat) : State :=
  let x := s.sport p
  if x.state = .draining ∧ x.fifo = [] ∧ x.jobs = [] then
    s.modPort p (fun y =>
      if y.en ∧ (s.dom (46 + p)).state = .on then { y with state := .run, nextSeq := 0 } else { y with state := .off })
  else s

/-- The domain of a port is ready: an enabled port runs (R120, R143). -/
def State.portReady (s : State) (p : Nat) : State :=
  s.modPort p (fun y =>
    if y.state = .off then (if y.en then { y with state := .run, nextSeq := 0 } else y)
    else if y.state = .restart then { y with state := .run } else y)

/-- A write to ST_PCTRL (R120). Until start-up has powered the port's domain, EN waits for it. -/
def State.portCtrl (s : State) (p : Nat) (x : DWord) : State :=
  let y := s.sport p
  let d := s.dom (46 + p)
  let en := bit x 0 && (y.en || !d.holdOff)
  let s := s.modPort p (fun y => { y with en := en, recUnmatched := bit x 1, udp := fld x 16 16 })
  if en && !y.en then
    (if y.state = .off then
      (if d.state = .on then s.portReady p
       else if s.pw.phase = .ready ∧ d.why = .none then s.domWants (46 + p) .wake else s)
     else s)
  else if !en && y.en then
    s.modPort p (fun y => if y.state = .run ∨ y.state = .restart then { y with state := .draining } else y)
  else s

/-! The key map (R131–R133) -/

/-- ERR of ST_KM_CMD. -/
def State.kmErr (s : State) (n : Nat) : State := s.modSt (fun t => { t with kmErr := BitVec.ofNat 4 n })

/-- COMMIT: a reserved encoding, PORTS 0 or FUNCTION above FT_NUMVF (R132). -/
def State.kmRange (s : State) (k : KmEnt) : Bool :=
  decide (4 < k.form.toNat) || decide (k.recMode = 3) || decide (k.ports = 0) || decide (s.fx.numVf.toNat < k.fn.toNat)

/-- COMMIT: another valid entry clashes (R132). -/
def State.kmDup (s : State) (i : Nat) (k : KmEnt) : Bool :=
  s.st.km.any (fun e => decide (e.1 ≠ i) && e.2.valid && decide (e.2.appid = k.appid) &&
    ((decide (e.2.ports &&& k.ports ≠ 0) && decide (e.2.keyId = k.keyId)) || decide (e.2.ports ≠ k.ports)))

/-- The slot suits FORM and grants stream-bind to FUNCTION (R132). -/
def State.kmSlotOk (s : State) (k : KmEnt) (e : SlotEnt) : Bool :=
  let a := e.attr
  let f := s.fn k.fn.toNat
  (decide (a.owner = k.fn.toNat) || (decide (a.share ≠ 0) && decide (f.entry.shareGroup = a.share))) &&
  (decide (a.world = 2) || decide (a.world = f.entry.world)) && a.lcMask.getLsbD s.ts.lcs.toNat && a.perms.getLsbD permStream &&
  (if k.form.toNat ≤ 2 then decide (a.binding = 0x10) && a.hmacStates else decide (a.binding = 3))

/-- Frames that looked up an entry have no verdict yet; `stale`: those that looked up contents since changed (R133). -/
def State.kmUsed (s : State) (i : Nat) (stale : Bool) : Bool :=
  s.st.ports.any (fun p => p.2.jobs.any (fun j => decide (j.entry = i) && (j.stale || !stale)))

/-- Writes an entry: BUSY stands while frames use the old contents (R133). -/
def State.kmPut (s : State) (i : Nat) (k : KmEnt) : State :=
  let old := s.st.km.get {} i
  let busy := old.valid && s.kmUsed i false
  s.modSt (fun t => { t with
    km := t.km.set {} i k, kmErr := 0, kmBusy := busy, kmWait := none, kmOld := if busy then some (i, old.slot.toNat) else none,
    ports := t.ports.map (fun p => (p.1, { p.2 with
      jobs := p.2.jobs.map (fun j => if j.entry = i then { j with stale := true } else j) })) })

/-- An entry is ACTIVE after its COMMIT: no other valid entry has its APPID (R132), or it was active for that APPID before (log
127). -/
def State.kmActive (s : State) (i : Nat) (k : KmEnt) : Bool :=
  let old := s.st.km.get {} i
  (old.valid && old.active && decide (old.appid = k.appid)) ||
  !s.st.km.any (fun x => decide (x.1 ≠ i) && x.2.valid && decide (x.2.appid = k.appid))

/-- COMMIT once the slot can be looked at; a slot that is not in the cache is read first (R132). -/
def State.kmFinish (s : State) (i : Nat) (k : KmEnt) : State :=
  let fail (s : State) : State := (s.modSt (fun t => { t with kmBusy := false, kmWait := none })).kmErr 2
  if k.slot.toNat < 256 then fail s
  else
    match s.look k.slot.toNat with
    | .hit e =>
      if s.kmSlotOk k e then
        s.kmPut i { k with valid := true, active := s.kmActive i k, failed := false, pending := false, failCount := 0, actTime := 0, expired := false }
      else fail s
    | _ => fail s

/-- KM COMMIT. -/
def State.kmCommit (s : State) : State :=
  let i := s.st.kmSel.toNat
  let k := s.st.kmStage
  if s.kmRange k then s.kmErr 4
  else if s.kmDup i k then s.kmErr 1
  else
    match (if k.slot.toNat < 256 then Look.free else s.look k.slot.toNat) with
    | .miss =>
      let s := s.modSt (fun t => { t with kmBusy := true, kmErr := 0, kmWait := some (i, k) })
      let (ok, s) := s.lookUp k.slot.toNat
      if ok then s else (s.lookupFails k.slot.toNat).kmFinish i k
    | _ => s.kmFinish i k

/-- A COMMIT that waited for its slot goes on when the read has ended. -/
def State.kmResume (s : State) : State :=
  match s.st.kmWait with
  | none => s
  | some (i, k) =>
    if s.vt.reading.contains k.slot.toNat || s.vt.parked.contains k.slot.toNat then s else s.kmFinish i k

/-- INVALIDATE. -/
def State.kmInvalidate (s : State) : State :=
  let i := s.st.kmSel.toNat
  s.kmPut i { s.st.km.get {} i with valid := false, active := false, pending := false }

/-- The entry becomes active, the others of its APPID inactive (R132). -/
def State.kmActivate (s : State) (i : Nat) : State :=
  let a := (s.st.km.get {} i).appid
  (s.modSt (fun t => { t with km := t.km.map (fun e => if e.2.valid ∧ e.2.appid = a then (e.1, { e.2 with active := false }) else e) })).modKm
    i (fun k => { k with active := true, pending := false })

/-- ACTIVATE: ACT_TIME 0 takes effect at once (ST_KM_ACT). -/
def State.activate (s : State) : State :=
  let i := s.st.kmSel.toNat
  if (s.st.km.get {} i).valid then
    let s := s.kmErr 0
    if s.st.kmAct = 0 then s.kmActivate i else s.modKm i (fun k => { k with pending := true, actTime := s.st.kmAct })
  else s.kmErr 3

/-- ACT_TIME is reached. -/
def State.actReached (s : State) (i : Nat) : State :=
  let k := s.st.km.get {} i
  if k.valid && k.pending && decide (k.actTime.toNat ≤ s.po.tm.toNat) then s.kmActivate i else s

/-- BUSY clears once no frame uses the old contents (R133). -/
def State.kmBusyClear (s : State) : State :=
  match s.st.kmOld with
  | some (i, _) =>
    if s.kmUsed i true then s else (s.modSt (fun t => { t with kmBusy := t.kmWait.isSome, kmOld := none })).retryLookups
  | none => s

/-- LOAD: ST_KM_ENTRY shows the entry. -/
def State.kmLoad (s : State) : State :=
  s.modSt (fun t => { t with kmStage := t.km.get {} t.kmSel.toNat, kmErr := 0 })

/-- A write to ST_KM_CMD: while BUSY it sets ERR 6. -/
def State.kmCmd (s : State) (op : Nat) : State :=
  if s.st.kmBusy then s.kmErr 6
  else
    match op with
    | 1 => s.kmLoad
    | 2 => s.kmCommit
    | 3 => s.kmInvalidate
    | 4 => s.activate
    | _ => s.kmErr 5

/-! The stream table (R134, R136) -/

/-- ERR of ST_SS_CMD. -/
def State.ssErr (s : State) (n : Nat) : State := s.modSt (fun t => { t with ssErr := BitVec.ofNat 4 n })

/-- SS COMMIT. -/
def State.ssCommit (s : State) : State :=
  let i := s.st.ssSel.toNat
  let e := s.st.ssStage
  if e.srcKind = 3 ∨ (e.fresh = 1 ∧ e.wrap = 0) then s.ssErr 4
  else if s.st.ss.any (fun x => decide (x.1 ≠ i) && x.2.valid && decide (x.2.ports &&& e.ports ≠ 0) &&
      decide (x.2.appid = e.appid) && decide (x.2.srcKind = e.srcKind) && decide (x.2.src = e.src)) then s.ssErr 1
  else
    (s.modSt (fun t => { t with ss := t.ss.set {} i { e with valid := true, win := if e.seeded then 1 else 0 } })).ssErr 0

/-- A write to ST_SS_CMD. -/
def State.ssCmd (s : State) (op : Nat) : State :=
  let i := s.st.ssSel.toNat
  match op with
  | 1 => s.modSt (fun t => { t with ssStage := t.ss.get {} i, ssWin := (t.ss.get {} i).win, ssErr := 0 })
  | 2 => s.ssCommit
  | 3 => (s.modSt (fun t => { t with ss := t.ss.set {} i { t.ss.get {} i with valid := false } })).ssErr 0
  | _ => s.ssErr 5

/-! Registers -/

/-- A port's status word (ST_PSTATUS). -/
def portStatus (s : State) (p : Nat) : DWord :=
  let x := s.sport p
  let h := s.poolWorking (0x310 + 2 * p)
  pk [(0, x.state.code), (2, min h 4), (5, b2n (decide (0 < s.poolSpares (0x310 + 2 * p)))),
      (6, b2n (decide (0 < s.poolWorking (0x311 + 2 * p)))), (7, b2n (decide (0 < s.poolSpares (0x311 + 2 * p)))),
      (8, b2n x.full), (9, b2n x.gapOpen), (10, b2n (s.dom (46 + p)).holdOff)]

/-- Key map entry words as they read. -/
def KmEnt.lo (k : KmEnt) : DWord :=
  pk [(0, b2n k.valid), (1, b2n k.active), (2, b2n k.failed), (3, b2n k.replayReq), (4, b2n k.pending), (8, k.form.toNat),
      (12, k.ports.toNat), (16, k.appid.toNat), (32, k.keyId.toNat)]
def KmEnt.hiWord (k : KmEnt) : DWord :=
  pk [(0, k.slot.toNat), (20, k.recMode.toNat), (22, k.fn.toNat), (32, k.failLimit.toNat), (48, k.failCount.toNat)]

/-- The ST_ page: reads. -/
def stRead (s : State) (off : Nat) : DWord :=
  let t := s.st
  if off < 0x400 then
    let p := off / 0x100
    let x := s.sport p
    let o := off % 0x100
    if o = 0x00 then pk [(0, b2n x.en), (1, b2n x.recUnmatched), (16, x.udp.toNat)]
    else if o = 0x08 then portStatus s p
    else if o = 0x10 then pk [(0, x.owed), (16, x.occ), (32, x.occHwm.toNat), (48, x.owedHwm.toNat)]
    else if 0x40 ≤ o ∧ o < 0x98 then x.counts.get 0 ((o - 0x40) / 8)
    else if o = 0x98 then x.overcap
    else if o = 0xA0 then x.gaps
    else if o = 0xA8 then x.rewinds
    else if o = 0xB0 then x.rolled
    else if o = 0xB8 then x.numbered
    else 0
  else
    match off with
    | 0x1000 => pk [(0, t.kmSel.toNat)]
    | 0x1008 => pk [(8, b2n t.kmBusy), (12, t.kmErr.toNat)]
    | 0x1010 => t.kmStage.lo
    | 0x1018 => t.kmStage.hiWord
    | 0x1020 => t.kmAct
    | 0x2000 => pk [(0, t.ssSel.toNat)]
    | 0x2008 => pk [(12, t.ssErr.toNat)]
    | 0x2010 => pk [(0, b2n t.ssStage.valid), (1, b2n t.ssStage.seeded), (4, t.ssStage.ports.toNat), (8, t.ssStage.srcKind.toNat),
        (10, t.ssStage.fresh.toNat), (16, t.ssStage.appid.toNat), (32, t.ssStage.wrap.toNat)]
    | 0x2018 => t.ssStage.src.extractLsb' 0 64
    | 0x2020 => t.ssStage.src.extractLsb' 64 64
    | 0x2028 => t.ssStage.hi
    | 0x2030 => t.ssWin
    | _ => 0

/-- The ST_ page: writes. -/
def stWrite (s : State) (off : Nat) (q : WReq) : State :=
  let x := q.x
  let km (f : KmEnt → KmEnt) : State := s.modSt (fun t => { t with kmStage := f t.kmStage })
  let ss (f : SsEnt → SsEnt) : State := s.modSt (fun t => { t with ssStage := f t.ssStage })
  if off < 0x400 then (if off % 0x100 = 0 ∧ q.lo then s.portCtrl (off / 0x100) x else s)
  else
    match off with
    | 0x1000 => s.modSt (fun t => { t with kmSel := fld x 0 12 })
    | 0x1008 => if q.lo then s.kmCmd (fld x 0 3).toNat else s
    | 0x1010 => km (fun k => { k with
        replayReq := bit x 3, form := fld x 8 3, ports := fld x 12 4, appid := fld x 16 16, keyId := fld x 32 32 })
    | 0x1018 => km (fun k => { k with slot := fld x 0 19, recMode := fld x 20 2, fn := fld x 22 10, failLimit := fld x 32 16 })
    | 0x1020 => s.modSt (fun t => { t with kmAct := x })
    | 0x2000 => s.modSt (fun t => { t with ssSel := fld x 0 13 })
    | 0x2008 => if q.lo then s.ssCmd (fld x 0 2).toNat else s
    | 0x2010 => ss (fun e => { e with
        seeded := bit x 1, ports := fld x 4 4, srcKind := fld x 8 2, fresh := fld x 10 2, appid := fld x 16 16, wrap := fld x 32 16 })
    | 0x2018 => ss (fun e => { e with src := e.src.extractLsb' 64 64 ++ x })
    | 0x2020 => ss (fun e => { e with src := x ++ e.src.extractLsb' 0 64 })
    | 0x2028 => ss (fun e => { e with hi := x })
    | _ => s

/-- A read of ST_PLOAD clears its marks when it covers them (R407). -/
def stTake (s : State) (off : Nat) (hi : Bool) : State :=
  if off < 0x400 ∧ off % 0x100 = 0x10 ∧ hi then s.modPort (off / 0x100) (fun x => { x with occHwm := 0, owedHwm := 0 }) else s

end Sys2Proof.Machine
end

