-- ==== Sys2Proof/Machine/Tamper.lean ====
section
/-! DEFINITION. The tamper response: alarm lines, burnish, erase of the session, tamper records, monitor tests, the backup
cell (14_protection.md R361–R371). -/

namespace Sys2Proof.Machine

/-! Erasing (Table 14.4, R364) -/

/-- A started link that an erase ends with CONTEXT_LOST: on a lane, a core, the DRBG or the vault engine (R364). -/
def lostByErase (e : TagEnt) : Bool :=
  (e.started || decide (e.phase = .commitWait)) && decide (e.phase ≠ .ended) &&
  decide (kindOf e.desc.opcode ∈ [.cipher, .digest, .modular, .ntt, .drbg, .vault])

/-- Ends one link with CONTEXT_LOST; its unit is free. -/
def State.loseLink (s : State) (t : Nat) (e : TagEnt) : State :=
  let s := s.endLink t .contextLost 0 0
  match e.phase.unit? with
  | some u => s.freeOf u
  | none => s

/-- What ERASE_SESSION erases (R94, R131, R186, R218, R260, R364). -/
def State.eraseSession (s : State) : State :=
  let s := (s.sq.tags.filter (fun p => lostByErase p.2)).foldl (fun s p => s.loseLink p.1 p.2) s
  let s := (s.clearCtxs (fun _ _ => true)).2
  let s := s.modDg (fun d => { d with spillKey := [] })
  let s : State := { s with sq := { s.sq with spillKey := [] }, pk := { s.pk with imps := [] } }
  let s := s.modRng (fun g =>
    if g.current = .ready ∨ g.current = .repair then g.zeroise.enter .startup else g.zeroise)
  let s := s.modVt (fun v => { v with
    slots := [], nodes := [], reading := v.reading.filter (· == 0), reread := [], parked := [], waiters := [], batches := [],
    recovered := [], sweepAt := s.d0.sweepPos.toNat })
  let s := s.kmAbandon
  let s : State := { s with st := { s.st with
    km := s.st.km.map (fun (p : Nat × KmEnt) => (p.1, { p.2 with valid := false, active := false, pending := false })),
    ports := s.st.ports.map (fun (p : Nat × SPort) =>
      (p.1, { p.2 with jobs := p.2.jobs.map (fun j => { j with key := [] }) })) } }
  let s := s.answered (fun w => match w with
    | .vaultRead n => decide (n ≠ 0)
    | .vaultWrite | .blobWrite | .sweep => true
    | _ => false)
  let s := if decide (s.vt.state = .vopen ∨ s.vt.state = .recovering) && s.d0.batch.isSome then s.startRecovery
    else if s.vt.closing then s.vaultClosed.tryOpen else s.sweepRead
  s.schedule

/-- What ERASE_ALL erases: the session, the tamper secret and the authority slots; the vault is ERASED (R260, R364). -/
def State.eraseAll (s : State) : State :=
  let s := s.eraseSession
  let s := s.modVt (fun v => { v with
    state := .erased, closing := false, recoverDue := false, reading := [], vr := [], ur := [], regs := [] })
  ({ s with ts := { s.ts with erased := true } } : State).modD0 (fun d => { d with tamperSecret := 0, burnished := true })

/-- The responses (Table 14.4): 0 ERASE_ALL, 1 ERASE_SESSION, 2 REPORT. On the backup cell ERASE_ALL clears the tamper
secret alone, and the others only record (R368). -/
def State.respond (s : State) (response : Nat) : State :=
  if s.d0.onCell then
    if response = 0 then s.modD0 (fun d => { d with tamperSecret := 0, burnished := true }) else s
  else
    match response with
    | 0 => s.eraseAll
    | 1 => s.eraseSession
    | _ => s

/-! Records (R370) -/

/-- TIME of a record: `tm_`, or 32.768 kHz cycles since the loss of main power (Table 14.6). -/
def State.recordTime (s : State) : DWord :=
  if s.d0.onCell then BitVec.ofNat 64 ((s.po.tm.toNat - s.d0.lossTime.toNat) * 32768 / 1000000000) else s.po.tm

/-- A tamper record; beyond the eighth it is counted (R370). -/
def State.tamperRecord (s : State) (cause response : Nat) : State :=
  let r : TamperRec := {
    cause := BitVec.ofNat 5 cause, response := BitVec.ofNat 2 response, onCell := s.d0.onCell, time := s.recordTime }
  if s.d0.records.length < 8 then { s with d0 := { s.d0 with records := s.d0.records ++ [r] } }
  else { s with d0 := { s.d0 with recLost := satAdd s.d0.recLost 1 } }

/-- The TAMPER event record (Table 2.8). -/
def State.tamperEvent (s : State) (cause response : Nat) (time : DWord) : State :=
  s.event 0 0x0F 0 noRing ([BitVec.ofNat 8 cause, BitVec.ofNat 8 response] ++ zeros 6 ++ leBytes 8 time.toNat)

/-- The records of one alarm event (R363): on the cell only the tamper record. -/
def State.alarmRecords (s : State) (line response : Nat) : State :=
  let s := s.tamperRecord line response
  if s.d0.onCell then s
  else (s.raise 0x001 0x38 (BitVec.ofNat 44 (line + response * 16))).tamperEvent line response s.po.tm

/-- Configuration of an alarm line. -/
def State.line (s : State) (n : Nat) : LineCfg := s.d0.lines.get {} n

/-- The alarm events of one sentinel cycle: the union of the responses, then every record in line order (R363, R365). -/
def State.alarms (s : State) (lines : List Nat) : State :=
  let armed := lines.filter (fun n => (s.line n).en && !s.ts.supp.getLsbD n)
  if armed.isEmpty then s
  else
    let strongest := (armed.map (fun n => (s.line n).response.toNat)).foldl min 2
    armed.foldl (fun s n => s.alarmRecords n (s.line n).response.toNat) (s.respond strongest)

/-- New levels on the alarm lines: each rise is one event (R361). -/
def State.alarmLevels (s : State) (levels : BitVec 16) : State :=
  let rises := (List.range 16).filter (fun n => levels.getLsbD n && !s.ts.levels.getLsbD n)
  ({ s with ts := { s.ts with levels := levels } } : State).alarms rises

/-! The backup cell (R369) -/

/-- The pre-emptive burnish. -/
def State.preempt (s : State) : State := (s.respond 0).tamperRecord 0x10 0

/-- The cell falls below 1.80 V. -/
def State.cellCritical (s : State) : State :=
  if s.d0.onCell && decide (s.ts.cell ≠ .critical) then
    ({ s with ts := { s.ts with cell := .critical } } : State).preempt
  else s

/-- The cell crosses a threshold. -/
def State.cellLevel (s : State) (c : Cell) : State :=
  if c = .critical ∧ s.d0.onCell then s.cellCritical else { s with ts := { s.ts with cell := c } }

/-- The cell no longer retains D0; its voltage lies below every threshold. -/
def State.cellDepleted (s : State) : State :=
  if s.d0.onCell then { s with d0 := { onCell := true }, ts := { s.ts with cell := .critical } } else s

/-! Registers -/

/-- A GO to TS_TEST (R366). -/
def State.testGo (s : State) (line window : Nat) : State :=
  let recent := match s.ts.lastTest.get none line with
    | some t => decide (s.po.tm.toNat < t.toNat + 100000000)
    | none => false
  if s.ts.testBusy || recent || decide (window = 0) || s.d0.onCell then
    { s with ts := { s.ts with testResult := 3 } }
  else
    { s with ts := { s.ts with
      testBusy := true, testResult := 0, stim := 1#16 <<< line, supp := 1#16 <<< line,
      lastTest := s.ts.lastTest.set none line (some s.po.tm) } }

/-- 10 µs after the window (R366). -/
def State.testEnd (s : State) (seen still : Bool) : State :=
  if s.ts.testBusy then
    let n := ((List.range 16).find? (fun i => s.ts.supp.getLsbD i)).getD 0
    let levels := if still then s.ts.levels ||| (1#16 <<< n) else s.ts.levels &&& ~~~(1#16 <<< n)
    let s := { s with ts := { s.ts with
      testBusy := false, testResult := if seen && !still then 1 else 2, stim := 0, supp := 0, levels := levels } }
    let s := if seen then s else s.raise 0x001 0x38 (BitVec.ofNat 44 (n + 48))
    if still then s.alarms [n] else s
  else s

/-- A write to TS_TEST. -/
def State.tsTest (s : State) (q : WReq) : State :=
  let s := { s with ts := { s.ts with testLine := fld q.x 0 4, testWindow := fld q.x 4 10 } }
  if q.lo && bit q.x 14 then s.testGo (fld q.x 0 4).toNat (fld q.x 4 10).toNat else s

/-- A write to TS_LINE_CFG (R362). -/
def State.lineWrite (s : State) (n : Nat) (v : Word) : State :=
  if s.ts.locks.getLsbD n ∨ v.extractLsb' 1 2 = (3 : BitVec 2) then s
  else
    { s with
      d0 := { s.d0 with lines := s.d0.lines.set {} n { en := v.getLsbD 0, response := v.extractLsb' 1 2 } },
      ts := { s.ts with locks := if v.getLsbD 31 then s.ts.locks ||| (1#16 <<< n) else s.ts.locks } }

/-- TS_CTRL (R371). -/
def State.softErase (s : State) (response cause : Nat) : State :=
  ((s.respond response).tamperRecord cause response).tamperEvent cause response s.po.tm

/-- A line's register. -/
def State.lineWord (s : State) (n : Nat) : Nat :=
  b2n (s.line n).en + 2 * (s.line n).response.toNat + 2 ^ 31 * b2n (s.ts.locks.getLsbD n)

/-- CELL as it reads. -/
def cellCode (c : Cell) : Nat :=
  match c with
  | .good => 0
  | .low => 1
  | .critical => 2

/-- The words of a tamper record (Table 14.6). -/
def TamperRec.word (r : TamperRec) : DWord := pk [(0, r.cause.toNat), (5, r.response.toNat), (7, b2n r.onCell)]

/-- The TS_ registers: reads, by offset from 0x000F_8000. TS_CTRL.BURNISH and SESSION, TS_TEST.GO and TS_REC_STAT.CLEAR are
W1S, and R10 names no moment at which such a command bit falls: they read 0 at once (DESIGN CHOICE, log 149). -/
def tsRead (s : State) (off : Nat) : DWord :=
  let rec8 (n : Nat) (f : TamperRec → DWord) : DWord := ((s.d0.records[n]?).map f).getD 0
  if off = 0x08 then
    pk [(0, s.ts.levels.toNat), (16, min s.ts.lcs.toNat 4), (19, b2n s.ts.erased), (20, cellCode s.ts.cell)]
  else if off = 0x10 then
    pk [(0, s.ts.testLine.toNat), (4, s.ts.testWindow.toNat), (15, b2n s.ts.testBusy), (16, s.ts.testResult.toNat)]
  else if 0x100 ≤ off ∧ off < 0x140 then
    let n := (off - 0x100) / 4
    pk [(0, s.lineWord n), (32, s.lineWord (n + 1))]
  else if off = 0x200 then pk [(0, s.d0.records.length), (8, s.d0.recLost.toNat)]
  else if off = 0x208 then s.d0.lossTime
  else if 0x300 ≤ off ∧ off < 0x380 then
    if off % 16 = 0 then rec8 ((off - 0x300) / 16) TamperRec.word else rec8 ((off - 0x300) / 16) (·.time)
  else 0

/-- The TS_ registers: writes. The debug master's have no effect, but its GO reads
REFUSED (R355, R366). -/
def tsWrite (s : State) (off : Nat) (q : WReq) : State :=
  if q.init = debugId then
    (if off = 0x10 ∧ q.lo ∧ bit q.x 14 then { s with ts := { s.ts with testResult := 3 } } else s)
  else if off = 0x00 then
    let s := if q.lo && bit q.x 0 then s.softErase 0 0x11 else s
    if q.lo && bit q.x 1 then s.softErase 1 0x12 else s
  else if off = 0x10 then (if q.lo then s.tsTest q else s)
  else if 0x100 ≤ off ∧ off < 0x140 then
    let n := (off - 0x100) / 4
    let s := if q.lo then s.lineWrite n (loHalf q.x) else s
    if q.hi then s.lineWrite (n + 1) (hiHalf q.x) else s
  else if off = 0x200 then
    (if q.lo && bit q.x 16 then { s with d0 := { s.d0 with records := [], recLost := 0 } } else s)
  else s

end Sys2Proof.Machine
end

