-- ==== Sys2Proof/Machine/Faults.lean ====
section
/-! DEFINITION. Fault collection (13_faults_repair.md R320–R336, R341, R342, R345): what a checker's report does at
once, the collector's procedure, the actions of the levels, held records, and the FC_ page. -/

namespace Sys2Proof.Machine

/-- Changes the collector. -/
def State.modFc (s : State) (f : Collector → Collector) : State := { s with fc := f s.fc }

/-! Sources -/

/-- The sources of Table 13.2. -/
def knownSource (n : Nat) : Bool :=
  decide (n ≤ 6) || decide (8 ≤ n ∧ n ≤ 14) || decide (n = 0x10 ∨ n = 0x11) || decide (0x100 ≤ n ∧ n ≤ 0x111) ||
  decide (0x120 ≤ n ∧ n ≤ 0x128) || decide (0x140 ≤ n ∧ n ≤ 0x147) || decide (0x200 ≤ n ∧ n < 0x240 ∧ n % 16 ≤ 8) ||
  decide (0x300 ≤ n ∧ n ≤ 0x304) || decide (0x310 ≤ n ∧ n ≤ 0x317)

/-- Programmable sources (Table 13.2). -/
def progSource (n : Nat) : Bool := decide (n ≤ 6)

/-- The stream port of a source in 0x200–0x23F. -/
def streamSource? (n : Nat) : Option Nat := if 0x200 ≤ n ∧ n < 0x240 then some ((n - 0x200) / 16) else none

/-- A stream parser source, a comparator source. -/
def isParser (n : Nat) : Bool := decide (0x200 ≤ n ∧ n < 0x240 ∧ n % 16 = 0)
def isComparator (n : Nat) : Bool := decide (0x200 ≤ n ∧ n < 0x240 ∧ n % 16 = 8)

/-- Sources that speak for a pool. -/
def isPool (n : Nat) : Bool := decide (0x300 ≤ n)

/-- Sources without a spare that a message at L3 restarts (Table 13.2). -/
def isSingle (n : Nat) : Bool := decide (n = 3 ∨ n = 4 ∨ (8 ≤ n ∧ n ≤ 14)) || isParser n

/-- Sources whose loss is classified at L4 (Table 13.8). -/
def haltsWhenLost (n : Nat) : Bool := decide (n = 4 ∨ n = 8 ∨ n = 9 ∨ n = 10)

/-- Checkers that a source has, by the kinds they report (Tables 13.2, 13.4; R336). -/
def checkerHas (n kind : Nat) : Bool :=
  knownSource n && !isPool n && decide (n ≠ 0) &&
  (if n = 3 then decide (kind = 0x32 ∨ kind = 0x33)
   else if isComparator n then decide (kind = 0x05)
   else decide (1 ≤ kind ∧ kind ≤ 4) || (decide (kind = 0x24) && decide (0x140 ≤ n ∧ n ≤ 0x147)))

/-- A unit that can report: it is powered and not out of service. -/
def State.reports (s : State) (n : Nat) : Bool :=
  if (poolOf n).isSome then
    match (s.unit n).role with
    | .working | .reserved | .spare | .proofing => true
    | _ => false
  else if isSingle n then decide ((s.unit n).role = .working) && !(s.unit n).outOfService
  else match streamSource? n with
    | some p => decide ((s.dom (46 + p)).state = .on)
    | none => true

/-- The kind that an inverted check of a class reports (R336). -/
def classKind (n cls : Nat) : Option Nat :=
  let rows : List Nat :=
    if !knownSource n || isPool n || n = 0 then []
    else if 0x100 ≤ n ∧ n ≤ 0x111 then [1, 1, 1, 1, 1, 2, 3]
    else if (0x120 ≤ n ∧ n ≤ 0x128) ∨ (0x140 ≤ n ∧ n ≤ 0x147) then [1, 1, 1, 2, 3]
    else if n = 3 then [0x32, 0x30]
    else if isComparator n then []
    else [3, 2, 1]
  if isComparator n ∧ cls = 1 then some 5 else rows[cls]?

/-! Fencing -/

/-- Burin halts (R278, R285, R273): its unit is fenced. -/
def State.burinHalts (s : State) : State :=
  (s.modBu (fun b => { b with state := .halted, waiting := false })).modUnit 0x003 (fun x =>
    if x.role = .working then { x with role := .fenced } else x)

/-- Takes the link off a unit without a spare; it runs again with REPLAYED, and on Stipple before every other link (R219,
R239). -/
def State.putBack (s : State) (u : Nat) : State :=
  match (s.unit u).busy with
  | some t => (s.requeue t true).modTag t (fun e => { e with first := decide (u = 0x00C) })
  | none => s

/-- The unit of a source is fenced (R19, R321): a unit with spares at once leaves its work to them. -/
def State.fenceSource (s : State) (n : Nat) : State :=
  if s.fc.halted then s
  else if (poolOf n).isSome then s.fenceUnit n
  else if !isSingle n || decide ((s.unit n).role ≠ .working) then s
  else
    let s := if n = 0x00B ∨ n = 0x00C then s.putBack n else s
    let s := s.modUnit n (fun x => { x with role := .fenced, busy := if n = 0x003 ∨ n = 0x004 then x.busy else none, faults := satAdd x.faults 1 })
    if n = 0x003 then s.burinHalts
    else if n = 0x00B then s.modRng (fun g => if g.current = .error then g else g.enter .repair)
    else if n = 0x00D then s.dmaFault
    else match streamSource? n with
      | some p => s.portRestart p
      | none => s

/-- A unit without a spare is taken out of service (R341, Table 13.8). -/
def State.takeOut (s : State) (n : Nat) : State :=
  let s := s.fenceSource n
  let s := s.modUnit n (fun x => { x with outOfService := true, role := if n = 0x00B then .working else .off, busy := none })
  let s := s.raise n 0x08 0
  let s := match unitDomain n with
    | some d => if n = 0x003 ∨ haltsWhenLost n then s else s.domOff d .off .retired
    | none => s
  if n = 0x00B then (s.modRng (fun g => { g.zeroise.enter .error with stuck := true })).schedule
  else if n = 0x00C then (s.capacity 0x00C 0 0).schedule
  else if n = 0x00D then s.dmaHaltAll 1
  else s

/-- The unit restarted within REJOIN_MS (R339, R341). -/
def State.recent (s : State) (n : Nat) : Bool :=
  match (s.unit n).rejoined with
  | some t => decide (s.po.tm.toNat < t.toNat + s.fc.rejoinMs.toNat * 1000000)
  | none => false

/-- What a Burin halt at L3 does to the link it ran (R344): an etched link runs again from its start, a management link
ends with BUS_ERROR. -/
def State.burinLink (s : State) : State :=
  match (s.unit 0x003).busy with
  | none => s
  | some t =>
    match s.tag? t with
    | none => s
    | some e => if 0xE00 ≤ e.desc.opcode.toNat then s.requeue t true else s.finish t .busError 0 0

/-- The At L3 action of a source for a message of a fencing kind (Table 13.2). -/
def State.actL3 (s : State) (n : Nat) : State :=
  if s.fc.halted then s
  else if (poolOf n).isSome then s.repairUnit n
  else if !isSingle n then s
  else
    let lost := s.recent n
    let s := s.fenceSource n
    let s := if n = 0x003 then s.burinLink else s
    if lost then s.takeOut n
    else match unitDomain n with
      | some d => s.domWants d .restart
      | none => s

/-! Held records -/

/-- The condition of a source's held record has not ended (R324, Table 13.4). -/
def State.condHolds (s : State) (n : Nat) : Bool :=
  let x := s.src n
  if x.held = 0 ∨ x.heldKind = 0x20 ∨ x.heldKind = 0x43 ∨ (x.heldKind = 0x09 ∧ n = 0x304) then false
  else if x.byUnit then
    !(s.unit n).outOfService && (decide ((s.unit n).role = .fenced) || decide ((s.unit n).role = .proofing) ||
      (decide (n = 0x003) && decide (s.bu.state ≠ .run) && decide (s.bu.state ≠ .rollback)))
  else match x.heldKind.toNat with
    | 0x08 => if isPool n then !s.poolReady n else (s.unit n).outOfService
    | 0x09 => decide (s.poolWorking n = 0)
    | 0x0C => s.pw.doms.any (fun p => p.2.late)
    | 0x18 => !s.pw.refOk
    | 0x25 => decide (s.pk.rng.state ≠ .ready)
    | 0x36 => decide (s.bu.state ≠ .run)
    | _ => !x.acked

/-- Records at L2 and L3 clear once they are acknowledged and their condition has ended (R331). -/
def State.settleHeld (s : State) : State :=
  s.fc.srcs.foldl (fun s (p : Nat × Src) =>
    let x := p.2
    if (x.held = 2 ∨ x.held = 3) ∧ x.acked ∧ s.condHolds p.1 = false then
      s.setSrc p.1 { x with held := 0, heldKind := 0, acked := false, byUnit := false }
    else s) s

/-! Levels -/

/-- The 64-bit fault message (Table 13.1). -/
def FMsg.word (m : FMsg) : DWord := pk [(0, m.source.toNat), (12, m.kind.toNat), (20, m.addr.toNat)]

/-- First-fault capture (R333). -/
def State.capture (s : State) (m : FMsg) (lv : Nat) : State :=
  if lv < s.fc.captureMin.toNat then s
  else if s.fc.first.valid then
    if s.fc.first.compat then s else s.modFc (fun c => { c with first := { c.first with overflow := true } })
  else
    let y := s.fc.compatY7
    s.modFc (fun c => { c with first := {
      valid := true, level := BitVec.ofNat 3 lv, compat := y, access := if y then m.access else 0,
      initiator := if y then m.initiator else 0, msg := if y then m.full.setWidth 64 else m.word, time := s.po.tm } })

/-- The FAULT event record (Table 2.8). -/
def State.faultEvent (s : State) (m : FMsg) (lv : Nat) : State :=
  s.event 0 0x0B 0 noRing (leBytes 8 m.word.toNat ++ [BitVec.ofNat 8 lv])

/-- The stream port whose source halts the block: its parser, tag units, comparator, or a pool of its tag units (R326,
Table 13.2). -/
def haltPort? (n : Nat) : Option Nat := if 0x310 ≤ n ∧ n ≤ 0x317 then some ((n - 0x310) / 2) else streamSource? n

/-- The block halts (R326). -/
def State.halt (s : State) (source : Nat) : State :=
  if s.fc.halted then s
  else
    let s := s.modFc (fun c => { c with halted := true, haltPorts := (haltPort? source).toList })
    let s := (List.range 32).foldl (fun s c => s.dmaAbort c) s
    (s.abandon (fun _ => true)).modBu (fun b => { b with state := .halted, waiting := false })

/-- Lockdown (R327): the halt, the session erase, and the message kept in D0. -/
def State.lockdownAct (s : State) (m : FMsg) : State :=
  let s := (s.halt m.source.toNat).eraseSession
  { (s.modFc (fun c => { c with lockdown := true })) with d0 := { s.d0 with l5 := some m.word } }

/-- What follows a classification: hold, total, capture, record and action (R325, R328). -/
def State.levelAct (s : State) (m : FMsg) (lv : Nat) : State :=
  let n := m.source.toNat
  let fence := fences m.kind.toNat && decide (3 ≤ lv) && !s.fc.halted && ((poolOf n).isSome || isSingle n)
  let x := s.src n
  let x := if 2 ≤ lv then
      let top := decide (x.held ≤ lv)
      { x with held := max x.held lv, heldKind := if top then m.kind else x.heldKind,
               byUnit := if top then fence else x.byUnit, acked := false }
    else x
  let s := s.setSrc n { x with total := satAdd x.total (1 + m.merged), lastKind := m.kind }
  let s := (s.capture m lv).traceRec 2 m.word
  let s := if s.fc.evtMin.toNat ≤ lv ∨ 4 ≤ lv then s.faultEvent m lv else s
  if lv = 5 then s.lockdownAct m
  else if lv = 4 then s.halt n
  else if fence then
    (s.actL3 n).modBu (fun b => b.arrive 0x20)
  else s

/-- The level before the hold, with the source's count moved on (R328). -/
def State.levelOf (s : State) (m : FMsg) : Nat × Src :=
  let n := m.source.toNat
  let k := m.kind.toNat
  let x := s.src n
  match fixedLevel n k with
  | some l => (l, x)
  | none =>
    let base := baseLevel k
    let (lv, x) : Nat × Src :=
      if progSource n then (max base x.sev.toNat, x)
      else if base ≤ 2 then
        let fresh := decide (x.count = 0) || decide (2 ^ x.wcode.toNat * 1000 ≤ (s.po.tm - x.winStart).toNat)
        let x := if fresh then { x with winStart := s.po.tm, count := 0 } else x
        if x.n.toNat ≤ x.count.toNat + 1 then (base + 1, { x with count := 0 }) else (base, { x with count := x.count + 1 })
      else (base, x)
    let lv := if 2 ≤ lv ∧ 2 ≤ x.held ∧ x.acked = false ∧ x.heldKind = m.kind then max lv x.held + 1 else lv
    let lv := if fences k ∧ 3 ≤ lv ∧ haltsWhenLost n ∧ s.recent n then max lv 4 else lv
    (min lv 5, x)

/-- The collector takes the message that waits at a source and classifies it (R320, R328). -/
def State.classify (s : State) (source : Nat) : State :=
  match s.fc.waiting.find? (fun m => decide (m.source.toNat = source)) with
  | none => s
  | some m =>
    let s := s.modFc (fun c => { c with waiting := c.waiting.filter (fun x => decide (x.source ≠ m.source)) })
    let (lv, x) := s.levelOf m
    ((s.setSrc source x).levelAct m lv).settleHeld

/-- A report of the class that an injection is armed for is one of its inverted checks (R335). -/
def State.armedCheck (s : State) (n kind : Nat) : State :=
  if decide (0 < s.fc.injLeft.toNat) && decide (s.fc.injSource.toNat = n) && decide (classKind n s.fc.injClass.toNat = some kind)
  then s.modFc (fun c => { c with injLeft := c.injLeft - 1 }) else s

/-- A checker reports (R320, R321): the message waits for the collector, and a fencing kind of base level L3 fences its
unit at once. A comparator's mismatch gives the frame
at work NOT_CHECKED_REPAIR (R142). -/
def State.checker (s : State) (n kind : Nat) (addr : BitVec 44) : State :=
  if !checkerHas n kind || !s.reports n then s
  else
    let s := (s.armedCheck n kind).raise n kind addr
    let s := if kind = 0x32 then s.modBu (fun b => { b with memCe := satAdd b.memCe 1 }) else s
    let s := if n = 0x004 ∧ kind = 0x04 then s.cacheError else s
    let s := if fences kind && decide (3 ≤ baseLevel kind) then s.fenceSource n else s
    if isComparator n then
      let p := (n - 0x200) / 16
      match (s.sport p).jobs with
      | j :: _ =>
        let s := s.loseJobs p (fun i => decide (i.seq = j.seq))
        (match j.unit with
         | some u => s.modPort p (fun x => x.frees u)
         | none => s).assignUnits p
      | [] => s
    else s

/-- COLLECTOR_UE sets the lockdown latch directly and is classified without the procedure (R329). -/
def State.collectorUe (s : State) (addr : BitVec 44) : State :=
  (s.modFc (fun c => { c with lockdown := true })).levelAct { source := 0, kind := 0x43, addr := addr } 5

/-! The FC_ page -/

/-- FC_CTRL as it reads. -/
def Collector.ctrlWord (c : Collector) : DWord :=
  pk [(0, b2n c.compatY7), (1, b2n c.injUnlock), (2, c.evtMin.toNat), (5, c.captureMin.toNat), (8, c.rejoinMs.toNat),
      (31, b2n c.lock)]

/-- FC_SRC_CFG of a source as it reads; a source that Table 13.2 does not list reads 0. -/
def srcWord (s : State) (n : Nat) : DWord :=
  let x := s.src n
  if !knownSource n then 0
  else pk [(0, x.n.toNat), (8, x.wcode.toNat), (16, if progSource n then x.sev.toNat else 0), (20, b2n (progSource n)),
           (31, b2n x.lock)]

/-- Sources that hold a record. -/
def State.heldList (s : State) : List Nat := (s.fc.srcs.filter (fun p => decide (2 ≤ p.2.held))).map (·.1)

/-- FC_HELD word `w`. -/
def State.heldWord (s : State) (w : Nat) : Nat :=
  (s.heldList.filter (fun n => decide (n / 32 = w))).foldl (fun a n => a + 2 ^ (n % 32)) 0

/-- A write of FC_CTRL: reserved encodings and REJOIN_MS 0 are ignored in full. -/
def State.fcCtrl (s : State) (q : WReq) : State :=
  if !q.lo then s
  else if 5 < (fld q.x 2 3).toNat ∨ 5 < (fld q.x 5 3).toNat ∨ (fld q.x 8 16).toNat = 0 then s
  else
    let c := s.fc
    let bad := c.lock && decide (bit q.x 1 ≠ c.injUnlock)
    let s := if bad then s.lockViolation q else s
    s.modFc (fun c => { c with
      compatY7 := bit q.x 0, injUnlock := if c.lock then c.injUnlock else bit q.x 1, evtMin := fld q.x 2 3,
      captureMin := fld q.x 5 3, rejoinMs := fld q.x 8 16, lock := c.lock || q.lockLo 31 })

/-- A write of FC_SRC_CFG. -/
def State.srcCfg (s : State) (q : WReq) : State :=
  let n := s.fc.sel.toNat
  let prog := progSource n
  if !q.lo ∨ !knownSource n then s
  else if (fld q.x 0 8).toNat = 0 ∨ 24 < (fld q.x 8 5).toNat ∨ (prog && decide (5 < (fld q.x 16 3).toNat)) then s
  else
    let x := s.src n
    let changes := decide (fld q.x 0 8 ≠ x.n) || decide (fld q.x 8 5 ≠ x.wcode) || (prog && decide (fld q.x 16 3 ≠ x.sev))
    if x.lock then (if changes then s.lockViolation q else s)
    else s.setSrc n { x with
      n := fld q.x 0 8, wcode := fld q.x 8 5, sev := if prog then fld q.x 16 3 else 0, lock := q.lockLo 31 }

/-- A write of FC_ACK (R331). -/
def State.fcAck (s : State) (x : DWord) : State :=
  let ack (s : State) (n : Nat) : State :=
    if 2 ≤ (s.src n).held then s.setSrc n { s.src n with acked := true } else s
  (if bit x 12 then s.heldList.foldl ack s else ack s (fld x 0 12).toNat).settleHeld

/-- A write of FC_INJ (R334). -/
def State.fcInj (s : State) (q : WReq) : State :=
  if !q.lo then s
  else
    let src := fld q.x 0 12
    let cls := fld q.x 12 4
    let n := fld q.x 16 8
    let active := decide (s.fc.injLeft ≠ 0)
    let s := if active then s else s.modFc (fun c => { c with injSource := src, injClass := cls, injCount := n })
    if !bit q.x 24 || active then s
    else
      let ok := (s.testLife || s.fc.injUnlock) && (classKind src.toNat cls.toNat).isSome && decide (n ≠ 0)
      let s := s.modFc (fun c => { c with injDenied := !ok, injLeft := if ok then n else c.injLeft })
      if ok then s.raise 0x000 0x40 (BitVec.ofNat 44 (src.toNat + cls.toNat * 2 ^ 12 + n.toNat * 2 ^ 16)) else s

/-- Sources that RETURN brings back (R342). -/
def returnable (n : Nat) : Bool := decide (0x00B ≤ n ∧ n ≤ 0x00E) || isParser n

/-- A write of FC_UNIT_CMD (R342). -/
def State.fcUnit (s : State) (q : WReq) : State :=
  if !q.lo then s
  else
    let n := fld q.x 0 12
    let ok := decide (fld q.x 12 2 = 1) && !s.fc.unitBusy && returnable n.toNat && (s.unit n.toNat).outOfService
    let s := s.modFc (fun c => { c with unitSource := n, unitErr := !ok, unitBusy := c.unitBusy || ok })
    if !ok then s
    else match unitDomain n.toNat with
      | some d => s.domWants d .release
      | none => s

/-- A read of the FC_ page. FC_INJ.GO is W1S, and R10 names no moment at which such a command bit falls: it reads 0 at once
(DESIGN CHOICE, log 149). -/
def fcRead (s : State) (off : Nat) : DWord :=
  let c := s.fc
  let x := s.src c.sel.toNat
  if off = 0 then
    pk [(0, (c.srcs.map (fun p => p.2.held)).foldl max 0), (3, b2n s.senFault), (4, b2n c.halted), (5, b2n c.lockdown),
        (8, min 4095 s.heldList.length)]
  else if off = 0x08 then c.ctrlWord
  else if off = 0x10 then c.sel.setWidth 64
  else if off = 0x18 then srcWord s c.sel.toNat
  else if off = 0x20 then
    pk [(0, x.held), (3, b2n x.acked), (4, b2n (s.condHolds c.sel.toNat)), (8, x.count.toNat), (16, x.total.toNat),
        (32, x.heldKind.toNat), (40, x.lastKind.toNat)]
  else if off = 0x30 then c.first.msg
  else if off = 0x38 then c.first.time
  else if off = 0x40 then
    pk [(0, b2n c.first.valid), (1, b2n c.first.overflow), (2, c.first.level.toNat), (5, b2n c.first.compat),
        (8, c.first.access.toNat), (16, c.first.initiator.toNat)]
  else if off = 0x48 then
    pk [(0, c.injSource.toNat), (12, c.injClass.toNat), (16, c.injCount.toNat), (25, b2n (decide (c.injLeft ≠ 0))),
        (26, b2n c.injDenied)]
  else if off = 0x50 then pk [(0, c.unitSource.toNat), (14, b2n c.unitBusy), (15, b2n c.unitErr)]
  else if 0x400 ≤ off ∧ off < 0x600 then
    pk [(0, s.heldWord ((off - 0x400) / 4)), (32, s.heldWord ((off - 0x400) / 4 + 1))]
  else 0

/-- A write to the FC_ page. -/
def fcWrite (s : State) (off : Nat) (q : WReq) : State :=
  if off = 0x08 then s.fcCtrl q
  else if off = 0x10 then (if q.lo then s.modFc (fun c => { c with sel := fld q.x 0 12 }) else s)
  else if off = 0x18 then s.srcCfg q
  else if off = 0x28 then (if q.lo then s.fcAck q.x else s)
  else if off = 0x40 then
    (if q.lo && bit q.x 0 then s.modFc (fun c => { c with first := { c.first with valid := false, overflow := false } }) else s)
  else if off = 0x48 then s.fcInj q
  else if off = 0x50 then s.fcUnit q
  else s

end Sys2Proof.Machine
end

