-- ==== Sys2Proof/Machine/Mailbox.lean ====
section
/-! DEFINITION. The mailboxes (12_mailboxes_dma.md R302–R311). -/

namespace Sys2Proof.Machine

/-- Changes the mailboxes. -/
def State.modMb (s : State) (f : Mailboxes → Mailboxes) : State := { s with mb := f s.mb }

/-- The path of a mailbox. -/
def State.path (s : State) (b : MailBox) : MbPath :=
  match b with
  | .fnToBurin f => s.mb.toBurin.get {} f.toNat
  | .burinToFn f => s.mb.fromBurin.get {} f.toNat
  | .senToBurin => s.mb.senTo
  | .burinToSen => s.mb.senFrom
  | .vsToBurin => s.mb.vsTo
  | .burinToVs => s.mb.vsFrom

/-- Changes the path of a mailbox. -/
def State.modPath (s : State) (b : MailBox) (g : MbPath → MbPath) : State :=
  s.modMb (fun m => match b with
    | .fnToBurin f => { m with toBurin := m.toBurin.modify {} f.toNat g }
    | .burinToFn f => { m with fromBurin := m.fromBurin.modify {} f.toNat g }
    | .senToBurin => { m with senTo := g m.senTo }
    | .burinToSen => { m with senFrom := g m.senFrom }
    | .vsToBurin => { m with vsTo := g m.vsTo }
    | .burinToVs => { m with vsFrom := g m.vsFrom })

/-- The pending events of the mailboxes stand while a buffer to Burin is FULL (R308, Table 11.2). -/
def State.mbEvents (s : State) : BitVec 6 :=
  BitVec.ofNat 6 (b2n (s.mb.toBurin.any (fun p => p.2.rx.isSome)) + 2 * b2n s.mb.senTo.rx.isSome + 4 * b2n s.mb.vsTo.rx.isSome)

/-- Brings EVT up to the mailboxes. -/
def State.evtSync (s : State) : State :=
  { s with bu := { s.bu with evt := (s.bu.evt &&& 0x38) ||| s.mbEvents } }

/-- A domain is administratively off: held off, or switched off because its unit is retired or out of service (R381). -/
def State.adminOff (s : State) (d : Nat) : Bool :=
  let x := s.dom d
  x.holdOff || ((decide (x.why = .retired) || decide (x.state = .off)) &&
    (match domainUnit d with
     | some u => decide ((s.unit u).role = .retired) || (s.unit u).outOfService
     | none => false))

/-- The receiver's domain, where it can be off (R306). -/
def receiverDomain (b : MailBox) : Option Nat :=
  match b with
  | .fnToBurin _ | .senToBurin | .vsToBurin => some 2
  | .burinToVs => some 8
  | .burinToFn _ | .burinToSen => none

/-- UNIT of the receiver as GO_REFUSED records it (Table 14.2). -/
def receiverUnit (b : MailBox) : Nat :=
  match b with
  | .fnToBurin _ | .senToBurin | .vsToBurin => 1
  | .burinToFn _ => 0
  | .burinToSen => 2
  | .burinToVs => 3

/-- A go from a function page that has no effect: the function is UNBOUND, READY or RESETTING (R307). -/
def State.goIgnored (s : State) (b : MailBox) : Bool :=
  match b with
  | .fnToBurin f => !(decide ((s.fn f.toNat).state = .enabled) || decide ((s.fn f.toNat).state = .halted))
  | _ => false

/-- A go that is refused (R306). -/
def State.goRefused (s : State) (b : MailBox) : Bool :=
  !s.goIgnored b &&
  (match receiverDomain b with
   | some d => s.adminOff d
   | none => false)

/-- STAMP without SEQ, and INITIATOR, of a go (MB_STAMP, MB_RX_CTRL). -/
def stampOf (b : MailBox) (init : BitVec 16) (world : Bool) : Nat × BitVec 16 :=
  match b with
  | .fnToBurin f => (f.toNat + b2n world * 1024, init)
  | .burinToFn _ | .burinToSen | .burinToVs => (1024 + 1 * 2048, burinId)
  | .senToBurin => (1024 + 2 * 2048, 0)
  | .vsToBurin => (1024 + 3 * 2048, 0)

/-- A delivery to a function signals its vector at once, with the wake flag (R308). -/
def State.mbSignal (s : State) (f : Nat) : State :=
  let st := s.mb.stat.get {} f
  if st.vecEn then
    let v := (s.fn f).entry.vecBase.toNat + st.vector.toNat
    let x := s.vec v
    s.setVec v { x with
      pending := satAdd x.pending 1, firstAt := if x.pending = 0 then s.po.tm else x.firstAt, due := true, wake := true }
  else s

/-- A switched-off receiver that is not administratively off is requested (R306). -/
def State.mbWake (s : State) (b : MailBox) : State :=
  match receiverDomain b with
  | some d => if (s.dom d).state = .off ∨ (s.dom d).state = .gated then s.domWants d .wake else s
  | none => s

/-- A go that is not refused (R303, R304, R307). -/
def State.goCarried (s : State) (b : MailBox) (init : BitVec 16) (world : Bool) : State :=
  let dead : Bool := match b with
    | .burinToFn f => !(decide ((s.fn f.toNat).state = .enabled) || decide ((s.fn f.toNat).state = .halted))
    | _ => false
  if s.goIgnored b then s
  else if dead then s.modMb (fun m => { m with dropped := satAdd m.dropped 1 })
  else
    let (st, who) := stampOf b init world
    let p := s.path b
    let s := s.modPath b (fun p => { p with seq := p.seq + 1, err := false })
    match p.rx with
    | some _ => s.modPath b (fun p => { p with ovr := satAdd p.ovr 1 })
    | none =>
      let m : MbMsg := { words := p.tx, stamp := BitVec.ofNat 32 (st + p.seq.toNat * 65536), initiator := who }
      let s := (s.modPath b (fun p => { p with rx := some m })).mbWake b
      (match b with
       | .burinToFn f => s.mbSignal f.toNat
       | _ => s).evtSync

/-- A go (R303–R307): refused, with ERR and a journal entry, or carried. -/
def State.goDo (s : State) (b : MailBox) (off : Nat) (init : BitVec 16) (world : Bool) : State :=
  if s.goRefused b then
    (s.modPath b (fun p => { p with err := true })).journal 0x02 (2 * b2n world) init
      (leBytes 4 off ++ [BitVec.ofNat 8 (receiverUnit b)])
  else s.goCarried b init world

/-- A release: the receive buffer is empty (R305). -/
def State.mbRelease (s : State) (b : MailBox) : State := (s.modPath b (fun p => { p with rx := none })).evtSync

/-! Blocks as they read (Table 12.1) -/

/-- A word of a list of words. -/
def wordAt (l : List Word) (i : Nat) : Word := l.getD i 0

/-- A send block: 8 bytes at an offset. -/
def MbPath.txRead (p : MbPath) (o : Nat) : DWord :=
  if o < 0x38 then halves (wordAt p.tx (o / 4)) (wordAt p.tx (o / 4 + 1))
  else pk [(16, p.seq.toNat), (33, b2n p.err)]

/-- A receive block: 8 bytes at an offset. -/
def MbPath.rxRead (p : MbPath) (o : Nat) : DWord :=
  match p.rx with
  | none => 0
  | some m =>
    if o < 0x38 then halves (wordAt m.words (o / 4)) (wordAt m.words (o / 4 + 1))
    else halves m.stamp (BitVec.ofNat 32 (1 + m.initiator.toNat * 65536))

/-- A write to a send block: payload words, and GO in the upper half of the last 8 bytes. -/
def State.txWrite (s : State) (b : MailBox) (o : Nat) (q : WReq) : State :=
  if o < 0x38 then
    s.modPath b (fun p => { p with tx := (p.tx.set (o / 4) (loHalf q.x)).set (o / 4 + 1) (hiHalf q.x) })
  else if q.hi && bit q.x 32 then s.goDo b (q.off + 4) q.init q.world
  else s

/-- A write to a receive block: only FULL acts (R305). -/
def State.rxWrite (s : State) (b : MailBox) (o : Nat) (q : WReq) : State :=
  if o = 0x38 ∧ q.hi ∧ bit q.x 32 then s.mbRelease b else s

/-- A write to FN_MB_STAT (R308). -/
def State.mbStat (s : State) (f : Nat) (x : DWord) : State :=
  let v := fld x 16 14
  s.modMb (fun m => { m with stat := m.stat.set {} f {
    vecEn := bit x 1 && decide (v.toNat < (s.fn f).entry.vecCount.toNat), vector := v } })

/-- The box that an offset of the MB_ page belongs to, and whether it is its send block. -/
def State.mbBox (s : State) (off : Nat) : Option (MailBox × Bool) :=
  match off / 0x40 with
  | 1 => some (.fnToBurin s.mb.sel, false)
  | 2 => some (.burinToFn s.mb.sel, true)
  | 3 => some (.senToBurin, false)
  | 4 => some (.burinToSen, true)
  | 5 => some (.vsToBurin, false)
  | 6 => some (.burinToVs, true)
  | _ => none

/-- Bits of MB_PEND from function `f` on. -/
def State.mbPend (s : State) (f n : Nat) : Nat :=
  ((List.range n).map (fun b => b2n ((s.mb.toBurin.get {} (f + b)).rx.isSome) * 2 ^ b)).sum

/-- The MB_ page: reads. -/
def mbRead (s : State) (off : Nat) : DWord :=
  if off = 0x00 then pk [(0, s.mb.sel.toNat)]
  else if off = 0x08 then
    pk [(0, (s.mb.toBurin.get {} s.mb.sel.toNat).ovr.toNat), (16, s.mb.senTo.ovr.toNat), (32, s.mb.vsTo.ovr.toNat),
        (48, s.mb.dropped.toNat)]
  else if 0x400 ≤ off ∧ off < 0x480 then BitVec.ofNat 64 (s.mbPend ((off - 0x400) * 8) 64)
  else
    match s.mbBox off with
    | some (b, true) => (s.path b).txRead (off % 0x40)
    | some (b, false) => (s.path b).rxRead (off % 0x40)
    | none => 0

/-- The MB_ page: writes, from Burin only (R309). -/
def mbWrite (s : State) (off : Nat) (q : WReq) : State :=
  if q.init ≠ burinId then s
  else if off = 0x00 then s.modMb (fun m => { m with sel := fld q.x 0 10 })
  else
    match s.mbBox off with
    | some (b, true) => s.txWrite b (off % 0x40) q
    | some (b, false) => s.rxWrite b (off % 0x40) q
    | none => s

/-! Requests to Burin (R310, R311) -/

/-- Firmware answers the request that function `f` has sent, when its CODE is `p`: the answer's words, for a request of the
right length (Table 12.3). `len`: words the request must carry, or any. -/
def State.mbAnswer (s : State) (f : Nat) (p : Nat → Bool) (len : Option Nat) (known : Bool) (ans : State → List Word → List Word) :
    State :=
  match (s.mb.toBurin.get {} f).rx with
  | none => s
  | some m =>
    let h := wordAt m.words 0
    let code := h.toNat % 256
    let n := h.toNat / 65536 % 16
    if p code = false ∨ s.bu.state ≠ .run ∨ s.fc.halted then s
    else
      let bad := decide (13 < n) || (match len with
        | some k => decide (n ≠ k)
        | none => false)
      let ws := if known && !bad then ans s ((m.words.drop 1).take n) else []
      let result := if !known then 1 else if bad then 2 else 0
      let head : Word := BitVec.ofNat 32 (h.toNat % 65536 + ws.length * 65536 + result * 2 ^ 24)
      let s := s.mbRelease (.fnToBurin (BitVec.ofNat 10 f))
      let b := MailBox.burinToFn (BitVec.ofNat 10 f)
      let s := s.modPath b (fun p => { p with tx := (head :: ws) ++ List.replicate (13 - ws.length) 0 })
      s.goDo b 0xC00BC burinId true

end Sys2Proof.Machine
end

