-- ==== Sys2Proof/Machine/Functions.lean ====
section
/-! DEFINITION. The function table and its commands, function states and function-level reset (02_functions.md R28–R47),
power-state notices (R48), event queues (R49–R51), vectors (04_chains.md R111, R114, R115), and the FT_ and FN_
pages. -/

namespace Sys2Proof.Machine

/-- Changes the function table's registers. -/
def State.modFx (s : State) (f : FnTable → FnTable) : State := { s with fx := f s.fx }

/-- A command of FT_CMD is being carried out (R30). -/
def State.ftBusy (s : State) : Bool := decide ((s.po.tm - s.fx.busyFrom).toNat < s.fx.busyNs)

/-- A command of FT_CMD begins: how long it takes, at most 1 µs, is a free value (R30, log 76). -/
def State.ftBegin (s : State) : State :=
  let (n, s) := s.draw
  s.modFx (fun x => { x with busyFrom := s.po.tm, busyNs := min (Config.commandNs n) 1000 })

/-- Sets FT_CMD.ERR. -/
def State.ftErr (s : State) (n : Nat) : State := s.modFx (fun x => { x with err := BitVec.ofNat 4 n })

/-- Pool rings and vectors of an entry. -/
def FnEntry.rings (e : FnEntry) : List Nat := (List.range e.ringCount.toNat).map (e.ringBase.toNat + ·)
def FnEntry.vecs (e : FnEntry) : List Nat := (List.range e.vecCount.toNat).map (e.vecBase.toNat + ·)

/-- Two ranges have a number in common. -/
def overlaps (b1 n1 b2 n2 : Nat) : Bool := decide (0 < n1 ∧ 0 < n2 ∧ b1 < b2 + n2 ∧ b2 < b1 + n1)

/-! Function-level reset -/

/-- The packets of a ring whose head entry has been fetched and that are not issued: position, opcode of link 0 (0 for an
INDIRECT packet), number of links (R40, R41). -/
def rawHeads (fuel : Nat) (pos : Word) (raw : List (List Byte)) : List (Word × Nat × Nat) :=
  match fuel with
  | 0 => []
  | n + 1 =>
    match raw with
    | [] => []
    | h :: _ =>
      let links := (h.getD 1 0).toNat
      let op := if headIndirect h then 0 else (parseDesc (slice h 16 48)).opcode.toNat
      (pos, if entryKind h = 1 then op else 0, if entryKind h = 1 then links else 1) ::
        rawHeads n (pos + BitVec.ofNat 32 (entrySpan h)) (raw.drop (entrySpan h))

/-- Every such packet of a ring, in order. -/
def Ring.unissuedPackets (x : Ring) : List (Word × Nat × Nat) :=
  x.ready.map (fun p => (p.head, if p.indirect then 0 else ((p.links.map (·.opcode.toNat)).headD 0), p.links.length)) ++
  rawHeads (x.raw.length + 1) x.rawPos x.raw

/-- A SQUASHED event record (Table 2.8). -/
def State.squashed (s : State) (f loc : Nat) (head : Word) (link op : Nat) (discarded : Bool) : State :=
  s.event f 0x03 f loc (leBytes 4 head.toNat ++ [0x06, BitVec.ofNat 8 link] ++ leBytes 2 op ++ [BitVec.ofNat 8 (b2n discarded)])

/-- Discards what a ring has fetched and not issued; in drain mode each packet is reported (R40, R41). -/
def State.discardRing (s : State) (f : Nat) (drain : Bool) (r : Nat) : State :=
  let x := s.ring r
  let ps := x.unissuedPackets
  let s := if drain then ps.foldl (fun s (p : Word × Nat × Nat) => s.squashed f (s.localRing f r) p.1 0 p.2.1 true) s else s
  let y : Ring := { x.discard with enabling := false, heldKick := false, heldDisable := false }
  let s := s.dropFetches r
  let s := if y = x then s else s.setRing r y
  s.modFn f (fun v => { v with nSquashed := v.nSquashed + BitVec.ofNat 32 ((ps.map (fun p => p.2.2)).sum) })

/-- Abandons every operation of a function and counts its links (R41, R42). -/
def State.squashAll (s : State) (f : Nat) : State :=
  let n := (s.tagsOf f).length
  (s.abandon (fun e => decide (e.fn = f))).modFn f (fun v => { v with nSquashed := v.nSquashed + BitVec.ofNat 32 n })

/-- A function enters RESETTING (R40–R42). -/
def State.resetPoint (s : State) (f : Nat) (squash byPort : Bool) : State :=
  let s := s.modFn f (fun v => { v with
    state := .resetting, squash := squash, byPort := byPort, resetPoint := s.po.tm, nCompleted := 0, nSquashed := 0 })
  let s := ((s.fn f).entry.rings).foldl (fun s r => s.discardRing f (!squash) r) s
  if squash then s.squashAll f else s

/-- A reset request for a virtual function in its state (R36, R47): the answer says whether it was accepted as a
reset. -/
def State.resetRequest (s : State) (f : Nat) (squash byPort : Bool) : Bool × State :=
  let v := s.fn f
  match v.state with
  | .enabled | .halted => (true, s.resetPoint f squash byPort)
  | .resetting =>
    let s := if byPort then s.modFn f (fun v => { v with byPort := true }) else s
    if squash && !v.squash then (true, (s.modFn f (fun v => { v with squash := true })).squashAll f) else (false, s)
  | _ => (false, s)

/-- DRAIN_US has elapsed: what remains is abandoned, each link reported (R41). -/
def State.drainTimeout (s : State) (f : Nat) : State :=
  let v := s.fn f
  if v.state ≠ .resetting ∨ v.squash then s
  else
    let s := (s.sq.tags.filter (fun p => decide (p.2.fn = f))).foldl (fun s (p : Nat × TagEnt) =>
      s.squashed f (s.localRing f p.2.ring) (s.flight p.2.pkt).head p.2.link p.2.desc.opcode.toNat false) s
    s.squashAll f

/-- Hands over a RESET_COMPLETE, or keeps it to be offered when the port takes one (R44, R410). -/
def State.sendReset (s : State) (f : Nat) : State :=
  if s.po.fiUp && decide (s.po.fiWait.length < 64) then
    s.sendFi { reset := true, fn := f, vector := 0, wake := false, pool := 0 }
  else { s with po := { s.po with fiAgain := s.po.fiAgain ++ [f] } }

/-- A vector is masked and its pending message discarded (Table 2.4). -/
def Vec.cleared (v : Vec) : Vec := { v with mask := true, pending := 0, due := false, blocked := false, refusedAt := none }

/-- A fabric write of the function waits to be retried: its response was no answer yet (R43, R403). -/
def State.writeRetries (s : State) (f : Nat) : Bool :=
  s.po.txns.any (fun q => decide (q.fn = f) && q.write && q.backoff)

/-- Reset-complete (R43–R45): no tag is held and every write has been answered; the command says that the writes still
outstanding have their responses (log 54). HALT_RING keeps its last value (DESIGN CHOICE, log 139). -/
def State.resetDone (s : State) (f : Nat) : State :=
  let v := s.fn f
  if v.state ≠ .resetting ∨ (s.tagsOf f).isEmpty = false ∨ s.writeRetries f = true then s
  else
    let s := { s with po := { s.po with txns := s.po.txns.filter (fun q => !(decide (q.fn = f) && q.write)) } }
    let s := v.entry.rings.foldl (fun s r => if s.ring r = {} then s else s.setRing r {}) s
    let s := v.entry.vecs.foldl (fun s n => if s.vec n = (s.vec n).cleared then s else s.setVec n (s.vec n).cleared) s
    let s := (s.modPath (.fnToBurin (BitVec.ofNat 10 f)) (fun p => { p with seq := 0, rx := none, ovr := 0 })).modPath
      (.burinToFn (BitVec.ofNat 10 f)) (fun p => { p with seq := 0, rx := none, ovr := 0 })
    let s := s.evtSync
    let s := s.modDg (fun d => { d with ctxs := d.ctxs.filter (fun p => !decide (16384 + 64 * f ≤ p.1 ∧ p.1 < 16384 + 64 * f + 64)) })
    let s := s.modFn f (fun v => { v with
      state := .ready, quiet := true, flrReq := false, byPort := false, pstate := 0, accepted := true, flush := [],
      eq := { v.eq with en := false, lost := 0, since := 0 } })
    let s := s.event 0 0x07 f noRing ([BitVec.ofNat 8 (b2n v.squash), 0, 0, 0] ++ leBytes 4 v.nCompleted.toNat ++
      leBytes 4 v.nSquashed.toNat)
    if v.byPort || s.po.fiMode then s.sendReset f else s

/-! The commands of FT_CMD -/

/-- LOAD: the staging registers show the selected entry (R29). -/
def State.ftLoad (s : State) : State := s.modFx (fun x => { x with stage := (s.fn x.sel.toNat).entry, err := 0 })

/-- A vector that leaves function 0's range is named by nothing in use (R31). -/
def State.vecUnused (s : State) (n : Nat) : Bool :=
  let v := s.fn 0
  let loc := n - v.entry.vecBase.toNat
  (s.vec n).mask &&
  !(v.entry.rings.any (fun r => decide ((s.ring r).state ≠ .disabled) && decide ((s.ring r).vector.toNat = loc))) &&
  !(v.eq.en && v.eq.vecEn && decide (v.eq.vector.toNat = loc)) &&
  !((s.mb.stat.get {} 0).vecEn && decide ((s.mb.stat.get {} 0).vector.toNat = loc))

/-- Ranges and encodings of a staged entry, with the further conditions of function 0: ERR 4 (R31). -/
def State.commitRange (s : State) (f : Nat) (e : FnEntry) : Bool :=
  let old := (s.fn f).entry
  decide (e.ringBase.toNat + e.ringCount.toNat ≤ 16384 ∧ e.vecBase.toNat + e.vecCount.toNat ≤ 16384 ∧
    e.world.toNat ≤ 1 ∧ e.tagQuota.toNat ≤ 16384 ∧ e.drainUs ≠ 0) &&
  (decide (f ≠ 0) ||
    (decide (e.ringBase = 0 ∧ 16 ≤ e.ringCount.toNat ∧ e.world = old.world) &&
     old.rings.all (fun r => inRange e.ringBase.toNat e.ringCount.toNat r || decide ((s.ring r).state = .disabled)) &&
     old.vecs.all (fun v => inRange e.vecBase.toNat e.vecCount.toNat v || s.vecUnused v)))

/-- Other functions that are not UNBOUND. -/
def State.bound (s : State) (f : Nat) : List (Nat × Fn) :=
  s.fx.fns.filter (fun p => decide (p.1 ≠ f) && decide (p.2.state ≠ .unbound))

/-- COMMIT (R31). -/
def State.ftCommit (s : State) : State :=
  let f := s.fx.sel.toNat
  let e := s.fx.stage
  let v := s.fn f
  let okState := if f = 0 then decide (v.state = .enabled) else decide (v.state = .unbound ∨ v.state = .ready)
  if !okState then s.ftErr 1
  else if f ≠ 0 ∧ s.fx.numVf.toNat < f then s.ftErr 5
  else if !s.commitRange f e then s.ftErr 4
  else if (s.bound f).any (fun p => overlaps e.ringBase.toNat e.ringCount.toNat p.2.entry.ringBase.toNat p.2.entry.ringCount.toNat) then
    s.ftErr 2
  else if (s.bound f).any (fun p => overlaps e.vecBase.toNat e.vecCount.toNat p.2.entry.vecBase.toNat p.2.entry.vecCount.toNat) then
    s.ftErr 3
  else
    let leaving := if v.state = .unbound then [] else v.entry.vecs.filter (fun n => !inRange e.vecBase.toNat e.vecCount.toNat n)
    let s := leaving.foldl (fun s n =>
      let x := s.vec n
      if x.pending = 0 ∧ x.due = false then s else s.setVec n { x with pending := 0, due := false, blocked := false }) s
    (s.modFn f (fun v => { v with entry := e, state := if f = 0 then .enabled else .ready })).ftErr 0

/-- ENABLE (Table 2.3, R36). -/
def State.ftEnable (s : State) : State :=
  let f := s.fx.sel.toNat
  if f ≠ 0 ∧ (s.fn f).state = .ready then (s.modFn f (fun v => { v with state := .enabled, quiet := false })).ftErr 0 else s.ftErr 1

/-- UNBIND: the ranges are released (Table 2.3, R36). -/
def State.ftUnbind (s : State) : State :=
  let f := s.fx.sel.toNat
  if (s.fn f).state = .ready then
    (s.modFn f (fun v => { v with
      state := .unbound, entry := { v.entry with ringBase := 0, ringCount := 0, vecBase := 0, vecCount := 0 } })).ftErr 0
  else s.ftErr 1

/-- RESET_DRAIN and RESET_SQUASH (R36, R47). -/
def State.ftReset (s : State) (squash : Bool) : State :=
  let f := s.fx.sel.toNat
  if f = 0 then s.ftErr 1
  else
    let (ok, s) := s.resetRequest f squash false
    s.ftErr (if ok then 0 else 1)

/-- A write of FT_CMD.OP (R30): ERR 6 while BUSY is 1. LOAD, COMMIT, ENABLE and UNBIND keep BUSY for a while, a reset only
until it has been accepted. -/
def State.ftCmd (s : State) (op : Nat) : State :=
  if s.ftBusy then s.ftErr 6
  else match op with
    | 1 => s.ftLoad.ftBegin
    | 2 => s.ftCommit.ftBegin
    | 3 => s.ftEnable.ftBegin
    | 4 => s.ftReset false
    | 5 => s.ftReset true
    | 6 => s.ftUnbind.ftBegin
    | _ => s.ftErr 4

/-- A write of FT_NUMVF (R34). -/
def State.ftNumVf (s : State) (n : BitVec 10) : State :=
  if s.fx.fns.any (fun p => decide (n.toNat < p.1) && decide (p.2.state ≠ .unbound)) then s
  else s.modFx (fun x => { x with numVf := n })

/-- FT_ATTR of an entry as it reads. -/
def FnEntry.attrWord (e : FnEntry) : Nat := e.shareGroup.toNat + e.world.toNat * 2 ^ 8 + b2n e.flrMode * 2 ^ 10

/-- A read of the FT_ page. -/
def ftRead (s : State) (off : Nat) : DWord :=
  let x := s.fx
  let e := x.stage
  let v := s.fn x.sel.toNat
  if off = 0 then x.sel.setWidth 64
  else if off = 0x08 then pk [(8, b2n s.ftBusy), (12, x.err.toNat)]
  else if off = 0x10 then pk [(0, v.state.code), (3, b2n (decide (v.state = .resetting) && v.squash))]
  else if off = 0x18 then pk [(0, e.ringBase.toNat), (16, e.ringCount.toNat)]
  else if off = 0x20 then pk [(0, e.vecBase.toNat), (16, e.vecCount.toNat)]
  else if off = 0x28 then BitVec.ofNat 64 e.attrWord
  else if off = 0x30 then pk [(0, e.tagQuota.toNat), (32, e.drainUs.toNat)]
  else if off = 0x40 then x.numVf.setWidth 64
  else 0

/-- A write to the FT_ page. -/
def ftWrite (s : State) (off : Nat) (q : WReq) : State :=
  let x := q.x
  let stage (f : FnEntry → FnEntry) : State := s.modFx (fun t => { t with stage := f t.stage })
  if off = 0x30 then stage (fun e => { e with tagQuota := fld x 0 15, drainUs := fld x 32 20 })
  else if !q.lo then s
  else if off = 0 then s.modFx (fun t => { t with sel := fld x 0 10 })
  else if off = 0x08 then (if s.fc.halted then s else s.ftCmd (fld x 0 4).toNat)
  else if off = 0x18 then stage (fun e => { e with ringBase := fld x 0 14, ringCount := fld x 16 15 })
  else if off = 0x20 then stage (fun e => { e with vecBase := fld x 0 14, vecCount := fld x 16 15 })
  else if off = 0x28 then stage (fun e => { e with shareGroup := fld x 0 8, world := fld x 8 2, flrMode := bit x 10 })
  else if off = 0x40 then s.ftNumVf (fld x 0 10)
  else s

/-! Event queues -/

/-- A write of FN_EQ_CTRL (R49). -/
def State.eqCtrl (s : State) (f : Nat) (x : DWord) : State :=
  let v := s.fn f
  let e := v.eq
  let en := bit x 0
  let size := fld x 1 4
  let vec := fld x 16 14
  if e.en then
    if size ≠ e.size ∨ vec ≠ e.vector then s
    else s.modFn f (fun v => { v with eq := { e with
      en := en, vecEn := bit x 8, typeEn := hiHalf x, since := if en then e.since else 0 } })
  else
    let start := en && decide (size.toNat ≤ 10) && decide (vec.toNat < v.entry.vecCount.toNat)
    s.modFn f (fun v => { v with eq := { e with
      en := start, size := size, vecEn := bit x 8, vector := vec, typeEn := hiHalf x,
      prod := if start then 0 else e.prod, cons := if start then 0 else e.cons, since := if start then 0 else e.since } })

/-- A write of FN_EQ_BASE (R49). -/
def State.eqBase (s : State) (f : Nat) (x : DWord) : State :=
  if (s.fn f).eq.en then s else s.modFn f (fun v => { v with eq := { v.eq with base := fld x 12 45 } })

/-- A write of FN_EQ_CONS: at the first that makes room after a loss, the EQ_OVERFLOW record is written (R51). -/
def State.eqCons (s : State) (f : Nat) (c : Word) : State :=
  let s := s.modFn f (fun v => { v with eq := { v.eq with cons := c } })
  let e := (s.fn f).eq
  if e.en && decide (e.since ≠ 0) && !e.full && !s.fc.halted && !s.silent f then
    let s := s.modFn f (fun v => { v with eq := { v.eq with since := 0 } })
    s.putEvent f 0x09 f noRing e.lastLost (leBytes 4 e.since.toNat ++ zeros 4 ++ leBytes 8 e.firstLost.toNat)
  else s

/-! Vectors -/

/-- Pool number of the vector that FN_VEC_SEL selects, while it is below the vector count. -/
def State.selVec (s : State) (f : Nat) : Option Nat :=
  let v := s.fn f
  if v.vecSel.toNat < v.entry.vecCount.toNat then some (v.entry.vecBase.toNat + v.vecSel.toNat) else none

/-- ACCEPTED is set and the PSTATE record written once nothing of the flush remains (R48). -/
def State.pstateDone (s : State) (f : Nat) : State :=
  let v := s.fn f
  if v.accepted = false ∧ v.flush.isEmpty then
    (s.modFn f (fun v => { v with accepted := true })).event f 0x0A f noRing [BitVec.ofNat 8 v.pstate.toNat]
  else s

/-- A vector's message is no longer waited for (R48). -/
def State.unflush (s : State) (f n : Nat) : State :=
  (s.modFn f (fun v => { v with flush := v.flush.filter (fun x => decide (x ≠ n)) })).pstateDone f

/-- A write of FN_VEC_CFG (R111): COUNT 0 is ignored in full. -/
def State.vecCfg (s : State) (f : Nat) (x : DWord) : State :=
  match s.selVec f with
  | none => s
  | some n =>
    let c := fld x 12 12
    if c = 0 then s
    else
      let v := s.vec n
      let v' := { v with timerUs := fld x 0 10, count := c, mask := bit x 31 }
      let met := decide (v.pending ≠ 0) && (decide (c.toNat ≤ v.pending.toNat) ||
        decide (v.firstAt.toNat + (fld x 0 10).toNat * 1000 ≤ s.po.tm.toNat))
      let s := s.setVec n (if met then v'.makeDue (s.fn f).pstate else v')
      if bit x 31 then s.unflush f n else s.offerNow n ((s.fn f).flush.contains n)

/-- A power-state notice (R48, R114): the flush under the state before the write, then the new state. -/
def State.pstateWrite (s : State) (f : Nat) (st : BitVec 2) : State :=
  let v := s.fn f
  let s := v.entry.vecs.foldl (fun s n =>
    let x := s.vec n
    if !x.mask && decide (x.pending ≠ 0) then s.setVec n (x.makeDue v.pstate) else s) s
  let due := v.entry.vecs.filter (fun n => (s.vec n).due && !(s.vec n).mask)
  let s := s.modFn f (fun v => { v with pstate := st, accepted := false, flush := due })
  (due.foldl (fun s n => s.offerNow n true) s).pstateDone f

/-- An answer on the function port: the oldest message is accepted or refused (R111, R115, R410). -/
def State.macc (s : State) (ok : Bool) : State :=
  match s.po.fiWait with
  | [] => s
  | m :: r =>
    let s := { s with po := { s.po with fiWait := r } }
    if m.reset then
      if ok then (if m.fn = 0 then s.modFx (fun x => { x with fn0Offered := false }) else s)
      else { s with po := { s.po with fiAgain := s.po.fiAgain ++ [m.fn] } }
    else
      let x := s.vec m.pool
      if ok then
        let s := s.setVec m.pool { x with pending := 0, due := false, blocked := false, offered := false, refusedAt := none }
        s.unflush m.fn m.pool
      else
        let first := x.refusedAt.getD s.po.tm
        let late := decide (first.toNat + 10000 ≤ x.offeredAt.toNat) && x.refusedAt.isSome
        s.setVec m.pool { x with offered := false, refusedAt := some first, blocked := x.blocked || (late && x.due) }

/-! Function pages -/

/-- An FLR_REQ write of a virtual function (FN_CTRL): ignored unless ENABLED or HALTED. -/
def State.flrReq (s : State) (f : Nat) : State :=
  let v := s.fn f
  if v.state = .enabled ∨ v.state = .halted then
    (s.modFn f (fun v => { v with flrReq := true })).resetPoint f v.entry.flrMode false
  else s

/-- A read of a function page, but for its mailboxes. -/
def fnRead (s : State) (f off : Nat) : DWord :=
  let v := s.fn f
  let e := v.eq
  if off = 0x08 then pk [(0, b2n v.flrReq)]
  else if off = 0x10 then pk [(0, v.pstate.toNat), (8, b2n v.accepted)]
  else if off = 0x2000 then v.vecSel.setWidth 64
  else if off = 0x2008 then
    match s.selVec f with
    | some n => pk [(0, (s.vec n).timerUs.toNat), (12, (s.vec n).count.toNat), (31, b2n (s.vec n).mask)]
    | none => 0
  else if off = 0x2010 then
    match s.selVec f with
    | some n => pk [(0, (s.vec n).pending.toNat), (12, b2n (s.vec n).due), (13, b2n (s.vec n).blocked)]
    | none => 0
  else if off = 0x3000 then
    pk [(0, v.state.code), (3, b2n (decide (v.state = .resetting) && v.squash)), (4, v.haltRing.toNat)]
  else if off = 0x3008 then pk [(12, e.base.toNat)]
  else if off = 0x3010 then
    pk [(0, b2n e.en), (1, e.size.toNat), (8, b2n e.vecEn), (16, e.vector.toNat), (32, e.typeEn.toNat)]
  else if off = 0x3018 then halves e.prod e.cons
  else if off = 0x3020 then e.lost.setWidth 64
  else 0

/-- The side effect of a read of a function page: FN_EQ_LOST clears. -/
def fnTake (s : State) (f off : Nat) (lo : Bool) : State :=
  if off = 0x3020 ∧ lo then s.modFn f (fun v => { v with eq := { v.eq with lost := 0 } }) else s

/-- FN_DOORBELL (R58): the whole register is written, or a lower half that is a KICK. -/
def State.doorbellWrite (s : State) (f : Nat) (q : WReq) : State :=
  let loc := (fld q.x 0 14).toNat
  let op := (fld q.x 14 2).toNat
  if !q.lo then s
  else match op with
    | 0 => s.doorbell f loc .kick 0
    | 1 => if q.hi then s.doorbell f loc .enable (fld q.x 16 48) else s
    | 2 => s.doorbell f loc .disable 0
    | _ => s

/-- A write to the page of a virtual function, or of function 0 but for FLR_REQ; not the mailboxes. -/
def fnWrite (s : State) (f off : Nat) (q : WReq) : State :=
  if off = 0 then s.doorbellWrite f q
  else if off = 0x08 then (if q.lo && bit q.x 0 then s.flrReq f else s)
  else if off = 0x10 then (if q.lo then s.pstateWrite f (fld q.x 0 2) else s)
  else if off = 0x2000 then (if q.lo then s.modFn f (fun v => { v with vecSel := fld q.x 0 14 }) else s)
  else if off = 0x2008 then (if q.lo then s.vecCfg f q.x else s)
  else if off = 0x3008 then s.eqBase f q.x
  else if off = 0x3010 then s.eqCtrl f q.x
  else if off = 0x3018 then (if q.hi then s.eqCons f (hiHalf q.x) else s)
  else s

end Sys2Proof.Machine
end

