-- ==== Sys2Proof/Machine/Power.lean ====
section
/-! DEFINITION. Power domains, start-up, resets and main power (15_power_startup.md R376–R394), proofing cycles (R337,
R338) and what a domain's return brings back (R341–R344), and the PW_ page. -/

namespace Sys2Proof.Machine

/-- Changes the power part of the state. -/
def State.modPw (s : State) (f : Power → Power) : State := { s with pw := f s.pw }

/-- Units whose known-answer test is a run of proofing cycles (Table 13.7), by domain. -/
def proofUnits (d : Nat) : List Nat :=
  if 46 ≤ d ∧ d < 50 then (List.range 7).map (fun i => 0x201 + 16 * (d - 46) + i)
  else if d = 5 ∨ d = 6 ∨ (10 ≤ d ∧ d < 45) then (domainUnit d).toList
  else []

/-- The unit of a domain that has no spare. -/
def singleUnit (d : Nat) : Option Nat :=
  match domainUnit d with
  | some u => if isSingle u then some u else none
  | none => none

/-- Domains with a retention copy (Table 15.1): their retention request stays up (R417). -/
def retains (d : Nat) : Bool := decide (d = 2 ∨ d = 3 ∨ d = 4 ∨ d = 7 ∨ d = 8)

/-- Domains that step 3 and step 5 power (Table 15.4). -/
def stepThree : List Nat := [2, 3, 5, 6, 7, 8, 50]
def stepFive : List Nat := (List.range 41).map (9 + ·) ++ [51]

/-! Resets -/

/-- Everything that a block reset or `rst_por_i` resets is at its reset value; what Table 15.5 and R330 keep is kept. -/
def State.afterReset (s : State) : State :=
  { State.reset with
    pending := s.pending, freeCount := s.freeCount, d0 := s.d0,
    fc := {
      lockdown := s.fc.lockdown, first := s.fc.first, retired := s.fc.retired,
      srcs := (s.fc.srcs.filter (fun (p : Nat × Src) => p.2.held = 5)).map (fun (p : Nat × Src) =>
        (p.1, ({ held := 5, heldKind := p.2.heldKind, acked := p.2.acked } : Src))) },
    fx := { fn0Due := s.fx.fn0Due },
    ts := { levels := s.ts.levels, cell := s.ts.cell, lcs := s.ts.lcs },
    pw := { refOk := s.pw.refOk, holdover := s.pw.holdover, porAsserted := s.pw.porAsserted, blkAsserted := s.pw.blkAsserted },
    bu := (Burin.measured {}),
    st := { ports := (s.st.ports.filter (fun p => !p.2.out.isEmpty)).map (fun p => (p.1, { out := p.2.out })) },
    po := { nextId := s.po.nextId, fabOut := s.po.fabOut, fiOut := s.po.fiOut, rpOut := s.po.rpOut,
            trOut := s.po.trOut, ident := s.po.ident,
            fiMode := s.po.fiMode, tm := s.po.tm, tmTog := s.po.tmTog, tapIr := s.po.tapIr, tapDr := s.po.tapDr } }

/-! Start-up -/

/-- Start-up stops (R386, R389). -/
def State.stopStartup (s : State) (step : Nat) : State :=
  s.modPw (fun p => { p with phase := .stopped, stopStep := BitVec.ofNat 3 step })

/-- A unit of D3, D4, D7 or D8 fails its test: start-up stops at step 5 and its source's message is classified at L4
(R386). -/
def State.vitalFails (s : State) (u : Nat) : State :=
  (s.levelAct { source := BitVec.ofNat 12 u, kind := 0x02, addr := 0 } 4).stopStartup 5

/-- Step 1: the identity and the life-cycle code are latched and D4 is powered (R360, R385, R415). -/
def State.stepOne (s : State) : State :=
  if s.pw.phase = .sentinel ∧ s.po.ident.valid ∧ s.pw.porAsserted = false ∧ s.pw.blkAsserted = false ∧
      (s.dom 4).why = .none ∧ (s.dom 4).state = .off then
    let l := s.po.ident.lcs
    let s : State := { s with
      ts := { s.ts with lcs := if 4 ≤ l.toNat then 4 else l }, po := { s.po with fiMode := s.po.ident.fiMode } }
    s.domWants 4 .startup
  else s

/-- Step 2: the backup check (R370, R390, R394), then step 3 begins, unless the L5 latch is set (R389). -/
def State.stepTwo (s : State) : State :=
  let ok := s.d0.valid
  let d : D0 := if ok then { s.d0 with bootCount := s.d0.bootCount + 1 }
    else { bootCount := 1, records := s.d0.records, recLost := s.d0.recLost, lossTime := s.d0.lossTime, l5 := s.d0.l5 }
  let s : State := { s with d0 := d }
  let s := s.modPw (fun p => { p with phase := .backup, backupLost := !ok, tamperFound := !d.records.isEmpty })
  if s.fc.lockdown then s.stopStartup 2
  else
    let s := s.modPw (fun p => { p with phase := .boot })
    stepThree.foldl (fun s n =>
      if s.fc.retired.contains ((domainUnit n).getD 0) then s.modUnit ((domainUnit n).getD 0) (fun x => { x with role := .retired })
      else s.domWants n .startup) s

/-- A domain that start-up powers has come up, has failed, or stays off because its unit is retired or held off. -/
def State.settled (s : State) (d : Nat) : Bool :=
  let x := s.dom d
  decide (x.state = .on) || decide (x.state = .heldOff) || decide (x.why = .retired) ||
  (decide (x.state = .off) && decide (x.why = .none))

/-- Step 4 begins: the boot ROM runs; the image is read when VALID is 1 (R288). -/
def State.stepFour (s : State) : State :=
  let s := s.modBu (fun b => { b with state := .boot })
  if s.bu.ptrValid then (s.modPw (fun p => { p with phase := .firmware })).bootBegin else s

/-- Step 5 begins: the remaining domains of units that are not retired are powered. -/
def State.stepFiveBegin (s : State) : State :=
  let s := s.modPw (fun p => { p with phase := .kat })
  stepFive.foldl (fun s d =>
    match domainUnit d with
    | some u =>
      if s.fc.retired.contains u then s.modUnit u (fun x => { x with role := .retired })
      else if (s.dom d).holdOff then s else s.domWants d .startup
    | none => s) s

/-- The pools that the start-up tests left without a ready spare or a working unit (R387). -/
def State.katPools (s : State) : State :=
  let pools : List Nat := [0x300, 0x301, 0x302, 0x303, 0x304] ++ (List.range 8).map (0x310 + ·)
  pools.foldl (fun (s : State) (p : Nat) =>
    if (poolUnits p).any (fun u => decide ((s.unit u).role = .retired)) then
      let s := if s.poolReady p then s else s.raise p 0x08 0
      if s.poolWorking p = 0 then s.raise p 0x09 0 else s
    else s) s

/-- Step 5 has ended: both fabric ports lost stop start-up, otherwise the unique key is requested (R386, R416). -/
def State.katEnd (s : State) : State :=
  let s := s.katPools
  if s.poolWorking 0x304 = 0 then s.stopStartup 5
  else { (s.modPw (fun p => { p with phase := .unseal })) with po := { s.po with ukReq := true } }

/-- Start-up goes on as far as what has come up allows. -/
def State.progress (s : State) : State :=
  match s.pw.phase with
  | .boot => if s.bu.state = .off ∧ stepThree.all (fun d => s.settled d) then s.stepFour else s
  | .kat =>
    let proofing := (stepThree ++ stepFive).any (fun d => (proofUnits d).any (fun u => decide ((s.unit u).role = .proofing)))
    let rng := decide (s.pk.rng.state = .startup)
    if stepFive.all (fun d => s.settled d) && !proofing && !rng then s.katEnd else s
  | _ => s

/-- Step 1 is complete: the register and function ports are up, and the RESET_COMPLETE due for function 0 is the first
message (R39, R385, R409); then step 2. -/
def State.portsUp (s : State) : State :=
  let s : State := { s with po := { s.po with rpUp := true, fiUp := true } }
  let s := if s.fx.fn0Due then
      (s.modFx (fun x => { x with fn0Due := false, fn0Offered := true })).sendReset 0
    else s
  s.stepTwo.progress

/-- The DRBG is instantiated once the pool holds 768 bits, and start-up goes on (R217). -/
def State.rngStart (s : State) : State :=
  if s.pk.rng.state = .startup ∧ 768 ≤ s.pk.rng.pool then s.rngInstantiate.settleHeld.schedule.progress else s

/-- D9 has come up: the start-up tests begin (R216), under RAW while RAW_MODE holds (R220); after three failures in a second
STATE stays ERROR (R218). -/
def State.rngUp (s : State) : State :=
  if s.pk.rng.stuck then s
  else (s.modRng (fun g => { g.enter .startup with pool := 0, passed := 0, restart := false })).rngStart

/-- A domain that start-up powers is ON; `pass`: its unit passed its known-answer test where that is no proofing. -/
def State.startupUnit (s : State) (d : Nat) (pass : Bool) : State :=
  let s := (proofUnits d).foldl (fun s u =>
    if s.fc.retired.contains u then s.modUnit u (fun x => { x with role := .retired }) else s.beginProof u 100) s
  let s : State := if d = 5 then { s with po := { s.po with fpaUp := true } }
    else if d = 6 then { s with po := { s.po with fpbUp := true } } else s
  match singleUnit d with
  | none => s.progress
  | some u =>
    if haltsWhenLost u && !pass then s.vitalFails u
    else
      let s := s.modUnit u (fun x => { x with role := if u = 0x003 then .off else .working })
      if !pass then (s.takeOut u).progress
      else if d = 9 then s.rngUp.progress
      else if d = 4 then s.portsUp
      else
        match streamSource? u with
        | some p => (s.portReady p).progress
        | none => s.progress

/-- A modular core of start-up's working five is retired (R192, R387). -/
def State.coreLost (s : State) : Bool := (List.range 5).any (fun i => decide ((s.unit (0x140 + i)).role = .retired))

/-- A unit has passed its known-answer test at start-up: working while the pool works below the profile's count, else a
spare (R337, R385); of the modular cores the spare is core 5 (R192). -/
def State.startJoin (s : State) (u : Nat) : State :=
  let p := (poolOf u).getD 0
  let role : Role :=
    if u = 0x145 then (if s.coreLost then .working else .spare)
    else if s.poolWorking p < poolCount p s.pf.current then .working else .spare
  (s.modUnit u (fun x => { x with role := role, clean := 0, idleSince := s.po.tm })).renewReserve.progress

/-- A unit fails its known-answer test at start-up: it is retired (R387). -/
def State.startRetire (s : State) (u : Nat) : State :=
  let s := { s with fc := { s.fc with retired := addSet s.fc.retired u } }
  let s := (s.raise u 0x07 0).modUnit u (fun x => { x with role := .retired })
  let s := match unitDomain u with
    | some d => if (tagUnit? u).isSome then s else s.domOff d .off .retired
    | none => s
  let s := if u = 0x010 ∨ u = 0x011 then s.portFalls (decide (u = 0x011)) else s
  let s := if s.coreLost ∧ (s.unit 0x145).role = .spare then s.modUnit 0x145 (fun x => { x with role := .working }) else s
  s.progress

/-- Burin is in RUN: its unit works, waiting links and repairs go on (R19, R288, R337, R344). -/
def State.burinUp (s : State) : State :=
  let s := s.modUnit 0x003 (fun x => { x with role := .working })
  let fenced := (s.units.filter (fun p => decide (p.2.role = .fenced) && (poolOf p.1).isSome)).map (·.1)
  (fenced.foldl (fun s u => s.startRepair u) s).evtSync.settleHeld.schedule

/-- The boot ROM has the image: it verifies it and starts Burin, or start-up stops at step 4 (R288, R344, R386). -/
def State.bootEnd (s : State) (image : List Byte) (busError : Bool) : State :=
  if s.bu.state = .boot ∧ s.po.txns.any (fun t => decide (t.who = .bootImage)) ∧ s.fc.halted = false then
    let s := s.bootVerify image busError
    if s.bu.state = .run then
      let s := s.burinUp
      if s.pw.phase = .firmware then s.stepFiveBegin.progress else s
    else if s.pw.phase = .firmware then s.stopStartup 4 else s
  else s

/-- The answer to the boot ROM's reads; a failed read raises BUS_ERROR of the Burin unit (R403). -/
def State.bootAnswer (s : State) (image : List Byte) (busError : Bool) : State :=
  let reading := s.bu.state = .boot ∧ s.po.txns.any (fun t => decide (t.who = .bootImage)) ∧ s.fc.halted = false
  (if busError ∧ reading then s.raiseFabric 0x003 0x10 0 (s.bu.ptrAddr.toNat * 4096) false else s).bootEnd image busError

/-- A write of BU_BOOT_PTR that starts the boot moves the phase to FIRMWARE; a read that is denied stops start-up at
step 4. -/
def State.bootPtrPhase (s : State) : State :=
  let started := s.bu.state = .boot ∧ s.po.txns.any (fun t => decide (t.who = .bootImage))
  if (s.pw.phase = .boot ∨ (s.pw.phase = .stopped ∧ s.pw.stopStep = 4)) ∧ started then
    s.modPw (fun p => { p with phase := .firmware, stopStep := 0 })
  else if (s.pw.phase = .boot ∨ s.pw.phase = .firmware) ∧ s.bu.state = .bootFail then s.stopStartup 4
  else s

/-- VR and UR (R261): VR only outside END. -/
def State.derived (s : State) (uk : BitVec 256) : State :=
  let ukb := leBytes 32 uk.toNat
  let vr := if s.ts.lcs = 4 then [] else hkdfExtract 0x03 (leBytes 32 s.d0.tamperSecret.toNat) ukb
  s.modVt (fun v => { v with vr := vr, ur := hkdfExtract 0x03 (zeros 48) ukb })

/-- The vault state of a fresh start (R271). -/
def State.freshVault (s : State) (secret : List Byte) : State :=
  let s := s.modD0 (fun d => { d with
    tamperSecret := BitVec.ofNat 256 (leNat secret), burnished := false, root := [0, 0, 0], epoch := 0, sweepPos := 0,
    sweepActive := false, batch := none })
  s.modVt (fun v => { v with fresh := true, regs := [] })

/-- The spill keys are drawn (R94, R179; log 36). -/
def State.spillKeys (s : State) : State :=
  match s.requests [32, 32] with
  | (.got b, s) =>
    let s := s.modDg (fun d => { d with spillKey := b.drop 32 })
    { s with sq := { s.sq with spillKey := b.take 32 } }
  | (_, s) => s

/-- READY (R388): its records in order, the time, and what waited for the unsealed vault. -/
def State.ready (s : State) : State :=
  let recs := s.d0.records
  let s := s.modPw (fun p => { p with phase := .ready, readyTime := s.po.tm })
  let s : State := { s with po := { s.po with ukReq := false }, ts := { s.ts with erased := false } }
  let s := s.event 0 0x0D 0 noRing (leBytes 4 idVersion ++ leBytes 4 s.d0.bootCount.toNat)
  let s := if s.pw.backupLost && recs.isEmpty then s.event 0 0x10 0 noRing [] else s
  let s := recs.foldl (fun s (r : TamperRec) => s.tamperEvent r.cause.toNat r.response.toNat r.time) s
  let s := match s.d0.l5 with
    | some m => { (s.event 0 0x0B 0 noRing (leBytes 8 m.toNat ++ [5])) with d0 := { s.d0 with l5 := none } }
    | none => s
  s.spillKeys.tryOpen.schedule

/-- Step 6 completes and the block reaches READY (R261, R271, R388). While the DRBG cannot serve the draw of a new tamper
secret, start-up stays in UNSEAL: the spec names no outcome (DESIGN CHOICE, log 143). -/
def State.startupReady (s : State) (uk : BitVec 256) : State :=
  if s.pw.phase ≠ .unseal then s
  else if s.pw.backupLost || s.d0.burnished then
    match s.request 32 with
    | (.got b, s) => ((s.freshVault b).derived uk).ready
    | _ => s
  else (s.derived uk).ready

/-- A reset begins start-up again from step 1 (R385, R392). -/
def State.blockReset (s : State) : State := s.afterReset.stepOne

/-- The reset of function 0 (R39): every other function that is HALTED or ENABLED is squashed, then the block is
reset. -/
def State.resetFn0 (s : State) (byPort : Bool) : State :=
  let s := s.modFx (fun x => { x with fn0Due := byPort || s.po.fiMode })
  s.blockReset

/-- A write of 1 to FN_CTRL.FLR_REQ in function 0's page (R39). -/
def State.flrReq0 (s : State) : State :=
  if (s.fn 0).state = .enabled ∨ (s.fn 0).state = .halted then s.resetFn0 false else s

/-- An FLR_REQUEST message (R36, R39, R47, R411). -/
def State.flrMessage (s : State) (f : Nat) (parityOk : Bool) : State :=
  if !parityOk ∨ !s.po.fiUp then s
  else if f = 0 then (if s.fx.fn0Due || s.fx.fn0Offered then s else s.resetFn0 true)
  else
    let v := s.fn f
    if s.fx.numVf.toNat < f ∨ v.state = .unbound ∨ v.state = .ready then s.sendReset f
    else (s.resetRequest f v.entry.flrMode true).2

/-! The domain handshake -/

/-- `pwr_ack_i[d]` follows its request (R377, R378, R380): a restart's ramp goes on; the rail is up. -/
def State.pwrAck (s : State) (d : Nat) (level : Bool) : State :=
  let x := s.dom d
  if d < 2 ∨ 52 ≤ d ∨ level ≠ x.req ∨ x.ack = level then s
  else
    let ramps := decide (x.state = .ramp) || decide (x.state = .failed)
    let x := { x with ack := level, ret := x.ret || (retains d && level), late := false }
    let x := if ramps && !level then { x with state := .ramp, req := true, reqAt := s.po.tm }
      else if ramps && level then { x with state := .restore } else x
    ((s.setDom d x).pump).settleHeld

/-- 15 µs after its request the acknowledgement is missing (R380). -/
def State.ackTimeout (s : State) (d : Nat) : State :=
  let x := s.dom d
  if x.req = x.ack ∨ x.late then s
  else
    (s.setDom d { x with state := if x.state = .ramp then .failed else x.state, late := true }).raise 0x001 0x0C
      (BitVec.ofNat 44 d)

/-- 1 ms after its request the acknowledgement is still missing (R343): the unit is lost, the request stands. -/
def State.fail1ms (s : State) (d : Nat) : State :=
  let x := s.dom d
  if x.req = x.ack ∨ x.state ≠ .failed ∨ x.why = .retired then s
  else
    let stand (s : State) : State := s.setDom d { x with why := .retired }
    let booting := decide (x.why = .startup)
    State.settleHeld <| match domainUnit d with
    | none => s
    | some u =>
      if haltsWhenLost u then
        (if booting then s.vitalFails u else s.levelAct { source := 0x001, kind := 0x0C, addr := BitVec.ofNat 44 d } 4) |> stand
      else if isSingle u then
        let s := if (s.unit u).outOfService then s.modFc (fun c => { c with unitBusy := false }) else s.takeOut u
        let s := stand s
        if booting then (if u = 0x003 then s.stopStartup 4 else s.progress) else s
      else if booting then (stand (s.startRetire u)).progress
      else stand (s.retireUnit u)

/-- The lane, core or tag units of a domain that a wake, a release or a restart has brought back. A restart of a port's
parser leaves the roles of its tag units as they are: only those that a hold-off took out of service proof (R143, R382). -/
def State.laneUp (s : State) (d : Nat) (why : DomWhy) : State :=
  (proofUnits d).foldl (fun s u =>
    let x := s.unit u
    if x.role = .retired ∨ ((tagUnit? u).isSome ∧ x.role ≠ .off) then s
    else match why with
      | .wake =>
        if x.gatedSpare then s.beginProof u (if x.need = 1 then 1 else 10)
        else (s.modUnit u (fun y => { y with role := .working, need := 1000, idleSince := s.po.tm })).renewReserve.schedule
      | _ => s.beginProof u 1000) s

/-- The etch measurement is compared after a restart of D2; a state that differs is emptied and BU_MEM_UE raised
(R344). -/
def State.etchCheck (s : State) : State :=
  let old := s.bu.etch.meas
  let b := s.bu.measured
  if b.etch.meas = old then { s with bu := b }
  else ({ s with bu := b.etchClear } : State).raise 0x003 0x33 (formB 0 0)

/-- A unit without a spare has restarted and passed its known-answer test, and goes on (R341, R342, Table 13.2). -/
def State.unitBack (s : State) (u : Nat) (returned : Bool) : State :=
  let s := s.modUnit u (fun x => { x with role := .working, outOfService := false, busy := if u = 0x004 then x.busy else none, rejoined := some s.po.tm })
  let s := if returned then s.raise u 0x0B 0 else s
  if u = 0x003 then
    let s := s.modUnit u (fun x => { x with role := .off })
    let s := s.etchCheck
    let s := s.modBu (fun b => { b with
      ctx := {}, saved := {}, loads := [], products := [], undo := [], outb := [], readLog := [], replay := [],
      mismatched := false, commitDue := false, lowHalf := none, loadHalf := none, savedLow := none, savedHalf := none,
      state := .boot, evt := 0, savedEvt := 0, evtNew := 0,
      imem := b.imem.filter (fun p => decide (routineLo ≤ p.1)), dmem := [] })
    if s.bu.ptrValid then s.bootBegin else s
  else if u = 0x00B then
    let s := s.modRng (fun g => { g with stuck := if returned then false else g.stuck })
    if s.pk.rng.state = .repair ∧ s.pk.rng.reserve.isEmpty = false then s.rngFromReserve.settleHeld.schedule
    else s.rngUp
  else if u = 0x004 then s.vaultBack.schedule
  else if u = 0x008 then s.ringsBack.schedule
  else if u = 0x00D then s.dmaResume
  else if u = 0x00E then s.modPr (fun p => { p with trace := [], traceGap := 0 })
  else match streamSource? u with
    | some p => s.portReady p
    | none => s.schedule

/-- A restarted domain reaches ON (R378): what follows depends on why it was switched. -/
def State.domainDone (s : State) (d : Nat) (pass : Bool) : State :=
  let x := s.dom d
  if x.state ≠ .restore then s
  else
    let counted := decide (x.why = .restart) || decide (x.why = .wake) || decide (x.why = .release)
    let s := s.setDom d { x with
      state := .on, why := if x.why = .retired then .retired else .none, restarts := if counted then satAdd x.restarts 1 else x.restarts }
    let s := match x.why with
      | .startup => s.startupUnit d pass
      | .retired | .none | .gate | .holdOff => s
      | w =>
        let s := s.laneUp d w
        match singleUnit d with
        | none => s
        | some u =>
          let out := (s.unit u).outOfService
          let s := if out then s.modFc (fun c => { c with unitBusy := false }) else s
          if pass then s.unitBack u out
          else if out then s.domOff d .off .retired
          else if haltsWhenLost u then s.levelAct { source := BitVec.ofNat 12 u, kind := 0x02, addr := 0 } 4
          else s.takeOut u
    s.pump.settleHeld

/-! Proofing -/

/-- A hot spare fails a proofing cycle: PROOF_FAIL, then the repair from step 3 on (R338). -/
def State.spareFails (s : State) (u : Nat) : State := ((s.raise u 0x06 0).fenceUnit u).startRepair u

/-- A proofing cycle of a lane that takes over a link in BULK: after 50 clean ones the link goes on (R346). One that fails leads
to its repair. -/
def State.drainCycle (s : State) (u : Nat) (clean : Bool) : State :=
  if !clean then s.spareFails u
  else s.modUnit u (fun x => if x.clean + 1 < 50 then { x with clean := x.clean + 1 } else { x with clean := 0, need := 1000 })

/-- A proofing cycle ends (R337, R338, R384, R387); those of a repair wait until Burin is in RUN (R344). -/
def State.proofCycle (s : State) (u : Nat) (clean : Bool) : State :=
  let x := s.unit u
  let booting := decide (s.pw.phase ≠ .ready)
  if (poolOf u).isNone then s
  else if x.role = .spare then
    if clean ∨ s.fc.halted then s else s.spareFails u
  else if s.unproofed u && !s.fc.halted then s.drainCycle u clean
  else if x.role ≠ .proofing ∨ s.fc.halted ∨ (!booting && decide (x.need = 1000 ∧ s.bu.state ≠ .run)) then s
  else if !clean then
    if booting then (s.startRetire u).settleHeld
    else if x.gatedSpare then (s.modUnit u (fun x => { x with role := .spare, gatedSpare := false })).spareFails u
    else (s.retireUnit u).settleHeld
  else if x.clean + 1 < x.need then s.modUnit u (fun x => { x with clean := x.clean + 1 })
  else if booting then s.startJoin u
  else if x.gatedSpare && decide (x.need = 10 ∧ s.pf.current = 2) then
    let s := s.modUnit u (fun x => { x with role := .gated, clean := 0 })
    match unitDomain u with
    | some d => s.domOff d .gated .gate
    | none => s
  else (s.joinUnit u (decide (x.need = 1000))).settleHeld

/-! Holding off, gating -/

/-- Domains that Table 15.1 marks Yes, stream ports only while EN is 0 (R382). -/
def State.mayHold (s : State) (d : Nat) : Bool :=
  decide (9 ≤ d ∧ d ≤ 45) || decide (d = 50 ∨ d = 51) ||
  (decide (46 ≤ d ∧ d ≤ 49) && !(s.sport (d - 46)).en)

/-- A unit leaves the pool without a fault: its link moves on at its next boundary, its entries move out (R109, R190,
R382). -/
def State.standDown (s : State) (u : Nat) : State :=
  let x := s.unit u
  let taker := (poolOf u).bind s.takerOf
  let s := match x.busy with
    | some t => s.requeue t false
    | none => s
  let s := s.modUnit u (fun x => { x with role := .off, busy := none, clean := 0, gatedSpare := false })
  let s := if unitKind u = .digest then s.moveCtxs u taker else s
  s.renewReserve

/-- A domain is held off (R382). -/
def State.holdDomain (s : State) (d : Nat) : State :=
  let s := s.setDom d { s.dom d with holdOff := true }
  let live (u : Nat) : Bool := decide ((s.unit u).role ≠ .retired) && !(s.unit u).outOfService
  let s := ((proofUnits d).filter live).foldl (fun s u =>
    let p := (poolOf u).getD 0
    let w := s.poolWorking p
    let n := s.poolSpares p
    let s := s.poolStep p false (fun s => s.standDown u)
    if s.poolWorking p = w ∧ s.poolSpares p = n then s.capacity p w n else s) s
  let s := match singleUnit d with
    | none => s
    | some u =>
      if !live u then s
      else
        let s := if u = 0x00C then s.standDown u
          else s.modUnit u (fun x => { x with role := if u = 0x00B then .working else .off })
        let s := if u = 0x00B then s.modRng (fun g => g.zeroise.enter .off) else s
        let s := if u = 0x00D then s.dmaFault else s
        let s := if u = 0x00E then s.modPr (fun p => { p with trace := [], traceGap := 0 }) else s
        s.capacity u 0 0
  (if (s.dom d).why = .retired then s else s.domOff d .heldOff .holdOff).schedule

/-- A write of PW_DOM_CTRL (R382). -/
def State.domCtrl (s : State) (hold : Bool) : State :=
  let d := s.pw.domSel.toNat
  if 52 ≤ d then s
  else if !s.mayHold d then s.modPw (fun p => { p with domErr := true })
  else
    let s := s.modPw (fun p => { p with domErr := false })
    let x := s.dom d
    if hold = x.holdOff then s
    else if hold then s.holdDomain d
    else
      let s := s.setDom d { x with holdOff := false }
      if x.why = .retired then s else s.domWants d .release

/-- A working lane outside the reserve that has been idle is gated in LEAN; a spare only while CAP cannot be held
otherwise (R384). A digest lane with entries spills them first. -/
def State.idleGate (s : State) (u : Nat) : State :=
  let x := s.unit u
  let s := if x.role = .spare then s.estimate else s
  let lane := decide (unitKind u = .cipher) || decide (unitKind u = .digest)
  let may := decide (x.role = .working) || (decide (x.role = .spare) && s.powerOver)
  if !lane || !may || decide (s.pf.current ≠ 2) || x.busy.isSome || s.fc.halted then s
  else if unitKind u = .digest ∧ 0 < s.residents u then (if s.dg.spillEn then s.moveCtxs u none else s)
  else
    let s := s.modUnit u (fun x => { x with role := .gated, gatedSpare := decide (x.role = .spare) })
    match unitDomain u with
    | some d => s.domOff d .gated .gate
    | none => s

/-- A gated spare wakes for its proofing round (R384). -/
def State.proofWake (s : State) (u : Nat) : State :=
  let x := s.unit u
  if x.role = .gated ∧ x.gatedSpare ∧ s.fc.halted = false then
    let s := s.modUnit u (fun x => { x with need := 10 })
    match unitDomain u with
    | some d => s.domWants d .wake
    | none => s
  else s

/-! Main power and the reference -/

/-- Main power falls out of range (R393): D0 runs on, everything else is lost; with a critical cell it burnishes at once
(R369). -/
def State.powerLoss (s : State) : State :=
  if s.d0.onCell then s
  else
    let r := s.afterReset
    let u : State := { r with
      d0 := { s.d0 with onCell := true, lossTime := s.po.tm }, fc := {}, fx := {}, ts := { cell := s.ts.cell },
      pw := { porAsserted := true }, po := { r.po with ident := ({} : Ports).ident, tapIr := ({} : Ports).tapIr, tapDr := 0 } }
    if s.ts.cell = .critical then u.preempt else u

/-- Main power returns (R394): D0 is on main supply again; `rst_por_i` is still asserted. D1 has not sampled the alarm lines
yet: one that is active at its first sample is an event (R361; log 125). -/
def State.powerReturn (s : State) : State :=
  if s.d0.onCell then { s with d0 := { s.d0 with onCell := false }, ts := { s.ts with levels := 0 } } else s

/-- `rst_por_i` is asserted (R395, R419, Table 15.5). -/
def State.porAssert (s : State) : State :=
  if s.d0.onCell then s else (s.modPw (fun p => { p with porAsserted := true })).afterReset

/-- `rst_por_i` is deasserted: start-up runs from step 1 (R385). The reference is present (R426). -/
def State.porDeassert (s : State) (ids : Identity) : State :=
  if s.d0.onCell then s
  else
    let s := (s.modPw (fun p => { p with porAsserted := false, refOk := true, holdover := false })).afterReset
    ({ s with po := { s.po with ident := ids } } : State).stepOne

/-- `id_valid_i` rises: step 1 latches the identity (R415). -/
def State.identityValid (s : State) (ids : Identity) : State :=
  if s.pw.phase = .sentinel ∧ s.po.ident.valid = false ∧ ids.valid ∧ s.d0.onCell = false ∧ s.pw.porAsserted = false then
    ({ s with po := { s.po with ident := ids } } : State).stepOne
  else s

/-- `rst_blk_i` changes (R391, R392). -/
def State.blkInput (s : State) (level : Bool) : State :=
  if s.d0.onCell ∨ s.pw.blkAsserted = level then s
  else (s.modPw (fun p => { p with blkAsserted := level })).blockReset

/-- REF_LOST (R14), HOLDOVER and the return of the reference (R383). -/
def State.refLost (s : State) : State :=
  if s.pw.refOk then (s.modPw (fun p => { p with refOk := false })).raise 0x001 0x18 0 else s
def State.refHoldover (s : State) : State :=
  if s.pw.refOk then s else s.modPw (fun p => { p with holdover := true })
def State.refReturn (s : State) : State :=
  (s.modPw (fun p => { p with refOk := true, holdover := false })).settleHeld

/-- A new time of day (R418): the pool has filled meanwhile (R216, log 33), and trace records have left, one in five beats of
the 250 MHz trace clock (R421, log 153). -/
def State.timeTo (s : State) (tm : DWord) : State :=
  let s' : State := { s with po := { s.po with tm := tm, tmTog := !s.po.tmTog } }
  (s'.traceOut (tm.toNat / 20 - s.po.tm.toNat / 20)).modRng (fun g => g.fill (tm.toNat - s.po.tm.toNat))

/-- TIME_UPDATE: the time, then what has waited for it. -/
def State.timeUpdate (s : State) (tm : DWord) : State := (s.timeTo tm).rngStart.rngReserve.rolledBack

/-! The PW_ page -/

/-- A read of the PW_ page. -/
def pwRead (s : State) (off : Nat) : DWord :=
  let p := s.pw
  let d := p.domSel.toNat
  let x := s.dom d
  let stateOf (n : Nat) : DomState := if n < 2 then .on else (s.dom n).state
  if off = 0 then
    pk [(0, p.phase.code), (3, p.stopStep.toNat), (6, b2n p.backupLost), (7, b2n p.tamperFound), (8, b2n s.fc.lockdown),
        (9, b2n p.refOk), (10, b2n p.holdover)]
  else if off = 0x08 then s.d0.bootCount.setWidth 64
  else if off = 0x10 then p.readyTime
  else if off = 0x18 then 0
  else if off = 0x20 then p.domSel.setWidth 64
  else if off = 0x28 then pk [(0, b2n (decide (d < 52) && x.holdOff)), (8, b2n p.domErr)]
  else if off = 0x30 then
    if 52 ≤ d then 0
    else pk [(0, (stateOf d).code), (3, b2n (decide (d < 2))), (4, b2n (s.adminOff d)), (16, x.restarts.toNat)]
  else if off = 0x40 then
    BitVec.ofNat 64 (((List.range 52).filter (fun n => decide (stateOf n = .on))).foldl (fun a n => a + 2 ^ n) 0)
  else if off = 0x48 then
    pk [(0, p.est.toNat), (8, (p.doms.filter (fun y => decide (y.2.state = .gated))).length)]
  else 0

/-- A write to the PW_ page. -/
def pwWrite (s : State) (off : Nat) (q : WReq) : State :=
  if !q.lo then s
  else if off = 0x18 then (if bit q.x 0 then s.blockReset else s)
  else if off = 0x20 then s.modPw (fun p => { p with domSel := fld q.x 0 6 })
  else if off = 0x28 then s.domCtrl (bit q.x 0)
  else s

end Sys2Proof.Machine
end

