-- ==== Sys2Proof/Machine/Flags.lean ====
section
/-! DEFINITION. The output pins and flags that the state drives: each is a function of the state (16_ports.md R395–R417). -/

namespace Sys2Proof.Machine

/-- The level outputs of the block (16_ports.md). -/
structure Pins where
  fpaUp : Bool
  fpbUp : Bool
  rpUp : Bool
  fiUp : Bool
  fiNumvf : BitVec 10
  senFault : Bool
  senWake : Bool
  ukReq : Bool
  /-- `sen_stim_o` and `sen_supp_o` (R366). -/
  senStim : BitVec 16
  senSupp : BitVec 16
  /-- `pwr_req_o` and `pwr_ret_o`, bit d for domain d (R417). -/
  pwrReq : BitVec 52
  pwrRet : BitVec 52
  deriving DecidableEq, Repr

/-- One output bit for each switched domain (R417). -/
def State.domPins (s : State) (p : Dom → Bool) : BitVec 52 :=
  BitVec.ofNat 52 (((List.range 52).map (fun d => if 2 ≤ d ∧ p (s.dom d) then 2 ^ d else 0)).sum)

/-- The level outputs as the state drives them: the up signals (R398), `fi_numvf_o` (R34), `sen_fault_o` (R332),
`sen_wake_o` (R115), the request for the unique key (R416), the monitor test (R366), the domain handshake (R417). -/
def State.pins (s : State) : Pins where
  fpaUp := s.po.fpaUp
  fpbUp := s.po.fpbUp
  rpUp := s.po.rpUp
  fiUp := s.po.fiUp
  fiNumvf := s.fx.numVf
  senFault := s.senFault
  senWake := s.senWake
  ukReq := s.po.ukReq
  senStim := s.ts.stim
  senSupp := s.ts.supp
  pwrReq := s.domPins (·.req)
  pwrRet := s.domPins (·.ret)

/-- Interrupt flag of pool vector `v`: its message is due and not masked (R111). -/
def State.irqFlag (s : State) (v : Nat) : Bool := (s.vec v).due && !(s.vec v).mask

/-- Burin's pending events that its mask lets through (R280). -/
def State.burinEvents (s : State) : BitVec 6 := s.bu.evt &&& s.bu.ctx.evtMask

/-- The block halts at L4 or L5 (R326, R327). -/
def State.blockHalted (s : State) : Bool := s.fc.halted || s.fc.lockdown

end Sys2Proof.Machine
end

