-- ==== Sys2Proof/Machine/Fabric.lean ====
section
/-! DEFINITION. Answers on the fabric and on the credit channels that are not the data of an access: retries, failures,
timeouts, parity errors, credits (16_ports.md R397, R403, R404). -/

namespace Sys2Proof.Machine


/-- The source that reports the failure of an access (log 53): the unit that asked for it. -/
def State.initiatorSource (s : State) (w : Who) : Nat :=
  match w with
  | .ringHeader _ | .ringEntry _ | .ringTable _ | .headerWrite _ | .completion _ => 0x008
  | .event _ | .journal => 0x009
  | .link t => ((s.tag? t).bind (fun e => if e.started then some e.lastUnit else none)).getD 0x00A
  | .chainSpill _ => 0x00A
  | .context f i => (((s.dctx (sessKey f i)).bind (fun c => c.place.lane?))).getD 0x00A
  | .linkContext t => (((s.dctx t).bind (fun c => c.place.lane?))).getD 0x00A
  | .vaultRead _ | .vaultWrite | .blobWrite | .sweep => 0x004
  | .dmaRead _ _ | .dmaWrite _ _ | .dmaCrc _ => 0x00D
  | .bootImage => 0x003
  | .debug => 0x00E

/-- The first transaction of an identifier. -/
def State.txn? (s : State) (id : Nat) : Option FabReq := s.po.txns.find? (fun q => q.id == id)

/-- A transaction is no longer outstanding. -/
def State.dropTxn (s : State) (id : Nat) : State :=
  { s with po := { s.po with txns := s.po.txns.filter (fun q => q.id != id) } }

/-- A failed transaction is no longer outstanding; the boot ROM's own are dropped by its verdict. -/
def State.dropFailed (s : State) (q : FabReq) : State := if q.who = .bootImage then s else s.dropTxn q.id

/-- Changes the first transaction of an identifier. -/
def State.modTxn (s : State) (id : Nat) (f : FabReq → FabReq) : State :=
  { s with po := { s.po with txns := s.po.txns.map (fun q => if q.id = id then f q else q) } }

/-- The working state of a lane is cleared with its entries: the link on it ends with BUS_ERROR (R185, log 123). -/
def State.laneLinkFails (s : State) (u : Nat) : State :=
  match (s.unit u).busy with
  | some t => s.finish t .busError 0 0
  | none => s

/-- A data access of link `t` failed (Table 3.9 BUS_ERROR, R185). -/
def State.linkAccessFails (s : State) (t : Nat) : State :=
  match s.tag? t with
  | none => s
  | some e =>
    match e.phase with
    | .running u =>
      (if kindOf e.desc.opcode = .digest then s.clearLane u else s).finish t .busError 0 0
    | .ended =>
      let s := if e.status = .ok then s.setTag t { e with status := .busError, outBytes := 0, result := 0 } else s
      if kindOf e.desc.opcode = .digest ∧ e.started = true then (s.clearLane e.lastUnit).laneLinkFails e.lastUnit else s
    | .commitWait => s.setTag t { e with status := .busError, outBytes := 0, result := 0 }
    | _ => s

/-- A spill write or read of context `k` failed (R185). -/
def State.contextFails (s : State) (k : Nat) : State :=
  match s.dctx k with
  | none => s
  | some c =>
    match c.place with
    | .lane _ => s
    | .spilling u _ => (s.clearLane u).laneLinkFails u
    | _ =>
      match s.sq.tags.find? (fun p => decide (p.1 = k ∨ sessionUsed p.2 = some k) && p.2.phase.unit?.isSome) with
      | some (t, e) => (s.restoreFails k (e.phase.unit?.getD 0)).finish t .busError 0 0
      | none => s

/-- A header, entry or link-table read of a ring failed (R56, R85). -/
def State.fetchFails (s : State) (r : Nat) (header : Bool) : State :=
  match s.ringOwner r with
  | none => s
  | some f =>
    if header && (s.ring r).enabling then s.refuseEnable f r (s.ring r).issuePos 2
    else (s.fetchStop r).modRing r (fun x => { x with hdrBusy := if header then false else x.hdrBusy })

/-- A completion record write failed: no further record, and the ring stops with BUS_ERROR (R82). -/
def State.completionFails (s : State) (r : Nat) : State :=
  let s := if (s.ring r).state = .enabled ∨ (s.ring r).stopWith ≠ 0 then s.stopRing r 2 else s
  s.modRing r (fun x => { x with noRecords := true })

/-- The consequence of a failed transaction for its initiator (R403). -/
def State.txnFails (s : State) (q : FabReq) : State :=
  match q.who with
  | .ringHeader r => s.fetchFails r true
  | .ringEntry r | .ringTable r => s.fetchFails r false
  | .completion r => s.completionFails r
  | .headerWrite _ | .event _ | .journal => s
  | .link t | .chainSpill t => s.linkAccessFails t
  | .context f i => s.contextFails (sessKey f i)
  | .linkContext t => s.contextFails t
  | .vaultRead slot => (s.missReadReturn slot VaultRead.fails).kmResume
  | .vaultWrite | .blobWrite => s.batchFail
  | .sweep => s.sweepStep VaultRead.fails
  | .dmaRead c n | .dmaWrite c n => s.dmaBurstFail c n false
  | .dmaCrc c => s.dmaCrcFail c
  | .bootImage => s.bootEnd [] true
  | .debug => { s with po := { s.po with tapStatus := 2 } }

/-- A DMA access: its channel's RETRY applies, not the port's, and comes before its BUS_ERROR (R318, R403). -/
def Who.isDma : Who → Bool
  | .dmaRead _ _ | .dmaWrite _ _ | .dmaCrc _ => true
  | _ => false

/-- A transaction fails (R403): BUS_ERROR in form A and the consequence for its initiator. -/
def State.failTxn (s : State) (q : FabReq) : State :=
  let src := s.initiatorSource q.who
  let s := s.dropFailed q
  let s := if q.who.isDma then s else s.raiseFabric src 0x10 q.fn q.addr q.write
  s.txnFails q

/-- The late answer of a transaction that timed out is discarded; its TID may be used again (R403). -/
def State.lateAnswer (s : State) (id : Nat) : State :=
  { s with po := { s.po with late := s.po.late.filter (fun x => x.id != id) } }

/-- A transaction that times out keeps its TID (R403). -/
def State.keepTid (s : State) (q : FabReq) : State :=
  match q.tid with
  | some t => { s with po := { s.po with late := { id := q.id, portB := q.portB, tid := t } :: s.po.late } }
  | none => s

/-- An answer of RETRY or ERROR (R403). -/
def State.responseFail (s : State) (id : Nat) (retry : Bool) : State :=
  match s.txn? id with
  | none => s.lateAnswer id
  | some q =>
    if q.backoff then s
    else if retry && !q.who.isDma && decide (q.retries < q.maxRetries.toNat) then s.modTxn id (fun q => { q with backoff := true })
    else s.failTxn q

/-- The retry timer of a transaction: it is sent again (R403), on the port that its address has now (R399). That is a new
issue, checked under the rules now in force and denied where they deny it (R348, R349); after a block halt no write is
issued (R326). -/
def State.retryTxn (s : State) (id : Nat) : State :=
  match s.txn? id with
  | none => s
  | some q =>
    let b := s.po.portB q.addr
    if !q.backoff then s
    else if s.fc.halted && q.write then s.dropTxn id
    else if s.allowed q.fn q.addr q.len q.write then
      let q : FabReq := { q with retries := q.retries + 1, backoff := false, portB := b }
      let s := (s.modTxn id (fun _ => q)).transmit q
      { s with po := { s.po with nRetries := satAdd s.po.nRetries 1 } }
    else ((s.dropFailed q).raiseFabric (secSource b) 0x12 q.fn q.addr q.write).txnFails q

/-- An unanswered transaction fails without retry and raises RESP_TIMEOUT (R403). -/
def State.timeoutTxn (s : State) (id : Nat) : State :=
  match s.txn? id with
  | none => s
  | some q =>
    if q.backoff then s
    else
      let s := (s.dropFailed q).keepTid q
      let s := { s with po := { s.po with nTimeouts := satAdd s.po.nTimeouts 1 } }
      (s.raiseFabric (pathSource q.portB) 0x11 q.fn q.addr q.write).txnFails q

/-- A parity error on an incoming fabric transfer (R404): a DATAPATH fault of the port, which is fenced. -/
def State.fabParity (s : State) (portB : Bool) : State := s.checker (pathSource portB) 0x01 0

/-- Credits come back on a channel (R397): 1–15, and none while the port's up signal is 0 (R398). -/
def State.creditBack (s : State) (c : Channel) (n : BitVec 4) : State :=
  let up : Bool := match c with
    | .fpaReq | .fpaWd | .fpaRd | .fpaRsp => s.po.fpaUp
    | .fpbReq | .fpbWd | .fpbRd | .fpbRsp => s.po.fpbUp
    | .rpReq | .rpRsp => s.po.rpUp
    | .fiMsg | .fiMacc | .fiEvt => s.po.fiUp
  if up && decide (n ≠ 0) then
    { s with po := { s.po with chans := s.po.chans.modify {} (chanNo c) (·.credit n.toNat) } }
  else s

/-- AR_SYNC.DONE rises once no access checked under an older epoch waits (R350). -/
def State.syncCheck (s : State) : State := if s.oldAccesses then s else s.syncDone

end Sys2Proof.Machine
end

