-- ==== Sys2Proof/Machine/Pages.lean ====
section
/-! DEFINITION. The register pages that belong to no other file: identity, global control, ring table, sequencer, lanes
and cores, random number generator, Stipple, with what writing them does (04_chains.md R96–R110, 08_public_key.md
R216–R220). -/

namespace Sys2Proof.Machine

/-! Profiles and caps (R107–R110) -/

/-- Changes the global control. -/
def State.modPf (s : State) (f : Profile → Profile) : State := { s with pf := f s.pf }

/-- A write of REQUEST: starts a change, or is kept while one is under way (R109). -/
def State.profileAsk (s : State) (r : BitVec 2) : State :=
  if s.pf.pending then s.modPf (fun p => { p with request := r, kept := some r })
  else if r = s.pf.current then s.modPf (fun p => { p with request := r })
  else s.modPf (fun p => { p with request := r, target := r, pending := true })

/-- A lane leaves the working pool and proofs (R109). -/
def State.withdraw (s : State) (u : Nat) : State := (s.standDown u).beginProof u 1000

/-- The last `n` lanes of a list that do work. -/
def State.lastWorking (s : State) (l : List Nat) (n : Nat) : List Nat :=
  (l.reverse.filter (fun u => (s.unit u).role.inService)).take n

/-- A profile change completes (R109): CURRENT, the pools of BULK, the gated lanes of LEAN, the PROFILE record. -/
def State.profileDone (s : State) : State :=
  if !s.pf.pending then s
  else
    let old := s.pf.current
    let new := s.pf.target
    let kept := s.pf.kept
    let s := s.modPf (fun p => { p with current := new, pending := false, kept := none })
    let lanes : List Nat := Kind.cipher.units ++ Kind.digest.units
    let s := if new = 1 then lanes.foldl (fun s u =>
        if (s.unit u).role = .spare then s.modUnit u (fun x => { x with role := .working, gatedSpare := false }) else s) s
      else s
    let s := if old = 1 then
        (s.lastWorking Kind.cipher.units 2 ++ s.lastWorking Kind.digest.units 1).foldl (fun s u => s.withdraw u) s
      else s
    let s := if old = 2 then lanes.foldl (fun s u =>
        if (s.unit u).role = .gated then
          match unitDomain u with
          | some d => s.domWants d .wake
          | none => s
        else s) s
      else s
    let s := s.renewReserve.event 0 0x11 0 noRing [BitVec.ofNat 8 new.toNat]
    let s := match kept with
      | some r => s.profileAsk r
      | none => s
    s.schedule

/-- A write to GC_POWER_CAP: ignored outside 4–16 (R108). -/
def State.capWrite (s : State) (x : DWord) : State :=
  let c := fld x 0 5
  if 4 ≤ c.toNat ∧ c.toNat ≤ 16 then (s.modPf (fun p => { p with cap := c })).schedule else s

/-- A write to GC_OVERRIDE: ignored in full with a value out of range (R110). -/
def State.override (s : State) (x : DWord) : State :=
  if 8 < (fld x 0 4).toNat ∨ 4 < (fld x 4 3).toNat ∨ 10 < (fld x 8 4).toNat then s
  else
    (s.modPf (fun p => { p with
      dCipher := fld x 0 4, dDigest := fld x 4 3, dEn := bit x 7, bShare := fld x 8 4, auditClasses := fld x 12 3,
      dDemote := bit x 15 })).renewReserve.schedule

/-- A write to GC_FABRIC: ignored in full with a TIMEOUT_US of 0 (R403). -/
def State.fabricCfg (s : State) (x : DWord) : State :=
  if fld x 8 16 = 0 then s else { s with po := { s.po with retry := fld x 0 3, timeoutUs := fld x 8 16 } }

/-- The GC_ page: reads. -/
def gcRead (s : State) (off : Nat) : DWord :=
  let p := s.pf
  match off with
  | 0x00 => pk [(0, p.request.toNat), (8, p.current.toNat), (10, b2n p.pending)]
  | 0x08 => pk [(0, p.cap.toNat), (8, 7), (13, b2n (decide (p.cap.toNat < 7)))]
  | 0x10 => pk [(0, p.dCipher.toNat), (4, p.dDigest.toNat), (7, b2n p.dEn), (8, p.bShare.toNat), (12, p.auditClasses.toNat),
      (15, b2n p.dDemote)]
  | 0x18 => pk [(0, b2n p.irqAfterResp)]
  | 0x20 => pk [(0, s.po.retry.toNat), (8, s.po.timeoutUs.toNat), (24, b2n s.po.fpaUp), (25, b2n s.po.fpbUp)]
  | 0x28 => halves s.po.nRetries s.po.nTimeouts
  | _ => 0

/-- The GC_ page: writes. -/
def gcWrite (s : State) (off : Nat) (q : WReq) : State :=
  if !q.lo then s
  else match off with
    | 0x00 => s.profileAsk (fld q.x 0 2)
    | 0x08 => s.capWrite q.x
    | 0x10 => s.override q.x
    | 0x18 => s.modPf (fun p => { p with irqAfterResp := bit q.x 0 })
    | 0x20 => s.fabricCfg q.x
    | _ => s

/-! The ring table's registers (R59) -/

/-- The RT_ page: reads. BUSY reads 0: a command is accepted or refused at once. -/
def rtRead (s : State) (off : Nat) : DWord :=
  let r := s.rt.sel.toNat
  let x := s.ring r
  let own := s.ringOwner r
  let f := own.getD 0
  match off with
  | 0x00 => pk [(0, r)]
  | 0x08 => pk [(12, s.rt.err.toNat)]
  | 0x10 => pk [(9, s.rt.hdr.toNat)]
  | 0x18 => if x.state = .disabled then 0 else pk [(9, x.hdr.toNat)]
  | 0x20 => pk [(0, x.state.code), (8, x.reason.toNat), (16, f), (32, if own.isSome then s.localRing f r else 0),
      (48, (s.tagsOfRing r).length), (63, b2n own.isSome)]
  | _ => 0

/-- The RT_ page: writes. -/
def rtWrite (s : State) (off : Nat) (q : WReq) : State :=
  match off with
  | 0x00 => if q.lo then { s with rt := { s.rt with sel := fld q.x 0 14 } } else s
  | 0x08 =>
    if !q.lo then s
    else match (fld q.x 0 2).toNat with
      | 1 => s.rtCommand .enable
      | 2 => s.rtCommand .disable
      | _ => { s with rt := { s.rt with err := 3 } }
  | 0x10 => { s with rt := { s.rt with hdr := fld q.x 9 48 } }
  | _ => s

/-! The chain sequencer's registers -/

/-- Changes the chain sequencer. -/
def State.modSq (s : State) (f : Seq → Seq) : State := { s with sq := f s.sq }

/-- A write to SC_SPILL (R96). -/
def State.scSpill (s : State) (x : DWord) : State :=
  let en := bit x 0
  let size := fld x 8 8
  let addr := fld x 21 36
  let held := s.sq.tags.any (fun p => !p.2.spillUnits.isEmpty)
  if held && (!en || decide (size ≠ s.sq.spillSize ∨ addr ≠ s.sq.spillAddr)) then s
  else if en then s.modSq (fun q => { q with spillEn := decide (q.spillSize ≠ 0) })
  else s.modSq (fun q => { q with spillEn := false, spillSize := size, spillAddr := addr })

/-- The SC_ page: reads. -/
def scRead (s : State) (off : Nat) : DWord :=
  let q := s.sq
  match off with
  | 0x00 => pk [(0, q.ageUs.toNat)]
  | 0x08 => pk [(0, q.tags.length), (16, q.highWater.toNat)]
  | 0x10 => halves q.admitted q.refused
  | 0x18 => pk [(0, b2n q.spillEn), (8, q.spillSize.toNat), (21, q.spillAddr.toNat)]
  | 0x20 => pk [(0, 512 - q.chUsed), (16, min 4095 s.freeSpill.length)]
  | _ => 0

/-- The SC_ page: writes. -/
def scWrite (s : State) (off : Nat) (q : WReq) : State :=
  match off with
  | 0x00 => if q.lo then s.modSq (fun p => { p with ageUs := fld q.x 0 16 }) else s
  | 0x18 => s.scSpill q.x
  | _ => s

/-- A read of SC_ADMIT clears the counts it covers (R407). -/
def scTake (s : State) (off : Nat) (lo hi : Bool) : State :=
  if off = 0x10 then
    s.modSq (fun p => { p with admitted := if lo then 0 else p.admitted, refused := if hi then 0 else p.refused })
  else s

/-! Lanes and cores -/

/-- Units of a list with a role. -/
def State.roles (s : State) (l : List Nat) (p : Role → Bool) : Nat := (l.filter (fun u => p (s.unit u).role)).length

/-- A link runs or is suspended on the unit. -/
def State.unitBusy (s : State) (u : Nat) : Bool :=
  (s.unit u).busy.isSome || s.dg.ctxs.any (fun p => decide (p.1 < 16384) && decide (p.2.place.lane? = some u))

/-- CL_LANE_STAT and its like. -/
def State.laneWord (s : State) (u : Nat) : List (Nat × Nat) :=
  let x := s.unit u
  [(0, x.role.code), (3, b2n (s.unitBusy u)), (8, x.faults.toNat)]

/-- Counts of the CL_STATUS and DL_STATUS kind. -/
def State.poolWord (s : State) (k : Kind) : List (Nat × Nat) :=
  [(0, s.roles k.units (·.inService)), (8, s.roles k.units (· == .reserved)), (16, s.roles k.units (· == .spare)),
   (24, s.roles k.units (· == .retired))]

/-- The CL_ page. -/
def clRead (s : State) (off : Nat) : DWord :=
  if off = 0x00 then pk (s.poolWord .cipher)
  else if off = 0x08 then s.cl.replays
  else if off = 0x10 then s.cl.authFail
  else if 0x100 ≤ off ∧ off < 0x190 then pk (s.laneWord (0x100 + (off - 0x100) / 8))
  else 0

/-- A write to DL_SPILL (R184). -/
def State.dlSpill (s : State) (x : DWord) : State :=
  let en := bit x 0
  let addr := fld x 21 36
  let held := s.dg.ctxs.any (fun p => decide (16384 ≤ p.1) || p.2.place.isSpilled)
  if held && (!en || decide (addr ≠ s.dg.spillAddr)) then s
  else if en then s.modDg (fun d => { d with spillEn := true })
  else s.modDg (fun d => { d with spillEn := false, spillAddr := addr })

/-- The DL_ page: reads. -/
def dlRead (s : State) (off : Nat) : DWord :=
  let d := s.dg
  if off = 0x00 then pk (s.poolWord .digest)
  else if off = 0x08 then d.replays
  else if off = 0x10 then d.ctxLost
  else if off = 0x18 then pk [(0, b2n d.spillEn), (21, d.spillAddr.toNat)]
  else if off = 0x20 then halves d.spills d.restores
  else if 0x100 ≤ off ∧ off < 0x148 then
    let u := 0x120 + (off - 0x100) / 8
    pk (s.laneWord u ++ [(16, s.residents u)])
  else 0

/-- The DL_ page: writes. -/
def dlWrite (s : State) (off : Nat) (q : WReq) : State := if off = 0x18 then s.dlSpill q.x else s

/-! The random number generator's registers (R216–R220) -/

/-- RAW_MODE is set or cleared (R220). It covers whatever STATE was; a generator that worked starts again with its tests when
RAW_MODE is cleared (log 89). -/
def State.rawMode (s : State) (on : Bool) : State :=
  if !s.testLife then s
  else if on then
    s.modRng (fun g => { g with rawMode := true, under := g.state, state := .raw, reseeding := false })
  else
    let s := s.modRng (fun g => { g with rawMode := false, state := g.under })
    if s.pk.rng.state = .ready ∨ s.pk.rng.state = .startup then s.rngUp else s

/-- RESEED asks for a reseed; requests wait until it is done (R217). -/
def State.reseedAsk (s : State) : State := s.modRng (fun g => { g with reseed := true, reseeding := decide (g.state = .ready) })

/-- RESTART leaves ERROR: D9 restarts (R218). -/
def State.rngRestart (s : State) : State :=
  if s.pk.rng.state = .error ∧ (s.unit 0x00B).outOfService = false then
    (s.modRng (fun g => { g with restart := true, stuck := false })).domWants 9 .restart
  else s

/-- A write to PK_RNG_CTRL. -/
def State.rngCtrl (s : State) (x : DWord) : State :=
  let ms := fld x 0 10
  let lg := fld x 16 5
  if ms.toNat < 1 ∨ 1000 < ms.toNat ∨ lg.toNat < 10 ∨ 20 < lg.toNat then s
  else
    let s := s.modRng (fun g => { g with intervalMs := ms, reqLog2 := lg })
    let s := if bit x 28 = s.pk.rng.rawMode then s else s.rawMode (bit x 28)
    let s := if bit x 24 then s.reseedAsk else s
    if bit x 25 then s.rngRestart else s

/-- A reseed that waits is done once the pool holds 512 bits (R217). -/
def State.reseedDone (s : State) : State :=
  let g := s.pk.rng
  if g.reseeding && decide (g.state = .ready) && decide (512 ≤ g.pool) then s.reseedNow.schedule else s

/-- INTERVAL_MS has passed since the last reseed (R217). -/
def State.reseedDue (s : State) : State :=
  if s.pk.rng.state = .ready then s.modRng (fun g => { g with reseeding := true }) else s

/-- A health test fails (R218): the generator's state is discarded, and D9 restarts. -/
def State.healthTest (s : State) (adaptive : Bool) : State :=
  match s.pk.rng.state with
  | .off | .error | .raw => s
  | _ =>
    let s := s.healthFail adaptive
    if s.pk.rng.stuck then s else s.domWants 9 .restart

/-- The PK_ page: reads. -/
def pkRead (s : State) (off : Nat) : DWord :=
  let g := s.pk.rng
  if off = 0x00 then
    let m := Kind.modular.units
    let n := Kind.ntt.units
    pk [(0, s.roles m (·.inService)), (3, min 1 (s.roles m (· == .spare))), (4, s.roles n (·.inService)),
      (8, s.roles m (· == .retired)), (12, s.roles n (· == .retired))]
  else if off = 0x08 then s.pk.replays
  else if off = 0x10 then s.pk.checkFail
  else if off = 0x18 then pk [(0, s.pk.imps.length), (8, s.pk.hwm.toNat)]
  else if 0x100 ≤ off ∧ off < 0x140 then pk (s.laneWord (0x140 + (off - 0x100) / 8))
  else if off = 0x200 then
    pk [(0, g.intervalMs.toNat), (16, g.reqLog2.toNat), (24, b2n g.reseed), (25, b2n g.restart), (28, b2n g.rawMode)]
  else if off = 0x208 then pk [(0, g.state.code), (4, g.pool), (16, b2n g.lastFail), (17, b2n (!g.reserve.isEmpty))]
  else if off = 0x210 then halves g.reseeds g.healthFails
  else if off = 0x218 then (if g.state = .raw then Config.rawSamples s.freeCount else 0)
  else 0

/-- The PK_ page: writes. -/
def pkWrite (s : State) (off : Nat) (q : WReq) : State := if off = 0x200 ∧ q.lo then s.rngCtrl q.x else s

/-- A read of all of PK_RNG_RAW takes the samples (R220). -/
def pkTake (s : State) (off : Nat) (lo hi : Bool) : State :=
  if off = 0x218 ∧ lo ∧ hi ∧ s.pk.rng.state = .raw then s.draw.2 else s

/-! Stipple's registers -/

/-- SP_STATUS.STATE. -/
def State.stippleState (s : State) : Nat :=
  let x := s.unit 0x00C
  if x.outOfService then 3
  else match x.role with
    | .off => 0
    | .working => 1
    | _ => 2

/-- The SP_ page. -/
def spRead (s : State) (off : Nat) : DWord :=
  let x := s.unit 0x00C
  match off with
  | 0x00 => pk [(0, s.stippleState), (3, b2n x.busy.isSome),
      (4, b2n (s.sq.tags.any (fun p => decide (p.2.phase = .suspended) && decide (kindOf p.2.desc.opcode = .stipple)))),
      (8, x.faults.toNat)]
  | 0x08 => s.sp.inBytes
  | 0x10 => s.sp.outBytes
  | 0x18 => halves s.sp.verifyFails s.sp.lengthFails
  | _ => 0

end Sys2Proof.Machine
end

