-- ==== Sys2Proof/Machine/Regs.lean ====
section
/-! DEFINITION. The register window and the register port: which page answers an offset, the checks of R408, the answer,
and the journal entry of a write (00_scope.md R8–R10, 14_protection.md R352–R358, 16_ports.md R406–R408). -/

namespace Sys2Proof.Machine

/-! The window -/

/-- Offset of a register of function `f`'s page (Table 2.1). -/
def fnPage (f off : Nat) : Nat := 0x400000 + f * 0x4000 + off

/-- FN_MB_STAT as it reads (R308). -/
def mbStatWord (s : State) (f : Nat) : DWord :=
  let st := s.mb.stat.get {} f
  let p := s.mb.fromBurin.get {} f
  pk [(0, b2n p.rx.isSome), (1, b2n st.vecEn), (16, st.vector.toNat), (32, p.ovr.toNat)]

/-- A function page: reads. The page of an UNBOUND function reads 0 (R28). -/
def pageRead (s : State) (f o : Nat) : DWord :=
  if (s.fn f).state = .unbound then 0
  else if o < 0x1000 then fnRead s f o
  else if o < 0x1040 then (s.path (.fnToBurin (BitVec.ofNat 10 f))).txRead (o - 0x1000)
  else if o < 0x1080 then (s.path (.burinToFn (BitVec.ofNat 10 f))).rxRead (o - 0x1040)
  else if o = 0x1080 then mbStatWord s f
  else fnRead s f o

/-- A function page: writes. Those to the page of an UNBOUND function have no effect (R28); a reset request of function 0
is one of the block (R39), which the debug master cannot assert (R355). -/
def pageWrite (s : State) (f o : Nat) (q : WReq) : State :=
  if (s.fn f).state = .unbound then s
  else if o = 0x08 ∧ f = 0 then (if q.lo && bit q.x 0 && decide (q.init ≠ debugId) then s.flrReq0 else s)
  else if o < 0x1000 then fnWrite s f o q
  else if o < 0x1040 then s.txWrite (.fnToBurin (BitVec.ofNat 10 f)) (o - 0x1000) q
  else if o < 0x1080 then s.rxWrite (.burinToFn (BitVec.ofNat 10 f)) (o - 0x1040) q
  else if o = 0x1080 then (if q.lo then s.mbStat f q.x else s)
  else fnWrite s f o q

/-- The 8-byte word of the register window at an offset. Offsets that hold no register read 0 (R9). -/
def regRead (s : State) (off : Nat) : DWord :=
  let o := off % 0x10000
  if 0x400000 ≤ off ∧ off < 0x1400000 then pageRead s ((off - 0x400000) / 0x4000) ((off - 0x400000) % 0x4000)
  else match off / 0x10000 with
    | 0x00 => if o = 0 then BitVec.ofNat 64 idVersion else 0
    | 0x01 => gcRead s o
    | 0x02 => ftRead s o
    | 0x03 => rtRead s o
    | 0x04 => scRead s o
    | 0x05 => stRead s o
    | 0x06 => clRead s o
    | 0x07 => dlRead s o
    | 0x08 => pkRead s o
    | 0x09 => spRead s o
    | 0x0A => pvRead s o
    | 0x0B => buRead s o
    | 0x0C => mbRead s o
    | 0x0D => dmRead s o
    | 0x0E => fcRead s o
    | 0x0F => if o < 0x8000 then arRead s o else tsRead s (o - 0x8000)
    | 0x10 => pwRead s o
    | 0x11 => dgRead s o
    | 0x12 => jnRead s o
    | _ => 0

/-- A write to the register window. Registers of access RO, and offsets that hold no register, ignore it (R9, R10). -/
def regWrite (s : State) (off : Nat) (q : WReq) : State :=
  let o := off % 0x10000
  if 0x400000 ≤ off ∧ off < 0x1400000 then pageWrite s ((off - 0x400000) / 0x4000) ((off - 0x400000) % 0x4000) q
  else match off / 0x10000 with
    | 0x01 => gcWrite s o q
    | 0x02 => ftWrite s o q
    | 0x03 => rtWrite s o q
    | 0x04 => scWrite s o q
    | 0x05 => stWrite s o q
    | 0x07 => dlWrite s o q
    | 0x08 => pkWrite s o q
    | 0x0A => pvWrite s o q
    | 0x0B => (if o = 0x8 then (buWrite s o q).bootPtrPhase else buWrite s o q)
    | 0x0C => mbWrite s o q
    | 0x0D => dmWrite s o q
    | 0x0E => fcWrite s o q
    | 0x0F => if o < 0x8000 then arWrite s o q else tsWrite s (o - 0x8000) q
    | 0x10 => if q.init = debugId ∧ o = 0x18 then s else pwWrite s o q
    | 0x11 => dgPageWrite s o q
    | 0x12 => jnWrite s o q
    | _ => s

/-- The side effects of a read that covers the halves `lo` and `hi` of a word (R407). -/
def regTake (s : State) (off : Nat) (lo hi : Bool) : State :=
  let o := off % 0x10000
  if 0x400000 ≤ off ∧ off < 0x1400000 then
    let f := (off - 0x400000) / 0x4000
    if (s.fn f).state = .unbound then s else fnTake s f ((off - 0x400000) % 0x4000) lo
  else match off / 0x10000 with
    | 0x04 => scTake s o lo hi
    | 0x05 => stTake s o hi
    | 0x08 => pkTake s o lo hi
    | 0x0B => buTake s o
    | 0x12 => jnTake s o lo
    | _ => s

/-- PW_POWER's offset. -/
def powerOff : Nat := 0x100048

/-- What a read measures first: PW_POWER.EST is a fresh estimate (log 22). -/
def State.measured (s : State) (off : Nat) : State := if off = powerOff then s.estimate else s

/-- A read of the register window: the word, and the state after its side effects. -/
def State.windowRead (s : State) (off : Nat) (lo hi : Bool) : DWord × State :=
  let s := s.measured off
  (regRead s off, regTake s off lo hi)

/-! Writes and their journal entries -/

/-- The halves that a write or read covers, of a word. -/
def covered (lo hi : Bool) (x : DWord) : DWord := halves (if lo then loHalf x else 0) (if hi then hiHalf x else 0)

/-- A GO written to the send block of a function's page (R303). -/
def goOf (off : Nat) (hi : Bool) (x : DWord) : Option MailBox :=
  if 0x400000 ≤ off ∧ off < 0x1400000 ∧ (off - 0x400000) % 0x4000 = 0x1038 ∧ hi ∧ bit x 32 then
    some (.fnToBurin (BitVec.ofNat 10 ((off - 0x400000) / 0x4000)))
  else none

/-- Registers of a function page whose writes the journal records (R357). -/
def fnJournalled (o : Nat) : Bool := [0x08, 0x10, 0x3008, 0x3010, 0x2000, 0x2008, 0x1080].contains o

/-- The journal records a write (R357). -/
def journalled (off : Nat) (hi : Bool) (init : BitVec 16) : Bool :=
  if init = burinId then decide (off / 0x10000 ≠ 0x0C ∧ off / 0x10000 ≠ 0x0D)
  else if init = debugId then true
  else if off < 0x400000 then !(decide (off = 0x120010) && hi)
  else decide (off < 0x1400000) && fnJournalled ((off - 0x400000) % 0x4000)

/-- One write as the journal sees it. -/
structure WLog where
  off : Nat
  be : BitVec 8
  lo : Bool
  hi : Bool
  init : BitVec 16
  world : Bool
  data : DWord

/-- The REG_WRITE entry of a write (R357, R358). `old`: the word before it. -/
def State.journalWrite (s : State) (w : WLog) (old : DWord) (ignored denied : Bool) : State :=
  if journalled w.off w.hi w.init then
    s.journal 0x01 (2 * b2n w.world + 4 * b2n ignored + 8 * b2n denied + 16 * b2n (w.lo && w.hi)) w.init
      (leBytes 4 w.off ++ [w.be] ++ zeros 3 ++ leBytes 8 (covered w.lo w.hi old).toNat ++
       leBytes 8 (covered w.lo w.hi w.data).toNat)
  else s

/-- The write changed nothing, whatever the reason (R358); a fault message it raised is no change. -/
def sameBut (before after : State) : Bool :=
  decide (({ after with fc := { after.fc with waiting := before.fc.waiting } } : State) = before)

/-- A write that sets EN of a stream port whose domain is held off (R120): it is recorded with IGNORED set. -/
def State.setsHeldPort (s : State) (off : Nat) (lo : Bool) (x : DWord) : Bool :=
  let p := (off - 0x50000) / 0x100
  decide (0x50000 ≤ off ∧ off < 0x50400 ∧ off % 0x100 = 0) && lo && bit x 0 && !(s.st.ports.get {} p).en && (s.dom (46 + p)).holdOff

/-- Carries a write out: its effect, then its journal entry. The entry of a write that resets the block is lost with the
journal. -/
def State.doWrite (s : State) (w : WLog) : State :=
  let old := regRead s w.off
  let x := halves (loHalf (if w.lo then w.data else old)) (hiHalf (if w.hi then w.data else old))
  let s' := regWrite s w.off { x := x, lo := w.lo, hi := w.hi, init := w.init, world := w.world, off := w.off }
  if s'.po.rpUp = s.po.rpUp then s'.journalWrite w old (sameBut s s' || s.setsHeldPort w.off w.lo w.data) false else s'

/-! The register port (R406–R409) -/

/-- An answer on `rp_rsp` (Table 16.10). -/
def State.rpAnswer (s : State) (data : DWord) (tag : BitVec 5) (error : Bool) : State :=
  ({ s with po := { s.po with rpOut := { rdata := data, tag := tag, error := error } :: s.po.rpOut } }).pushChan .rpRsp 1

/-- A request after `rp_up_o` has fallen: answered with ERROR until D4 is off (R409). -/
def State.portDown (s : State) (tag : BitVec 5) : State :=
  if (s.dom 4).state = .on then { s with po := { s.po with rpOut := { rdata := 0, tag := tag, error := true } :: s.po.rpOut } }
  else s

/-- PAGE_DENIED (R352, Table 13.4). -/
def State.pageDenied (s : State) (off : Nat) (q : PortReq) (write : Bool) : State :=
  s.raiseReg 0x009 0x14 off q.initiator.toNat q.world write

/-- Byte enables cover the lower or upper half (R407). -/
def beLo (be : BitVec 8) : Bool := decide (be = 0x0F ∨ be = 0xFF)
def beHi (be : BitVec 8) : Bool := decide (be = 0xF0 ∨ be = 0xFF)

/-- A write on the register port at an 8-byte offset (R408): parity, page owner, byte enables, then the page's own rules
(R306, R326, R327). -/
def State.portWrite (s : State) (off : Nat) (q : PortReq) : State :=
  let lo := beLo q.be
  let hi := beHi q.be
  let w : WLog := { off := off, be := q.be, lo := lo, hi := hi, init := q.initiator, world := q.world, data := q.wdata }
  let refuse (s' : State) (denied : Bool) : State := (s'.journalWrite w (regRead s off) true denied).rpAnswer 0 q.tag true
  if !s.po.rpUp then s.portDown q.tag
  else if !q.parityOk then s.rpAnswer 0 q.tag true
  else if !s.ownerPasses off q.initiator q.world true then refuse (s.pageDenied off q true) true
  else if !lo && !hi then refuse s false
  else if s.fc.lockdown || (s.fc.halted && decide (off / 0x10000 ≠ 0x0E)) then refuse s false
  else
    let err : Bool := match goOf off hi q.wdata with
      | some b => s.goRefused b
      | none => false
    let s' := s.doWrite w
    if s'.po.rpUp then s'.rpAnswer 0 q.tag err else s'

/-- A read on the register port at an 8-byte offset (R407, R408, R327). -/
def State.portRead (s : State) (off : Nat) (q : PortReq) : State :=
  let lo := beLo q.be
  let hi := beHi q.be
  if !s.po.rpUp then s.portDown q.tag
  else if !q.parityOk then s.rpAnswer 0 q.tag true
  else if !s.ownerPasses off q.initiator q.world true then (s.pageDenied off q false).rpAnswer 0 q.tag true
  else if !lo && !hi then s.rpAnswer 0 q.tag true
  else if s.fc.lockdown && decide (off / 0x10000 ≠ 0 ∧ off / 0x10000 ≠ 0x0E) then s.rpAnswer 0 q.tag true
  else
    let (x, s) := s.windowRead off lo hi
    s.rpAnswer (covered lo hi x) q.tag false

/-- A write by Burin at an 8-byte offset: it passes every page owner, and its result is not reported (R273, R306, R353). -/
def State.burinWrite (s : State) (off : Nat) (x : DWord) (lo hi : Bool) : State :=
  s.doWrite {
    off := off, be := if lo && hi then 0xFF else if lo then 0x0F else 0xF0, lo := lo, hi := hi, init := burinId, world := true,
    data := x }

/-- A write that reaches a register for Burin alone arrives as Burin's own access when it carries Burin's ID, else on the
register port. -/
def State.unitWrite (s : State) (off : Nat) (q : PortReq) : State :=
  if q.initiator = burinId then s.burinWrite off q.wdata (beLo q.be) (beHi q.be) else s.portWrite off q

end Sys2Proof.Machine
end

