-- ==== Sys2Proof/Machine/BurinRun.lean ====
section
/-! DEFINITION. Burin executing: the register window view, commit points, rollback, traps and their messages
(11_burin.md R273–R285), and the routine of an etched link (R294–R296). -/

namespace Sys2Proof.Machine

/-- Burin executes instructions: in RUN and not in WFE. -/
def State.burinRuns (s : State) : Bool := decide (s.bu.state = .run) && !s.bu.waiting && !s.fc.halted

/-! Commit points (R275, R276) -/

/-- A write of the outbound buffer reaches its register (R274, R276). -/
def State.releaseWrite (s : State) (w : Nat × DWord × Bool) : State :=
  let (off, x, pair) := w
  if pair then s.burinWrite off x true true
  else if off % 8 = 0 then s.burinWrite off x true false
  else s.burinWrite (off / 8 * 8) (x <<< 32) false true

/-- Takes a commit point: state saved, outbound buffer released in order, logs cleared (R276). It costs 2 cycles (R275).
Logged loads that a re-execution has not met yet stay (R277; log 60). -/
def State.commit (s : State) : State :=
  let b := s.bu.settle
  let s := s.modBu (fun _ => { b with
    saved := b.ctx, savedEvt := b.evt, evtNew := 0, savedLow := b.lowHalf, savedHalf := b.loadHalf, outb := [], undo := [], readLog := [],
    mismatched := false, commitDue := false, cycle := b.cycle + 2 })
  b.outb.foldl (fun s w => s.releaseWrite w) s

/-- The boundary allows a commit point: no load before its delay slot, no multiply in flight (R275). -/
def Burin.mayCommit (b : Burin) : Bool :=
  b.loads.all (·.slotDone) && b.products.all (fun q => decide (q.issued + 4 ≤ b.cycle))

/-- A commit point is due: asked for, or a log or buffer is full (R275; the read log: log 60). -/
def Burin.due (b : Burin) (ask : Bool) : Bool :=
  ask || b.commitDue || decide (2048 ≤ b.undo.length) || decide (256 ≤ b.outb.length) || decide (256 ≤ b.readLog.length)

/-- An instruction boundary: a commit point that is due is taken, or waits for a boundary that allows it (R275). -/
def State.boundary (s : State) (ask : Bool) : State :=
  if !s.bu.due ask then s
  else if s.bu.mayCommit then s.commit
  else s.modBu (fun b => { b with commitDue := true })

/-- Time passes until every product has landed. -/
def Burin.stall (b : Burin) : Burin :=
  ({ b with cycle := b.products.foldl (fun m q => max m (q.issued + 4)) b.cycle } : Burin).settle

/-! Traps (R285) -/

/-- An opcode of the etched command opcodes (R294). -/
def isEtched (op : Nat) : Bool := decide (0xE00 ≤ op ∧ op < 0xF00)

/-- The etched link that firmware is running ends, since its routine trapped: OVERLOAD for BUDGET, else UNSUPPORTED
(R296). -/
def State.routineEnds (s : State) (cause : Nat) : State :=
  match (s.unit 0x003).busy with
  | none => s
  | some t =>
    match s.tag? t with
    | none => s
    | some e =>
      if isEtched e.desc.opcode.toNat then s.finish t (if cause = 10 then .overload else .unsupported) 0 0 else s

/-- A trap and its message: BU_ROUTINE_TRAP in routine code, which also ends the link it runs for, BU_TRAP otherwise; a
trap while INTRAP is 1 halts Burin. A trap of the fetch itself carries its access (R333). -/
def State.buTraps (s : State) (cause : Nat) (fetch : Bool := false) : State :=
  let c := s.bu.ctx
  let addr := formB c.pc.toNat cause
  let routine := inArea c.pc || c.inRoutine
  let say (k : Nat) (s : State) : State :=
    if fetch then s.raiseFetch 0x003 k addr burinId c.pc else s.raise 0x003 k addr
  let s := s.modBu (fun b => b.takeTrap cause)
  let s := if c.inTrap then say 0x37 s.burinHalts else (say (if routine then 0x35 else 0x34) s).boundary false
  if routine then s.routineEnds cause else s

/-- A routine that firmware runs for a link traps at `pc` (R285, R296). -/
def State.routineTraps (s : State) (pc : Word) (cause : Nat) : State :=
  let halts := s.bu.ctx.inTrap
  let s := s.modBu (fun b => ({ b with ctx := { b.ctx with pc := pc } } : Burin).takeTrap cause)
  if halts then s.burinHalts.raise 0x003 0x37 (formB pc.toNat cause) else s.raise 0x003 0x35 (formB pc.toNat cause)

/-! The register window view (R273, R274, R276, R277) -/

/-- An 8-byte word that holds two 32-bit registers. -/
def pair32 (off : Nat) : Bool :=
  if 0x400000 ≤ off then
    let o := (off - 0x400000) % 0x4000
    decide (o = 0x3018) || decide (0x1000 ≤ o ∧ o < 0x1080)
  else decide (off = 0x120010) || decide (0xC0400 ≤ off ∧ off < 0xC0480) || decide (0xE0400 ≤ off ∧ off < 0xE0600) || decide (0xF8100 ≤ off ∧ off < 0xF8140) || decide (0xC0040 ≤ off ∧ off < 0xC01C0)

/-- A 64-bit register that accepts writes. -/
def wide64 (off : Nat) : Bool :=
  if 0x400000 ≤ off then [0x0, 0x3008, 0x3010, 0x1080].contains ((off - 0x400000) % 0x4000)
  else if 0xD0000 ≤ off ∧ off < 0xD0800 then [0x08, 0x10].contains (off % 0x40)
  else
    let mgmt : List Nat := [0x20030, 0x30010, 0x40018, 0x51010, 0x51018, 0x51020, 0x52010, 0x52018, 0x52020, 0x52028,
      0x70018, 0xA0000, 0xA0008, 0xA0020, 0xB0008,
      0xB0110, 0xF0010, 0xF0018, 0xF0108, 0x120000]
    mgmt.contains off

/-- A load's value from the window: the upper word of a 64-bit register is the one read with its lower word (R274). -/
def State.viewLoad (s : State) (off : Nat) : Word × State :=
  let o := off / 8 * 8
  if off % 8 = 0 then
    let (x, s) := s.windowRead o true false
    (loHalf x, s.modBu (fun b => { b with loadHalf := if pair32 o then none else some (off + 4, hiHalf x) }))
  else
    match s.bu.loadHalf with
    | some (a, v) =>
      if a = off then
        let s := if o / 0x10000 = 0x0B then s else regTake s o (decide (o = 0x80218)) true
        (v, s.modBu (fun b => { b with loadHalf := none }))
      else
        let (x, s) := s.windowRead o false true
        (hiHalf x, s)
    | none =>
      let (x, s) := s.windowRead o false true
      (hiHalf x, s)

/-- A store to the window enters the outbound buffer; the lower word of a 64-bit register waits for its upper word
(R274, R276). -/
def Burin.viewStore (b : Burin) (off : Nat) (v : Word) : Burin :=
  let o := off / 8 * 8
  let single : Burin := { b with outb := b.outb ++ [(off, v.setWidth 64, false)] }
  if !wide64 o then single
  else if off % 8 = 0 then { b with lowHalf := some (off, v) }
  else
    match b.lowHalf with
    | some (a, l) => if a = o then { b with lowHalf := none, outb := b.outb ++ [(o, halves l v, true)] } else single
    | none => single

/-! Instructions -/

/-- EVT & EVT_MASK is non-zero (R280). -/
def Burin.woken (b : Burin) : Bool := decide (b.evt &&& b.ctx.evtMask ≠ 0)

/-- An instruction retires: results, trace of a taken branch, entry into WFE, commit point (R275, R280, R356). -/
def State.retireOut (s : State) (len : Nat) (o : BuOut) : State :=
  match o.nxt with
  | .trap cause => s.buTraps cause
  | n =>
    let s := (s.modBu (fun b => b.retire len o)).evtSync
    let s := match n with
      | .goto t => s.traceRec 1 (halves t (BitVec.ofNat 32 s.bu.cycle))
      | _ => s
    if o.isWfe then
      let s := (s.modBu (fun b => b.stall)).commit
      s.modBu (fun b => { b with waiting := !b.woken })
    else s.boundary o.isCommit

/-- The re-execution loads something else than was logged: Burin halts (R278). -/
def State.secondMismatch (s : State) : State :=
  s.burinHalts.raise 0x003 0x31 (formB s.bu.ctx.pc.toNat s.bu.ctx.cause.toNat)

/-- A load from the window: a commit point first while the outbound buffer holds a write (R275); the read log in a
re-execution (R277). In a delay slot the commit point waits (log 60). -/
def State.execLoad (s : State) (rd : BitVec 5) (off len : Nat) (o : BuOut) : State :=
  let s := if s.bu.outb.isEmpty then s
    else if s.bu.loads.isEmpty then (s.modBu (fun b => b.stall)).commit
    else s.modBu (fun b => { b with commitDue := true })
  let take (v : Word) (s : State) : State :=
    (s.modBu (fun b => { b with readLog := b.readLog ++ [(off, v, b.loadHalf)] })).retireOut len
      { o with ctx := s.bu.ctx, load := some (rd.toNat, v) }
  match s.bu.replay with
  | (a, v, h) :: r =>
    if a = off then take v (s.modBu (fun b => { b with replay := r, loadHalf := h })) else s.secondMismatch
  | [] =>
    let (v, s) := s.viewLoad off
    take v s

/-- Burin executes one instruction at its program counter (R279–R287); after a rollback it re-executes (R277). -/
def State.burinStep (s : State) (op : BuOp) : State :=
  let s := s.rolledBack
  if !s.burinRuns then s
  else
    let s := s.evtSync.modBu (fun b => b.settle)
    if !fetches s.bu.ctx.pc op.len then s.buTraps 3 true
    else
      let o := s.bu.op op
      match o.win with
      | some (.load rd off) => s.execLoad rd off op.len o
      | some (.store off v) => (s.modBu (fun b => b.viewStore off v)).retireOut op.len o
      | none => s.retireOut op.len o

/-- A reserved encoding, or a non-zero zero field, traps with ILLEGAL (R286). -/
def State.burinIllegal (s : State) (h0 h1 : BitVec 16) : State :=
  let s := s.rolledBack
  if s.burinRuns && (decodeBu h0 h1).isNone then
    let s := s.evtSync.modBu (fun b => b.settle)
    if fetches s.bu.ctx.pc (buLen h0) then s.buTraps 1 else s.buTraps 3 true
  else s

/-- A load lands once its delay slot has passed (R281). -/
def State.loadLands (s : State) : State := if s.burinRuns then (s.modBu (fun b => b.settle)).boundary false else s

/-- The oldest product in flight lands: cycle t + 3 has ended (R282). -/
def State.productLands (s : State) : State :=
  match s.bu.products with
  | [] => s
  | q :: _ =>
    if s.burinRuns then (s.modBu (fun b => ({ b with cycle := max b.cycle (q.issued + 4) } : Burin).settle)).boundary false else s

/-- 10 µs have passed since the last commit point (R275); the timer does not run in WFE (R280). -/
def State.commitTimer (s : State) : State :=
  let s := s.rolledBack
  if s.burinRuns then s.boundary true else s

/-- An event ends WFE (R280). -/
def State.wfeWake (s : State) : State :=
  let s := s.rolledBack
  if decide (s.bu.state = .run) && s.bu.waiting && !s.fc.halted then
    let s := s.evtSync
    if s.bu.woken then s.modBu (fun b => { b with waiting := false }) else s
  else s

/-- A mismatch of the two cores: back to the commit point in STATE ROLLBACK, or a halt at the second (R277, R278). It is
one of the checks of an injection armed for it (R335, R336). -/
def State.lockstepMismatch (s : State) : State :=
  if (s.bu.state ≠ .run ∧ s.bu.state ≠ .rollback) ∨ s.fc.halted then s
  else if s.bu.mismatched then (s.armedCheck 0x003 0x30).secondMismatch
  else
    let s := s.armedCheck 0x003 0x30
    let b := s.bu
    let addr := formB b.ctx.pc.toNat b.ctx.cause.toNat
    let s := s.modBu (fun b => { b with
      state := .rollback, ctx := b.saved, evt := b.savedEvt ||| b.evtNew, loads := [], products := [], outb := [], undo := [],
      lowHalf := b.savedLow, loadHalf := b.savedHalf, replay := b.readLog ++ b.replay, readLog := [], mismatched := true, commitDue := false,
      rollbacks := satAdd b.rollbacks 1,
      dmem := b.undo.foldl (fun m p => m.writeBytes p.1 (leBytes 4 p.2.toNat)) b.dmem })
    let s := match (s.unit 0x003).busy with
      | some t => (match s.tag? t with
          | some e => s.setTag t { e with replayed := true }
          | none => s)
      | none => s
    s.raise 0x003 0x30 addr

/-! The routine of an etched link (R294–R296) -/

/-- Cycles of the 50 µs budget at 800 MHz (R296). -/
def routineCycles : Nat := 40000

/-- A routine ran to its return, or trapped with a cause at an address. -/
inductive RoutineEnd where
  | returned
  | trapped (cause : Nat)
  deriving DecidableEq, Repr

/-- Executes routine code until it returns, traps, or exceeds its budget. -/
def routineRun (fuel start : Nat) (b : Burin) : RoutineEnd × Burin :=
  match fuel with
  | 0 => (.trapped 10, b)
  | n + 1 =>
    let b := b.settle
    let pc := b.ctx.pc.toNat
    if routineCycles ≤ b.cycle - start then (.trapped 10, b)
    else
      let h (a : Nat) : BitVec 16 := BitVec.ofNat 16 (leNat (b.imem.readBytes a 2))
      if !fetches b.ctx.pc (buLen (h pc)) then (.trapped 3, b)
      else match decodeBu (h pc) (h (pc + 2)) with
      | none => (.trapped 1, b)
      | some op =>
        let o := b.op op
        match o.nxt with
        | .trap c => (.trapped c, b)
        | .goto _ =>
          let b := b.retire op.len o
          if inArea b.ctx.pc then routineRun n start b else (.returned, { b with ctx := b.ctx.landLoads b.loads, loads := [] })
        | .seq =>
          if o.isWfe && !b.woken then (.trapped 10, b)
          else
            let b := b.retire op.len o
            if inArea b.ctx.pc then routineRun n start b else (.trapped 3, b)

/-- Burin as the routine of a link finds it (Table 11.15). -/
def Burin.routineEntry (b : Burin) (entry : Nat) (param input : List Byte) (outLen aux : Nat) : Burin :=
  let b := b.stall
  let m := Memory.writeBytes (b.dmem.filter (fun p => decide (p.1 < 0x34000))) 0x34000 param
  let set (c : BuCtx) (r v : Nat) : BuCtx := c.set (BitVec.ofNat 5 r) (BitVec.ofNat 32 v)
  let c : BuCtx := { b.ctx with
    regs := [], dsp := 0x40000, mlo := 0, mhi := 0, inRoutine := true, stack := 0x100000 :: b.ctx.stack.take 63,
    pc := BitVec.ofNat 32 entry }
  let c := [(1, 0x34000), (2, param.length), (3, 0x35000), (4, input.length), (5, 0x39000), (6, outLen), (7, aux)].foldl
    (fun (c : BuCtx) (p : Nat × Nat) => set c p.1 p.2) c
  { b with ctx := c, loads := [], products := [], dmem := m.writeBytes 0x35000 input }

/-- The statuses a routine may return (Table 11.15). -/
def routineStatus (n : Nat) : Option Status :=
  match n with
  | 0x01 => some .authFail
  | 0x04 => some .lenMismatch
  | 0x08 => some .unsupported
  | 0x0B => some .verifyFail
  | _ => none

/-- The dispatch entry of an etched opcode (R294). -/
def State.dispatchOf (s : State) (op : Nat) : Word := s.bu.etch.dispatch.get 0 (op - 0xE00)

/-- Runs the routine of an etched link (R295, R296). -/
def State.routine (s : State) (l : Link) (input : List Byte) : Ended × State :=
  let entry := routineLo + (s.dispatchOf l.op).toNat / 2 % 0x4000 * 2
  let (e, b) := routineRun (routineCycles + 1) s.bu.stall.cycle
    (s.bu.routineEntry entry (l.param.take l.paramLen) input l.outLen l.aux)
  let s := s.modBu (fun x => { x with dmem := b.dmem, cycle := b.cycle })
  let g (i : Nat) : Word := b.ctx.get (BitVec.ofNat 5 i)
  match e with
  | .trapped cause =>
    (.fail (if cause = 10 then .overload else .unsupported), s.routineTraps b.ctx.pc cause)
  | .returned =>
    if l.outLen < (g 2).toNat then (.fail .unsupported, s)
    else if g 1 = 0 then (.good (b.dmem.readBytes 0x39000 (g 2).toNat) (halves (g 3) (g 4)), s)
    else (.fail ((routineStatus (g 1).toNat).getD .unsupported), s)

/-- An etched link (R294–R296); UNSUPPORTED while OPEN is 1 (R298). -/
def etchedPlan (s : State) (l : Link) : Plan where
  paramRead := l.paramLen
  unsupported := s.bu.etch.isOpen || !bit ((s.dispatchOf l.op).setWidth 64) 0 || decide (l.slot ≠ 0) || l.optBad 0 || decide (16384 < l.n) ||
    decide (16384 < l.outLen) || decide (4096 < l.paramLen)
  body := fun s _ _ _ x => if s.bu.state = .run then s.routine l x else (.later, s)

/-- A running routine exceeds 50 µs: BUDGET, and its link completes with OVERLOAD (R296). Where it stood is a free value
(log 25). -/
def State.routineBudget (s : State) (t : Nat) : State :=
  match s.tag? t with
  | some e =>
    if e.phase = .running 0x003 ∧ isEtched e.desc.opcode.toNat ∧ s.bu.state = .run ∧ s.fc.halted = false then
      let (i, s) := s.draw
      (s.routineTraps (Config.routinePc i) 10).finish t .overload 0 0
    else s
  | none => s

end Sys2Proof.Machine
end

