-- ==== Sys2Proof/Machine/Tap.lean ====
section
/-! DEFINITION. The test access port and the debug master (14_protection.md R353–R356, 16_ports.md R420). -/

namespace Sys2Proof.Machine

/-- Instruction codes (Table 16.14). -/
def tapIdcodeIr : BitVec 5 := 0b00010
def tapEnableIr : BitVec 5 := 0b10000
def tapAccessIr : BitVec 5 := 0b10001
def tapBypassIr : BitVec 5 := 0b11111

/-- IDCODE (R420). -/
def idcode (mfr : BitVec 11) : BitVec 128 := BitVec.ofNat 128 (0x2 * 2 ^ 28 + 0xF109 * 2 ^ 12 + mfr.toNat * 2 + 1)

/-- An instruction is loaded and its data register captures `dr`. -/
def State.tapSelect (s : State) (ir : BitVec 5) (dr : BitVec 128) : State := { s with po := { s.po with tapIr := ir, tapDr := dr } }

/-- IDCODE. -/
def State.tapIdcode (s : State) : State := s.tapSelect tapIdcodeIr (idcode s.po.ident.mfr)

/-- BYPASS: the one-bit register captures 0. -/
def State.tapBypass (s : State) : State := s.tapSelect tapBypassIr 0

/-- The TAP's own reset selects IDCODE and reaches nothing else (R355, R420). -/
def State.tapReset (s : State) : State := { s with po := { s.po with tapIr := tapIdcodeIr } }

/-- DBG_ENABLE: Update-DR writes DG_CTRL.MASTER_ACTIVE. -/
def State.dbgEnable (s : State) (on : Bool) : State :=
  let s := s.tapSelect tapEnableIr (BitVec.ofNat 128 (b2n on))
  if s.debugUp then s.modPr (fun p => { p with master := on }) else s

/-- The access has ended: DATA and STATUS as the next capture shows them (Table 16.15). -/
def State.dbgDone (s : State) (dr : BitVec 128) (data : DWord) (status : BitVec 2) : State :=
  { s with po := { s.po with
    tapStatus := status,
    tapDr := BitVec.ofNat 128 (data.toNat + dr.toNat / 2 ^ 64 % 2 ^ 60 * 2 ^ 64 + status.toNat * 2 ^ 124) } }

/-- A debug register access under initiator ID 0xFFFF in the secure world (R353–R355): the port's checks, without its
answer. -/
def State.dbgRegister (s : State) (dr : BitVec 128) (addr : Nat) (write wide : Bool) (data : DWord) : State :=
  let off := addr / 8 * 8
  let lo := wide || decide (addr % 8 < 4)
  let hi := wide || decide (4 ≤ addr % 8)
  let be : BitVec 8 := if wide then 0xFF else if lo then 0x0F else 0xF0
  let x : DWord := if wide || lo then data else data <<< 32
  let w : WLog := { off := off, be := be, lo := lo, hi := hi, init := debugId, world := true, data := x }
  let shut := s.fc.lockdown || (s.fc.halted && decide (off / 0x10000 ≠ 0x0E))
  if !s.ownerPasses off debugId true false then
    let s := s.raiseReg 0x009 0x14 off debugId.toNat true write
    (if write then s.journalWrite w (regRead s off) true true else s).dbgDone dr 0 2
  else if write then
    let refused : Bool := match goOf off hi x with
      | some b => s.goRefused b
      | none => false
    if shut then (s.journalWrite w (regRead s off) true false).dbgDone dr 0 2
    else (s.doWrite w).dbgDone dr data (if refused then 2 else 1)
  else if s.fc.lockdown && decide (off / 0x10000 ≠ 0 ∧ off / 0x10000 ≠ 0x0E) then s.dbgDone dr 0 2
  else
    let (v, s) := s.windowRead off lo hi
    s.dbgDone dr (if wide then v else if lo then (loHalf v).setWidth 64 else (hiHalf v).setWidth 64) 1

/-- An access overlaps a locked entry (R354). -/
def State.lockedOverlap (s : State) (addr len : Nat) : Bool :=
  s.pr.regions.any (fun p => p.2.valid && p.2.lock && decide (p.2.start.toNat * 64 < addr + len) &&
    decide (addr < p.2.last.toNat * 64 + 64))

/-- DEBUG_DENIED with the address in form A (R354). -/
def State.debugDenied (s : State) (addr : Nat) (write : Bool) : State :=
  s.raiseFabric (secSource (s.po.portB addr)) 0x13 s.pr.dgFn.toNat addr write

/-- A debug fabric access (R347, R354): 8 bytes under DG_CTRL.FUNCTION. `answer`: what the host returns to a read. No write
carries the ID of a function that has been reset and not enabled since (R43; log 126). -/
def State.dbgFabric (s : State) (dr : BitVec 128) (addr : Nat) (write : Bool) (data answer : DWord) : State :=
  let a := addr / 8 * 8
  let fn := s.pr.dgFn.toNat
  let s := s.answered (· == .debug)
  if write && (s.fn fn).quiet then s.dbgDone dr 0 2
  else if !s.testLife && s.lockedOverlap a 8 then (s.debugDenied a write).dbgDone dr 0 2
  else
    let (ok, s) := if write then s.fabWrite .debug fn a (leBytes 8 data.toNat) false else s.fabRead .debug fn a 8 false
    if ok then s.dbgDone dr (if write then data else answer) 1 else (s.debugDenied a write).dbgDone dr 0 2

/-- DBG_ACCESS: Update-DR starts the access while MASTER_ACTIVE is 1 and STATUS is not busy (R420). -/
def State.dbgAccess (s : State) (dr : BitVec 128) (answer : DWord) : State :=
  let s : State := { s with po := { s.po with tapIr := tapAccessIr } }
  if !s.pr.master || !s.debugUp || decide (s.po.tapStatus = 3) then s
  else
    let x := dr.toNat
    let data : DWord := BitVec.ofNat 64 x
    let addr := x / 2 ^ 64 % 2 ^ 57
    let write := dr.getLsbD 121
    if dr.getLsbD 122 then s.dbgFabric dr addr write data answer
    else s.dbgRegister dr (addr % 2 ^ 25) write (dr.getLsbD 123) data

end Sys2Proof.Machine
end

