-- ==== Sys2Proof/Machine/Mgmt.lean ====
section
/-! DEFINITION. The management opcodes that run on Burin: ETCH_LOAD, ETCH_CLEAR, PLATE_MARK, PLATE_KEYS
(11_burin.md R297–R300, 14_protection.md R372–R375). -/

namespace Sys2Proof.Machine

/-- The work of a management link: it waits until Burin is in RUN (R344). -/
def onBurin (f : State → List Byte → Ended × State) (s : State) (x : List Byte) : Ended × State :=
  if s.bu.state = .run then f s x else (.later, s)

/-! The etch opcodes (Table 11.16) -/

/-- The registered HSS key that a bundle names, when it has verify permission (R297, Table 11.16). -/
def State.etchKey (s : State) (slot : Nat) : Option (List Byte) :=
  if slot < 16 ∨ 256 ≤ slot then none
  else
    match s.authEnt slot with
    | some e =>
      if e.attr.binding = 0x26 ∧ e.attr.perms.getLsbD permVerify then some (slotPublic e.attr e.area e.body) else none
    | none => none

/-- LOCK or OPEN is set. -/
def State.etchShut (s : State) : Bool := s.bu.etch.lock || s.bu.etch.isOpen

/-- ETCH_LOAD of a bundle: key and life-cycle checks, length, signature, validity; a failure leaves the old state. -/
def State.etchLoad (s : State) (b : List Byte) : Ended × State :=
  let x := bundleOf b
  match s.etchKey x.slot with
  | none => (.fail .keyDenied, s)
  | some pub =>
    let st := s.bu.etchLoaded x
    if !bit (BitVec.ofNat 64 x.lcMask) (min s.ts.lcs.toNat 4) then (.fail .keyDenied, s)
    else if b.length ≠ bundleLen b then (.fail .lenMismatch, s)
    else if bundleHeaderOk b && st.etch.valid && hssVerify pub x.signed x.sig then
      (.good [] 0, s.modBu (fun _ => st.measured))
    else (.fail .verifyFail, s)

/-- ETCH_LOAD. -/
def etchLoadPlan (s0 : State) (l : Link) : Plan where
  unsupported := l.optBad 0 || decide (l.slot ≠ 0) || decide (131072 < l.n)
  denied := fun _ => s0.etchShut
  badLen := fun _ => !l.paramIs 0 || decide (l.n < 64)
  body := fun s _ _ _ x => onBurin State.etchLoad s x

/-- ETCH_CLEAR. -/
def etchClearPlan (s0 : State) (l : Link) : Plan where
  unsupported := l.optBad 0 || decide (l.slot ≠ 0) || decide (l.n ≠ 0)
  denied := fun _ => s0.etchShut
  badLen := fun _ => !l.paramIs 0
  body := fun s _ _ _ x => onBurin (fun s _ => (.good [] 0, s.modBu Burin.etchClear)) s x

/-! The plate mark (R372–R375) -/

/-- The head of a CBOR item in the deterministic encoding (R373). -/
def cborHead (major n : Nat) : List Byte :=
  let h (a : Nat) : Byte := BitVec.ofNat 8 (major * 32 + a)
  if n < 24 then [h n]
  else if n < 256 then h 24 :: beBytes 1 n
  else if n < 65536 then h 25 :: beBytes 2 n
  else if n < 2 ^ 32 then h 26 :: beBytes 4 n
  else h 27 :: beBytes 8 n

/-- CBOR uint, bstr, array. -/
def cborUint (n : Nat) : List Byte := cborHead 0 n
def cborBytes (b : List Byte) : List Byte := cborHead 2 b.length ++ b
def cborArray (l : List (List Byte)) : List Byte := cborHead 4 l.length ++ l.flatten

/-- A region table entry in the configuration image. -/
def Region.image (r : Region) : List Byte :=
  if r.valid then
    leBytes 8 (r.start.toNat * 64) ++ leBytes 8 (r.last.toNat * 64) ++
    leBytes 4 (r.fnMatch.toNat + r.fnMask.toNat * 2 ^ 10 + b2n r.read * 2 ^ 20 + b2n r.write * 2 ^ 21 + 2 ^ 22 + b2n r.lock * 2 ^ 23) ++
    zeros 12
  else zeros 32

/-- The configuration image of Table 14.9. -/
def State.configImage (s : State) : List Byte :=
  ((List.range 256).map (fun i => (s.pr.regions.get {} i).image)).flatten ++
  ((List.range 1044).map (fun i => leBytes 8 (s.owner i).word.toNat)).flatten ++
  ((List.range 16).map (fun i => leBytes 4 (s.lineWord i))).flatten ++
  leBytes 4 s.fc.ctrlWord.toNat ++
  ((List.range 7).map (fun i => leBytes 4 (srcWord s i).toNat)).flatten ++
  leBytes 8 (pvRead s 0x00).toNat ++ leBytes 8 (pvRead s 0x08).toNat ++ leBytes 8 s.bu.ptrWord.toNat ++
  leBytes 4 s.bu.etch.ctrlWord.toNat ++ leBytes 4 (jnRead s 0x08).toNat ++ leBytes 8 (jnRead s 0x00).toNat ++
  leBytes 4 s.fx.numVf.toNat ++ ((List.range 1024).map (fun f => leBytes 4 (s.fn f).entry.attrWord)).flatten

/-- Source numbers of the retired units, ascending. -/
def State.retiredList (s : State) : List Nat := (List.range 0x400).filter (fun n => s.fc.retired.contains n)

/-- FLAGS (Table 14.8). -/
def State.markFlags (s : State) : Nat :=
  b2n s.bu.unsigned + 2 * b2n s.vt.fresh + 4 * b2n s.fc.injUnlock + 8 * b2n s.ts.erased

/-- The claims map (Table 14.8). -/
def State.claims (s : State) (nonce : List Byte) : List Byte :=
  let vals : List (List Byte) := [
    cborBytes nonce, cborBytes (identityBytes s.po.ident), cborUint idVersion, cborBytes (fit 48 s.bu.fwMeas),
    cborUint s.bu.fwVer.toNat, cborBytes (fit 48 s.bu.etch.meas), cborBytes (sha384 s.configImage),
    cborUint (min s.ts.lcs.toNat 4), cborUint s.d0.bootCount.toNat, cborArray (s.retiredList.map cborUint),
    cborUint s.po.tm.toNat, cborUint s.markFlags]
  cborHead 5 12 ++ (vals.zipIdx.map (fun p => cborHead 1 (70000 + p.2) ++ p.1)).flatten

/-- Protected headers of the body and of the signers (R374). -/
def markBody : List Byte := [0xA1, 0x03, 0x18, 0x3D]
def markSigner (pq : Bool) : List Byte := [0xA1, 0x01, 0x38, if pq then 0x30 else 0x22]

/-- The Sig_structure (R374). -/
def sigStructure (pq : Bool) (payload : List Byte) : List Byte :=
  cborArray [cborHead 3 9 ++ [0x53, 0x69, 0x67, 0x6E, 0x61, 0x74, 0x75, 0x72, 0x65],
    cborBytes markBody, cborBytes (markSigner pq), cborBytes [], cborBytes payload]

/-- One COSE_Signature (R374). -/
def coseSignature (pq : Bool) (sig : List Byte) : List Byte :=
  cborArray [cborBytes (markSigner pq), [0xA1, 0x04, 0x41, if pq then 0x06 else 0x05], cborBytes sig]

/-- The COSE_Sign structure (R374, Table 14.10). -/
def coseSign (payload ec pq : List Byte) : List Byte :=
  [0xD8, 0x62] ++ cborArray [cborBytes markBody, [0xA0], cborBytes payload,
    cborArray [coseSignature false ec, coseSignature true pq]]

/-- Private keys of slots 5 and 6 (Table 10.11). -/
def State.markScalar (s : State) : Nat := scalarOf curveP384 (vaultExpand s.vt.ur "Y9-MARK-EC" 0 56)
def State.markSeed (s : State) : List Byte := vaultExpand s.vt.ur "Y9-MARK-PQ" 0 32

/-- A signature of the mark is verified before release; the second failure ends the link (R204, R206, R372; log 61). -/
def markReleased (l : Link) : Bool := decide (l.data.checkFails < 2)

/-- PLATE_MARK: claims, both signatures, the structure. -/
def State.plateMark (s : State) (l : Link) (nonce : List Byte) : Ended × State :=
  let payload := s.claims nonce
  match s.requests [keygenBytes 0x02 + 8 + curveP384.len, 32] with
  | (.wait, s) => (.later, s)
  | (.fail, s) => (.fail .entropyFail, s)
  | (.got rnd, s) =>
    let ec := curveP384.sign s.markScalar (scalarOf curveP384 (rnd.take (keygenBytes 0x02))) (sha384 (sigStructure false payload))
    let pq := dsaSign 0x39 s.markSeed (rnd.drop (rnd.length - 32)) [] (sigStructure true payload)
    match ec, pq with
    | some a, some (b, _) =>
      if markReleased l then (.good (coseSign payload a b) s.po.tm, s) else (.fail .verifyFail, s)
    | _, _ => (.fail .verifyFail, s)

/-- PLATE_MARK. -/
def plateMarkPlan (s0 : State) (l : Link) : Plan where
  unsupported := l.optBad 0 || decide (l.slot ≠ 0) || decide (64 < l.n)
  denied := fun _ => s0.vt.ur.isEmpty
  badLen := fun _ => !l.paramIs 0 || decide (l.n < 8)
  out := fun _ => (coseSign (s0.claims (zeros l.n)) (zeros 96) (zeros 3309)).length
  body := fun s _ _ _ x => onBurin (fun s x => s.plateMark l x) s x

/-- PLATE_KEYS: the public halves of slots 5 and 6. -/
def plateKeysPlan (s0 : State) (l : Link) : Plan where
  unsupported := l.optBad 0 || decide (l.slot ≠ 0) || decide (l.n ≠ 0)
  denied := fun _ => s0.vt.ur.isEmpty
  badLen := fun _ => !l.paramIs 0
  out := fun _ => 2049
  body := fun s _ _ _ x => onBurin (fun s _ =>
    (.good (publicOf 0x02 (beBytes 48 s.markScalar) ++ publicOf 0x39 s.markSeed) 0, s)) s x

end Sys2Proof.Machine
end

