-- ==== Sys2Proof/Machine/Operands.lean ====
section
/-! DEFINITION. The operand forms of the commands: which half of a word a register write of a named register covers, and
the fields that a command's name fixes (16_ports.md R406, R407). -/

namespace Sys2Proof.Machine

/-- Byte enables that R407 allows. -/
def beOk (be : BitVec 8) : Bool := beLo be || beHi be

end Sys2Proof.Machine

namespace Sys2Proof

/-- The request with a field of its write data forced: the command names the operation. -/
def PortReq.force (q : PortReq) (lo n v : Nat) : PortReq :=
  { q with wdata := (q.wdata &&& ~~~(BitVec.ofNat 64 ((2 ^ n - 1) * 2 ^ lo))) ||| BitVec.ofNat 64 (v * 2 ^ lo) }

/-- The access covers the 32-bit register in the lower half of its word; byte enables outside R407 stay as they are. -/
def PortReq.lower (q : PortReq) : PortReq := if Machine.beOk q.be then { q with be := 0x0F } else q

/-- The access covers the 32-bit register in the upper half of its word. -/
def PortReq.upper (q : PortReq) : PortReq := if Machine.beOk q.be then { q with be := 0xF0 } else q

/-- The access covers the whole 64-bit register. -/
def PortReq.whole (q : PortReq) : PortReq := if Machine.beOk q.be then { q with be := 0xFF } else q

/-- A field of `n` bits from bit `lo` keeps its value when that is no defined code, and else holds `v`: the command names a
write of an undefined code. -/
def PortReq.undefinedOp (q : PortReq) (lo n v : Nat) (isDefined : Nat → Bool) : PortReq :=
  if isDefined (q.wdata.toNat / 2 ^ lo % 2 ^ n) then q.force lo n v else q

/-- 32-bit registers at 4-byte steps: register `n`'s half of its word. -/
def PortReq.half (q : PortReq) (n : Nat) : PortReq := if n % 2 = 0 then q.lower else q.upper

end Sys2Proof

namespace Sys2Proof.Machine

/-- A register of the page of a lower 32-bit register, its command code forced. -/
def State.command (s : State) (off lo n v : Nat) (q : PortReq) : State := s.portWrite off (q.lower.force lo n v)

end Sys2Proof.Machine
end

