-- ==== Sys2Proof/Machine/Stipple.lean ====
section
/-! DEFINITION. The Stipple packer (09_stipple.md R221–R236). -/

namespace Sys2Proof.Machine

/-- The state of a channel within a frame (R223, R228, R229). -/
structure SpChan where
  kind : Nat
  k : Nat
  x1 : Int := 0
  x2 : Int := 0
  quality : Nat := 0
  a : Nat := 1
  n : Nat := 1

/-- Clamps to the signed 32-bit range. -/
def clamp32 (x : Int) : Int := max (-(2 ^ 31)) (min x (2 ^ 31 - 1))

/-- A number modulo 2^64 as a signed value. -/
def signed64 (x : Int) : Int := (BitVec.ofInt 64 x).toInt

/-- The prediction for row `i` (R223). -/
def SpChan.predict (c : SpChan) (i : Nat) : Int :=
  let p := if i = 0 then 0 else if i = 1 then c.x1 else 2 * c.x1 - c.x2
  if c.kind = 1 then clamp32 p else p % 2 ^ 64

/-- The quantized residual and the reconstructed value (R224). -/
def SpChan.quantize (c : SpChan) (i : Nat) (x : Int) : Int × Int :=
  let p := c.predict i
  if c.kind = 1 then
    let e := x - p
    let d : Int := 2 * c.k + 1
    let q := if 0 ≤ e then (e + c.k) / d else -((-e + c.k) / d)
    (q, clamp32 (p + q * d))
  else (signed64 (x - p), x)

/-- The mapping of R226, and its inverse. -/
def foldResidual (q : Int) : Nat := if 0 ≤ q then (2 * q).toNat else (-2 * q - 1).toNat
def unfoldResidual (u : Nat) : Int := if u % 2 = 0 then (u / 2 : Nat) else -((u / 2 : Nat) : Int) - 1

/-- The escape width. -/
def SpChan.width (c : SpChan) : Nat := if c.kind = 1 then 33 else 64

/-- The smallest `r` in 0–31 with `n * 2^r ≥ sum`, else 31. -/
def smallestR (n sum : Nat) : Nat := ((List.range 32).find? (fun r => decide (sum ≤ n * 2 ^ r))).getD 31

/-- The value moves into the history. -/
def SpChan.push (c : SpChan) (x : Int) : SpChan := { c with x2 := c.x1, x1 := x }

/-- The adaptation after a Rice code (R228). -/
def SpChan.adapt (c : SpChan) (u : Nat) : SpChan :=
  let a := min (c.a + u) (2 ^ 48 - 1)
  if c.n + 1 = 64 then { c with a := a / 2, n := 32 } else { c with a := a, n := c.n + 1 }

/-- `n` bits, least significant first. -/
def bitsOf (n u : Nat) : List Bool := (List.range n).map (fun i => u.testBit i)

/-- The Rice code of `u` (R227). -/
def riceBits (r e u : Nat) : List Bool :=
  let m := u / 2 ^ r
  if m < 24 then List.replicate m true ++ [false] ++ bitsOf r u else List.replicate 24 true ++ bitsOf e u

/-- Codes the value of a slot. -/
def SpChan.codeValue (c : SpChan) (i : Nat) (x : Int) : List Bool × SpChan :=
  let (q, xr) := c.quantize i x
  let u := foldResidual q
  if i = 0 then (bitsOf c.width u, c.push xr) else (riceBits (smallestR c.n c.a) c.width u, (c.push xr).adapt u)

/-- The value in a slot. -/
def SpChan.valueOf (c : SpChan) (b : List Byte) : Int :=
  if c.kind = 1 then (BitVec.ofNat 32 (fieldAt b 0 4)).toInt else (fieldAt b 0 8 : Nat)

/-- Codes a slot (R229, R230). -/
def SpChan.codeSlot (c : SpChan) (i : Nat) (b : List Byte) : List Bool × SpChan :=
  if c.kind = 4 then (bitsOf 64 (fieldAt b 0 8), c)
  else if c.kind = 1 then
    let w := fieldAt b 4 4
    let q := if w = c.quality then [false] else true :: bitsOf 32 w
    let (v, c) := { c with quality := w }.codeValue i (c.valueOf b)
    (q ++ v, c)
  else c.codeValue i (c.valueOf b)

/-- Codes a row. -/
def codeRow (i : Nat) (cs : List SpChan) (slots : List (List Byte)) : List Bool × List SpChan :=
  match cs, slots with
  | c :: cr, b :: br =>
    let (x, c) := c.codeSlot i b
    let (y, cr) := codeRow i cr br
    (x ++ y, c :: cr)
  | _, _ => ([], [])

/-- Codes the rows of a frame from row `i`. -/
def codeRows (i : Nat) (cs : List SpChan) (rows : List (List (List Byte))) : List (List Bool) :=
  match rows with
  | [] => []
  | r :: rest =>
    let (x, cs) := codeRow i cs r
    x :: codeRows (i + 1) cs rest

/-- Bits as bytes, from bit 0 upward, zero filled. -/
def bitBytes (l : List Bool) : List Byte := (chunks 8 l).map (fun g => BitVec.ofNat 8 (g.foldr (fun b a => a * 2 + b2n b) 0))

/-- The sum of `u` over the values after the first. -/
def residualSum (c : SpChan) (i : Nat) (xs : List Int) : Nat :=
  match xs with
  | [] => 0
  | x :: r =>
    let (q, xr) := c.quantize i x
    (if i = 0 then 0 else foldResidual q) + residualSum (c.push xr) (i + 1) r

/-- INIT_R of a channel (R228). -/
def initR (c : SpChan) (xs : List Int) : Nat :=
  let n := min 16 (xs.length - 1)
  if n = 0 ∨ c.kind = 4 then 0 else smallestR n (residualSum c 0 (xs.take (n + 1)))

/-- A frame (Table 9.2). -/
def packFrame (chans : List SpChan) (no : Nat) (rows : List (List (List Byte))) : List Byte :=
  let cs := chans.zipIdx.map (fun p => (p.1, initR p.1 (rows.map (fun r => p.1.valueOf (r.getD p.2 [])))))
  let body := bitBytes (codeRows 0 (cs.map (fun p => { p.1 with a := 2 ^ p.2 })) rows).flatten
  let f := [0x53, 0x54, 0x01, BitVec.ofNat 8 chans.length] ++ leBytes 2 rows.length ++ [0, 0] ++ leBytes 4 no ++
    leBytes 4 body.length ++ (cs.map (fun p => [BitVec.ofNat 8 (p.1.kind + p.2 * 8), BitVec.ofNat 8 p.1.k])).flatten ++ body
  f ++ leBytes 4 (crc32c f).toNat

/-- The end record (Table 9.4). -/
def endRecord (frames bytes : Nat) : List Byte :=
  let e := [0x53, 0x45, 0, 0] ++ leBytes 4 frames ++ leBytes 4 bytes
  e ++ leBytes 4 (crc32c e).toNat

/-- The frames of a stream (R222). -/
def packFrames (chans : List SpChan) (first rowsPer : Nat) (x : List Byte) : List (List Byte) :=
  let rows := chunks rowsPer ((chunks (8 * chans.length) x).map (chunks 8))
  rows.zipIdx.map (fun p => packFrame chans ((first + p.2) % 2 ^ 32) p.1)

/-- The smallest power of two that is at least `p`, from 2^`l` on. -/
def pow2From (l p : Nat) : Nat := if p ≤ 2 ^ l then 2 ^ l else 2 ^ (Nat.log2 (p - 1) + 1)

/-- The output length (R233). -/
def bucketLen (mode l p : Nat) : Nat :=
  match mode with
  | 0 => p
  | 1 => 2 ^ l
  | 2 => (p + 2 ^ l - 1) / 2 ^ l * 2 ^ l
  | _ => pow2From l p

/-! Unpacking (R236) -/

/-- Takes `n` bits as a number. -/
def takeBits (n : Nat) (l : List Bool) : Option (Nat × List Bool) :=
  let h := l.take n
  if h.length = n then some (h.foldr (fun b a => a * 2 + b2n b) 0, l.drop n) else none

/-- Reads a Rice code. -/
def readRice (r e : Nat) (l : List Bool) : Option (Nat × List Bool) :=
  let m := (l.take 24).takeWhile id |>.length
  if m = 24 then takeBits e (l.drop 24)
  else if l.length ≤ m then none
  else (takeBits r (l.drop (m + 1))).map (fun p => (m * 2 ^ r + p.1, p.2))

/-- Decodes a value: its number as stored, the channel, the rest. -/
def SpChan.readValue (c : SpChan) (i : Nat) (l : List Bool) : Option (Nat × SpChan × List Bool) :=
  let got := if i = 0 then takeBits c.width l else readRice (smallestR c.n c.a) c.width l
  match got with
  | none => none
  | some (u, rest) =>
    let p := c.predict i
    let q := unfoldResidual u
    let x : Int := if c.kind = 1 then clamp32 (p + q * (2 * c.k + 1)) else (p + q) % 2 ^ 64
    let c := if i = 0 then c.push x else (c.push x).adapt u
    some ((if c.kind = 1 then (BitVec.ofInt 32 x).toNat else x.toNat), c, rest)

/-- Decodes a slot to its 8 bytes. -/
def SpChan.readSlot (c : SpChan) (i : Nat) (l : List Bool) : Option (List Byte × SpChan × List Bool) :=
  if c.kind = 4 then (takeBits 64 l).map (fun p => (leBytes 8 p.1, c, p.2))
  else if c.kind = 1 then
    match takeBits 1 l with
    | none => none
    | some (f, l) =>
      match (if f = 0 then some (c.quality, l) else takeBits 32 l) with
      | none => none
      | some (w, l) => (SpChan.readValue { c with quality := w } i l).map (fun (p : Nat × SpChan × List Bool) =>
          (leBytes 4 p.1 ++ leBytes 4 w, p.2))
  else (c.readValue i l).map (fun p => (leBytes 8 p.1, p.2))

/-- Decodes a row. -/
def readRow (i : Nat) (cs : List SpChan) (l : List Bool) : Option (List Byte × List SpChan × List Bool) :=
  match cs with
  | [] => some ([], [], l)
  | c :: cr =>
    match c.readSlot i l with
    | none => none
    | some (x, c, l) => (readRow i cr l).map (fun p => (x ++ p.1, c :: p.2.1, p.2.2))

/-- Decodes `n` rows from row `i`; fewer than 8 zero bits may remain. -/
def readRows (n i : Nat) (cs : List SpChan) (l : List Bool) : Option (List Byte) :=
  match n with
  | 0 => if l.length < 8 ∧ l.all (!·) then some [] else none
  | k + 1 =>
    match readRow i cs l with
    | none => none
    | some (x, cs, l) => (readRows k (i + 1) cs l).map (x ++ ·)

/-- A channel entry that Table 9.3 allows. -/
def chanEntryOk (a b : Byte) : Bool :=
  let kind := a.toNat % 8
  decide (1 ≤ kind ∧ kind ≤ 4) && (decide (kind ≠ 4) || decide (a.toNat / 8 = 0)) && (decide (kind = 1) || decide (b = 0))

/-- What unpacking has done: rows, frames, their bytes, and the last frame's number. -/
structure SpDone where
  out : List Byte := []
  rows : Nat := 0
  frames : Nat := 0
  bytes : Nat := 0
  next : Option Nat := none

/-- Unpacks one frame at the head of the input, in the order of Table 9.8 (log 40). -/
def unpackFrame (slots outLen : Nat) (d : SpDone) (b : List Byte) : Except Status (SpDone × List Byte) :=
  let c := (b.getD 3 0).toNat
  let rows := fieldAt b 4 2
  let no := fieldAt b 8 4
  let body := fieldAt b 0x0C 4
  let len := 20 + 2 * c + body
  let ents := chunks 2 ((b.drop 0x10).take (2 * c))
  let fits := decide (16 ≤ b.length ∧ len ≤ b.length)
  if fits && decide (fieldAt b (len - 4) 4 ≠ (crc32c (b.take (len - 4))).toNat) then .error .verifyFail
  else if b.getD 2 1 ≠ 1 ∨ fieldAt b 6 2 ≠ 0 ∨
      (decide (16 + 2 * c ≤ b.length) && ents.any (fun e => !chanEntryOk (e.getD 0 0) (e.getD 1 0))) then .error .unsupported
  else if fits = false ∨ c ≠ slots ∨ rows = 0 ∨ 4096 < rows ∨ (d.next.any (fun n => decide (n ≠ no))) then .error .lenMismatch
  else
    let cs : List SpChan := ents.map (fun e => {
      kind := (e.getD 0 0).toNat % 8, k := (e.getD 1 0).toNat, a := 2 ^ ((e.getD 0 0).toNat / 8) })
    let bits := (((b.drop (0x10 + 2 * c)).take body).map (fun x => bitsOf 8 x.toNat)).flatten
    match readRows rows 0 cs bits with
    | none => .error .lenMismatch
    | some x =>
      let d := { out := d.out ++ x, rows := d.rows + rows, frames := d.frames + 1, bytes := d.bytes + len,
                 next := some ((no + 1) % 2 ^ 32) }
      if outLen < d.out.length then .error .lenMismatch else .ok (d, b.drop len)

/-- Unpacks a stream: to an end record, or to the end of the input at a frame boundary, or to the first failure (R236). -/
def unpackStream (fuel slots outLen : Nat) (d : SpDone) (b : List Byte) : SpDone × Option Status :=
  match fuel with
  | 0 => (d, none)
  | f + 1 =>
    if b.isEmpty then (d, none)
    else if b.length < 2 then (d, some .lenMismatch)
    else if b.headD 0 = 0x53 ∧ b.getD 1 0 = 0x45 then
      if b.length < 16 then (d, some .lenMismatch)
      else if fieldAt b 0x0C 4 ≠ (crc32c (b.take 12)).toNat then (d, some .verifyFail)
      else if fieldAt b 2 2 ≠ 0 then (d, some .unsupported)
      else if fieldAt b 4 4 ≠ d.frames % 2 ^ 32 ∨ fieldAt b 8 4 ≠ d.bytes % 2 ^ 32 then (d, some .lenMismatch)
      else (d, none)
    else if b.headD 0 = 0x53 ∧ b.getD 1 0 = 0x54 then
      match unpackFrame slots outLen d b with
      | .error st => (d, some st)
      | .ok (d, rest) => unpackStream f slots outLen d rest
    else (d, some .verifyFail)

/-! The opcodes (Tables 9.5–9.7) -/

def Link.spSlots (l : Link) : Nat := l.pb 0
def Link.spMode (l : Link) : Nat := l.pb 1
def Link.spRows (l : Link) : Nat := l.pf 2 2
def Link.spLog (l : Link) : Nat := l.pb 4

/-- Table 9.6 allows the parameter block. -/
def packParamsOk (l : Link) : Bool :=
  decide (1 ≤ l.spSlots ∧ l.spSlots ≤ 64) && decide (l.spMode ≤ 3) && decide (1 ≤ l.spRows ∧ l.spRows ≤ 4096) &&
  (if l.spMode = 0 then decide (l.spLog = 0) else decide (9 ≤ l.spLog ∧ l.spLog ≤ 24)) &&
  allZero (slice l.param 5 3) && allZero (slice l.param 0x0C 4) &&
  (List.range 64).all (fun c =>
    let kind := l.pb (0x10 + c)
    let k := l.pb (0x50 + c)
    if c < l.spSlots then decide (1 ≤ kind ∧ kind ≤ 4) && (decide (kind = 1) || decide (k = 0))
    else decide (kind = 0 ∧ k = 0))

/-- The channels of Table 9.6. -/
def Link.spChans (l : Link) : List SpChan :=
  (List.range l.spSlots).map (fun c => { kind := l.pb (0x10 + c), k := l.pb (0x50 + c) })

/-- Bytes of 4,096 slots, from one mark to the next (R238). -/
def stippleSegment : Nat := 32768

/-- STIPPLE_PACK. At a mark inside a frame the output of the whole frames before it has been written (log 130). -/
def packPlan (_ : State) (l : Link) : Plan where
  paramRead := if l.paramIs 144 then 144 else 0
  unsupported := l.optBad 0 || decide (l.slot ≠ 0) || (l.paramIs 144 && !packParamsOk l)
  badLen := fun _ => !l.paramIs 144 || decide (l.n = 0 ∨ l.n % (8 * l.spSlots) ≠ 0)
  out := fun _ => if l.spMode = 1 then 2 ^ l.spLog else 0
  segment := stippleSegment
  sofar := fun _ _ _ x _ => (packFrames l.spChans (l.pf 8 4) l.spRows
    (x.take (x.length / (8 * l.spSlots * l.spRows) * (8 * l.spSlots * l.spRows)))).flatten
  body := fun s _ _ _ x =>
    let fs := packFrames l.spChans (l.pf 8 4) l.spRows x
    let body := fs.flatten
    let p := body.length + 16
    let n := bucketLen l.spMode l.spLog p
    if n < p ∨ l.outLen < n then (.fail .lenMismatch, s)
    else (.good (fit n (body ++ endRecord fs.length body.length)) (BitVec.ofNat 64 (p + fs.length * 2 ^ 32)), s)

/-- What STIPPLE_UNPACK decodes from its input. -/
def Link.unpacked (l : Link) (x : List Byte) : SpDone × Option Status :=
  let first := l.pf 4 4
  unpackStream (x.length + 1) l.spSlots l.outLen { next := if first = 0xFFFFFFFF then none else some first } x

/-- STIPPLE_UNPACK. It writes its output as it decodes it, so the frames before a failure have been written (R236,
log 140). -/
def unpackPlan (_ : State) (l : Link) : Plan where
  paramRead := if l.paramIs 16 then 16 else 0
  unsupported := l.optBad 0 || decide (l.slot ≠ 0) || decide (0xFFFFFFFE < l.n) ||
    (l.paramIs 16 && (decide (l.spSlots < 1 ∨ 64 < l.spSlots) || !allZero (slice l.param 1 3) || !allZero (slice l.param 8 8)))
  badLen := fun _ => !l.paramIs 16 || decide (l.n < 24)
  segment := stippleSegment
  byOutput := true
  sofar := fun _ _ _ x k => (l.unpacked x).1.out.take k
  body := fun s _ _ _ x =>
    match l.unpacked x with
    | (d, some st) => (.failAfter st d.out, s)
    | (d, none) => (.good d.out (BitVec.ofNat 64 (d.rows + d.frames * 2 ^ 32)), s)

/-- Counts what a Stipple link that has just ended did (SP_IN_BYTES, SP_OUT_BYTES, SP_FAILS). -/
def State.stippleCount (s : State) (pack : Bool) (n : Nat) (e : TagEnt) : State :=
  match e.status with
  | .ok => if pack then { s with sp := { s.sp with
      inBytes := s.sp.inBytes + BitVec.ofNat 64 n, outBytes := s.sp.outBytes + BitVec.ofNat 64 (e.result.toNat % 2 ^ 32) } } else s
  | .verifyFail => { s with sp := { s.sp with verifyFails := satAdd s.sp.verifyFails (b2n (!pack)) } }
  | .lenMismatch => { s with sp := { s.sp with lengthFails := satAdd s.sp.lengthFails 1 } }
  | _ => s

/-- Runs a Stipple link. -/
def State.runStipple (s : State) (pack : Bool) (t : BitVec 14) (d : LinkData) (op : Nat) (plan : State → Link → Plan) : State :=
  match s.link? t.toNat d (isOp op) with
  | none => s
  | some l =>
    let s' := s.runOp t d (isOp op) plan
    match s'.tag? t.toNat with
    | some e => if e.phase = .ended then s'.stippleCount pack l.n e else s'
    | none => s'

end Sys2Proof.Machine
end

