-- ==== Sys2Proof/Machine/Plans.lean ====
section
/-! DEFINITION. The marks of running links: where a link of each opcode may be suspended, what its mark then holds, and how
it makes way for class D (04_chains.md R100, R101; 06_cipher_lanes.md R161; 07_digest.md R178–R182, R189;
08_public_key.md R207; 09_stipple.md R238). -/

namespace Sys2Proof.Machine

/-- The plan of an opcode on a unit kind that keeps marks, with the IV that its block supplies. -/
def planOf (op : Nat) : Option ((State → Link → Plan) × (Link → List Byte)) :=
  let plain (p : State → Link → Plan) : Option ((State → Link → Plan) × (Link → List Byte)) := some (p, fun _ => [])
  if 0x200 ≤ op ∧ op ≤ 0x203 then plain (digestPlan (· - 0x1FF) false)
  else if 0x208 ≤ op ∧ op ≤ 0x20B then plain (digestPlan (· - 0x200) false)
  else if op = 0x20C ∨ op = 0x20D then plain (digestPlan (· - 0x200) true)
  else match op with
    | 0x110 => plain (cbcPlan false)
    | 0x111 => plain (cbcPlan true)
    | 0x118 => plain (ctrPlan false)
    | 0x119 => plain (ctrPlan true)
    | 0x120 => some (sealPlan .gcm false, Link.ivIn)
    | 0x121 => plain (openPlan .gcm false)
    | 0x122 => some (sealPlan .gcm true, Link.ivIn)
    | 0x123 => plain (openPlan .gcm true)
    | 0x128 => plain (xtsPlan false)
    | 0x129 => plain (xtsPlan true)
    | 0x130 => some (sealPlan .ccm false, Link.ivIn)
    | 0x131 => plain (openPlan .ccm false)
    | 0x140 => some (sealPlan .ccp false, Link.ivIn)
    | 0x141 => plain (openPlan .ccp false)
    | 0x210 => plain hmacPlan
    | 0x218 => plain (kdfPlan .hkdf)
    | 0x219 => plain (kdfPlan .extract)
    | 0x21A => plain (kdfPlan .expand)
    | 0x220 => plain (kdfPlan .ctr)
    | 0x2F0 => plain sessStartPlan
    | 0x2F1 => plain sessUpdatePlan
    | 0x2F2 => plain sessFinishPlan
    | 0x300 => plain oaepEncryptPlan
    | 0x301 => plain oaepDecryptPlan
    | 0x302 => plain (rsaSignPlan true)
    | 0x303 => plain (rsaVerifyPlan true)
    | 0x304 => plain (rsaSignPlan false)
    | 0x305 => plain (rsaVerifyPlan false)
    | 0x308 => plain rsaRawPlan
    | 0x310 => plain (keygenPlan algEcdsa 0x20)
    | 0x311 => plain ecdsaSignPlan
    | 0x312 => plain ecdsaVerifyPlan
    | 0x318 => plain (keygenPlan algEddsa 0x21)
    | 0x319 => plain eddsaSignPlan
    | 0x31A => plain eddsaVerifyPlan
    | 0x31B => plain eddsaBatchPlan
    | 0x320 => plain (keygenPlan algXdh 0x22)
    | 0x321 => plain xdhAgreePlan
    | 0x3F0 => plain (pkPublicPlan algClassic bindingClassic)
    | 0x400 => plain (keygenPlan algKem 0x24)
    | 0x401 => plain encapsPlan
    | 0x402 => plain decapsPlan
    | 0x410 => plain (keygenPlan algDsa 0x25)
    | 0x411 => plain mldsaSignPlan
    | 0x412 => plain mldsaVerifyPlan
    | 0x413 => plain mldsaBatchPlan
    | 0x420 => plain hssVerifyPlan
    | 0x428 => plain slhVerifyPlan
    | 0x4F0 => plain (pkPublicPlan algPq bindingPq)
    | 0x500 => plain packPlan
    | 0x501 => plain unpackPlan
    | _ => none

/-- A link of a class below D on unit `u` makes way for class D: on a cipher or digest lane that it borrows, where no reserved
lane is free and no link of a lower class is on another reserved lane (R100); on any modular or NTT core and on Stipple
(R101, R238). -/
def State.makesWay (s : State) (u : Nat) (e : TagEnt) : Bool :=
  let cls (e : TagEnt) : Cls := (s.flight e.pkt).cls
  let lent (u : Nat) (e : TagEnt) : Bool := decide ((s.unit u).role = .reserved) && s.reservedFor (unitKind u) e u
  decide (cls e ≠ .d) &&
  (match unitKind u with
   | .cipher | .digest => !s.reservedFree (unitKind u) && lent u e &&
       (decide (cls e = .b) || !s.sq.tags.any (fun p => decide (cls p.2 = .b) &&
         (match p.2.phase with
          | .running w => lent w p.2 && decide (unitKind w = unitKind u)
          | _ => false)))
   | .modular | .ntt | .stipple => true
   | _ => false)

/-- How far a link has come at its mark: bytes of input over its passes, then bytes of output where the second pass writes
those (log 130). -/
def Plan.reached (p : Plan) (m : Option Mark) : Nat :=
  match m with
  | none => 0
  | some m =>
    if p.byOutput then m.wrote
    else m.first.length + (if m.pass = 2 ∧ p.secondInput = false then m.wrote else m.read.length)

/-- A segment of the pass that holds position `pos` ends there (R161, R189, R238). -/
def Plan.segmentEnds (p : Plan) (n pos : Nat) : Bool :=
  decide (p.segment ≠ 0 ∧ 0 < pos) &&
  (if p.byOutput ∨ pos < n then decide (pos % p.segment = 0)
   else p.twoPass && decide ((pos - n) % p.segment = 0))

/-- A digest link's mark stands at the end of a compression (R180). -/
def Plan.blockEnds (p : Plan) (s : State) (n pos : Nat) (m : Mark) : Bool :=
  let c := p.ctx s m.slot (if m.pass = 1 then m.read else m.first)
  if m.pass = 1 then c.hash.buf.isEmpty else decide ((pos - n) % hashBlock c.hash.alg.toNat = 0)

/-- The link of `l` gives its unit up: it goes back to the head of its queue, a digest link with its context in a free entry
of the lane (R100, R180). -/
def State.yieldUnit (s : State) (l : Link) (p : Plan) (m : Mark) : State :=
  let s := if kindOf l.e.desc.opcode = .digest then
      s.putDctx l.tag { p.ctx s m.slot (if m.pass = 1 then m.read else m.first) with place := .lane l.unit } else s
  (s.requeue l.tag false).schedule

/-- A lane has an entry for the context of a link that it suspends (R180). -/
def State.entryFree (s : State) (l : Link) : Bool :=
  decide (kindOf l.e.desc.opcode ≠ .digest) || decide (s.residents l.unit < 8) || (s.dctx l.tag).isSome

/-- A running link reaches position `pos`. At the end of a segment its mark is committed. Where a class D link waits for its
unit it is suspended there, a digest link at the end of any compression and a link of the public-key engine at its
impression (R100, R101, R161, R180, R189, R207, R238). -/
def State.suspendLink (s : State) (t pos : Nat) (d : LinkData) : State :=
  if s.restoringFor t then s
  else
    match s.link? t d (fun o => (planOf o).isSome) with
    | none => s
    | some l =>
      match planOf l.op with
      | none => s
      | some (plan, supplied) =>
        let p := plan s l
        let k := unitKind l.unit
        let core := decide (k = .modular ∨ k = .ntt)
        let pos := if core then 0 else pos
        let yields := s.makesWay l.unit l.e && s.dReady k && s.entryFree l
        let ends := p.segmentEnds l.n pos
        if p.reached l.mark ≤ pos ∧ (ends || (yields && (core || decide (k = .digest)))) then
          let (ok, s') := s.markLink l p (supplied l) pos
          let s' := if ok && core then s'.drawAhead l p else s'
          match (s'.tag? t).bind (·.mark) with
          | none => s'
          | some m =>
            if !ok then s'
            else if yields && (ends || core || p.blockEnds s l.n pos m) then s'.yieldUnit l p m
            else if ends then s'
            else s
        else s

/-- 20 µs of execution have passed: the core writes an impression of its link, with the randomness it has drawn (R207). -/
def State.impression (s : State) (u : Nat) (d : LinkData) : State :=
  match (s.unit u).busy with
  | none => s
  | some t =>
    match s.link? t d (fun o => (planOf o).isSome) with
    | none => s
    | some l =>
      match planOf l.op with
      | none => s
      | some (plan, supplied) =>
        if l.unit = u ∧ 0x140 ≤ u ∧ u ≤ 0x147 then
          let p := plan s l
          let (ok, s) := s.markLink l p (supplied l) 0
          if ok then (s.drawAhead l p).holdImpression (unitKind u) t else s
        else s

end Sys2Proof.Machine
end

