-- ==== Sys2Proof/Machine/RowOps.lean ====
section
/-! DEFINITION. What the commands of rings, sequencer, vectors and mailbox requests do beside the operations they share: the
returns of a ring's reads, CQ_PROD, aging, suspension, undefined opcodes, offers, answers (03_rings.md R60–R82,
04_chains.md R98–R115, 12_mailboxes_dma.md R310). -/

namespace Sys2Proof.Machine

/-- Drops the first `n` elements that `p` picks. -/
def dropFirst {α : Type} (p : α → Bool) (n : Nat) (l : List α) : List α :=
  match l with
  | [] => []
  | x :: r =>
    match n with
    | 0 => x :: r
    | k + 1 => if p x then dropFirst p k r else x :: dropFirst p (k + 1) r

/-- The oldest `n` transactions of an initiator have had their answers. -/
def State.answeredFirst (s : State) (w : Who) (n : Nat) : State :=
  { s with po := { s.po with txns := dropFirst (fun q => decide (q.who = w)) n s.po.txns } }

/-! Rings -/

/-- The ring manager takes an answer: it is not halted and not fenced. While it is fenced the answer waits (R19,
log 129). -/
def State.ringTakes (s : State) : Bool := !s.fc.halted && !s.stopped 0x008

/-- The enable's header read returns (R56). -/
def State.enableReturn (s : State) (r : Nat) (data : List Byte) : State :=
  match s.ringOwner r with
  | none => s
  | some f =>
    if (s.ring r).enabling && s.ringTakes then (s.answeredFirst (.ringHeader r) 1).enableCheck f r (fit 64 data) else s

/-- A header read returns (R60, R62): one more is issued when a KICK came meanwhile. -/
def State.headerReturn (s : State) (r : Nat) (data : List Byte) : State :=
  match s.ringOwner r with
  | none => s
  | some f =>
    if (s.ring r).hdrBusy && s.ringTakes then
      let owed := (s.ring r).hdrOwed
      let s := (s.answeredFirst (.ringHeader r) 1).modRing r (fun x => { x with hdrBusy := false, hdrOwed := false })
      if s.ringLive f r then
        let s := s.headerSeen f r (fit 16 data)
        if owed && s.ringLive f r then s.readHeader f r else s
      else s
    else s

/-- POLL_US has passed since the previous header read (R62). A poll that falls due while a header read is in flight is made
after that read returns, as a KICK's is (DESIGN CHOICE, log 137). -/
def State.poll (s : State) (r : Nat) : State :=
  match s.ringOwner r with
  | none => s
  | some f =>
    let x := s.ring r
    if s.ringLive f r && decide (x.pollUs ≠ 0) then s.ringKick f r else s

/-- The oldest entry read of a ring returns (R60, R74). In a HALTED function the entries stay where they are, unissued
(R37). -/
def State.entryReturn (s : State) (r : Nat) (data : List Byte) : State :=
  match s.ringOwner r with
  | none => s
  | some f =>
    match (s.ring r).reads with
    | [] => s
    | (_, k) :: rest =>
      if s.ringTakes then
        ((s.answeredFirst (.ringEntry r) 1).modRing r (fun x => { x with
          reads := rest, raw := x.raw ++ chunks 64 (fit (64 * k) data) })).formLoop 70 f r
      else s

/-- The link table of an INDIRECT packet returns (R71). -/
def State.tableReturn (s : State) (r : Nat) (data : List Byte) : State :=
  match s.ringOwner r with
  | none => s
  | some f =>
    let x := s.ring r
    match x.table, x.raw with
    | some p, h :: _ =>
      if !s.ringTakes then s
      else
      let s := (s.answered (· == .ringTable r)).modRing r (fun x => { x with table := none })
      if s.ringLive f r then
        let k := entrySpan h
        match formCheck (isAuthority f (s.localRing f r)) (x.raw.take k) (fit ((h.getD 1 0).toNat * 48) data) with
        | .error c =>
          if x.ready.isEmpty then s.malformed f r p.head c else s.modRing r (fun x => { x with bad := BitVec.ofNat 8 c })
        | .ok y =>
          (s.modRing r (fun x => { x with
            raw := x.raw.drop k, ready := x.ready ++ [{ y with head := p.head, indirect := true }] })).formLoop 70 f r
      else s
    | _, _ => s

/-- A header, entry or link-table read of a ring failed (R85). -/
def State.fetchError (s : State) (r : Nat) (what : FetchKind) : State :=
  let x := s.ring r
  if s.stopped 0x008 then s
  else match what with
  | .header => if x.enabling || x.hdrBusy then (s.answeredFirst (.ringHeader r) 1).fetchFails r true else s
  | .entry => if x.reads.isEmpty then s else (s.answered (· == .ringEntry r)).fetchFails r false
  | .linkTable => if x.table.isSome then (s.answered (· == .ringTable r)).fetchFails r false else s

/-- The records before `upTo` have their write responses: CQ_PROD is written (R81). -/
def State.cqProdWrite (s : State) (r : Nat) (upTo : Word) : State :=
  match s.ringOwner r with
  | none => s
  | some f =>
    let x := s.ring r
    let n := (upTo - x.cqProd).toNat
    if (decide (x.state = .enabled) || decide (x.state = .stopping)) && decide (0 < n ∧ n ≤ (x.cqPos - x.cqProd).toNat) &&
        !x.noRecords && s.ringTakes then
      ((s.answeredFirst (.completion r) n).modRing r (fun x => { x with cqProd := upTo })).writeHeader f r x.hdr 0x0C
        (leBytes 4 upTo.toNat)
    else s

/-- A completion record write of a ring failed (R82). -/
def State.recordFail (s : State) (r : Nat) : State :=
  if (s.ringOwner r).isSome && s.po.txns.any (fun q => decide (q.who = .completion r)) then
    (s.answeredFirst (.completion r) 1).completionFails r
  else s

/-- A STOPPING ring has no issued operation left (R86). A ring that was STOPPING at the reset point of its function may still
complete its stop before reset-complete (DESIGN CHOICE, log 138). -/
def State.ringStop (s : State) (r : Nat) : State :=
  match s.ringOwner r with
  | none => s
  | some f => if s.ringTakes then s.stopComplete f r else s

/-! Links -/

/-- What R73 asks of a NOP's descriptor. -/
def Desc.nopOk (d : Desc) : Bool :=
  decide (d.slot = 0 ∧ d.inLen = 0 ∧ d.outLen = 0 ∧ d.paramLen = 0) && !d.inChain && !d.outChain

/-- NOP: completes with OK, or with UNSUPPORTED, using no engine (R73). -/
def State.nopLink (s : State) (t : Nat) : State :=
  match s.tag? t with
  | some e =>
    if e.desc.opcode = 0 ∧ e.phase = .queued ∧ s.fc.halted = false ∧ s.stopped 0x00A = false then
      s.endLink t (if e.desc.nopOk then .ok else .unsupported) 0 0
    else s
  | none => s

/-- The opcodes that Tables 3.5 to 16 define, etched ones aside. -/
def definedOps : List Nat :=
  [0x000, 0x0A0, 0x0A1, 0x0E0, 0x0E1, 0x110, 0x111, 0x118, 0x119, 0x120, 0x121, 0x122, 0x123, 0x128, 0x129, 0x130, 0x131, 0x138,
   0x139, 0x13A, 0x13B, 0x140, 0x141] ++
  [0x200, 0x201, 0x202, 0x203, 0x208, 0x209, 0x20A, 0x20B, 0x20C, 0x20D, 0x210, 0x218, 0x219, 0x21A, 0x220, 0x2F0, 0x2F1, 0x2F2,
   0x2F3] ++
  [0x300, 0x301, 0x302, 0x303, 0x304, 0x305, 0x308, 0x310, 0x311, 0x312, 0x318, 0x319, 0x31A, 0x31B, 0x320, 0x321, 0x3F0, 0x400,
   0x401, 0x402, 0x410, 0x411, 0x412, 0x413, 0x420, 0x428, 0x4F0] ++
  [0x500, 0x501, 0x600, 0x601, 0x602, 0x603, 0x608, 0x610, 0x611, 0x618, 0x680, 0x681, 0x688, 0x690, 0x691, 0x700]

/-- An opcode that has a meaning: defined, or an etched one whose dispatch entry is valid (R72, R294). -/
def State.opKnown (s : State) (op : Nat) : Bool :=
  if 0xE00 ≤ op then bit ((s.dispatchOf op).setWidth 64) 0 else definedOps.contains op

/-- An undefined opcode of an implemented range, or an etched one without a valid dispatch entry, completes with
UNSUPPORTED (R72). -/
def State.undefinedLink (s : State) (t : Nat) : State :=
  match s.tag? t with
  | some e =>
    if e.phase.unit?.isSome && !s.opKnown e.desc.opcode.toNat && !s.fc.halted then s.finish t .unsupported 0 0 else s
  | none => s

/-- A class P or B link has waited AGE_US without starting: it rises by one step (R99). -/
def State.ageLink (s : State) (t : Nat) : State :=
  match s.tag? t with
  | some e =>
    if decide (e.phase = .queued) && !e.started && decide ((s.flight e.pkt).cls ≠ .d) && decide (s.sq.ageUs ≠ 0) then
      s.setTag t { e with aged := e.aged + 1, since := s.po.tm }
    else s
  | none => s

/-! Vectors and the function port -/

/-- TIMER_US has passed since the first pending signal (R111). -/
def State.vecTimer (s : State) (v : Nat) : State :=
  match s.vecOwner v with
  | none => s
  | some f =>
    let x := s.vec v
    if x.pending ≠ 0 ∧ x.timerUs ≠ 0 then s.setVec v (x.makeDue (s.fn f).pstate) else s

/-- The event records that signal a vector have their write responses, while IRQ_AFTER_RESP is 1 (R113; no other command
tells of them, log 54). -/
def State.recordsAnswered (s : State) (f v : Nat) : State :=
  if s.pf.irqAfterResp then
    s.answered (fun w => match w with
      | .event q => s.recordOf f (v - (s.fn f).entry.vecBase.toNat) (.event q)
      | _ => false)
  else s

/-- A DUE vector's message is handed over, once the writes of its records are issued, or answered while IRQ_AFTER_RESP
is 1 (R111, R113, R114). -/
def State.offer (s : State) (v : Nat) : State :=
  match s.vecOwner v with
  | none => s
  | some f => (s.recordsAnswered f v).offerVec v ((s.fn f).flush.contains v)

/-- A refused message is offered again (R410). -/
def State.offerAgain (s : State) (o : Offer) : State :=
  match o with
  | .interrupt v => if (s.vec v.toNat).refusedAt.isSome then s.offer v.toNat else s
  | .resetComplete f =>
    if s.po.fiAgain.contains f.toNat then
      ({ s with po := { s.po with fiAgain := s.po.fiAgain.erase f.toNat } } : State).sendReset f.toNat
    else s

/-! Digest contexts -/

/-- Key of a context. -/
def ctxKey : CtxRef → Nat
  | .link t => t.toNat
  | .session f c => sessKey f.toNat c.toNat

/-- The write response of a context spill (R182). -/
def State.spillWritten (s : State) (c : CtxRef) : State :=
  if s.fc.halted then s else (s.answered (fun w => decide (w = ctxWho (ctxKey c)))).spillDone (ctxKey c)

/-- A spilled context returns (R183). -/
def State.ctxReturn (s : State) (c : CtxRef) (data : List Byte) : State :=
  if s.fc.halted then s else s.contextRestored (ctxKey c) data

/-! Mailbox requests (Table 12.3) and gos -/

/-- Answer words of VERSION. -/
def mbVersionWords (s : State) : List Word := [BitVec.ofNat 32 idVersion, s.bu.fwVer, s.d0.bootCount]

/-- Answer words of CAPACITY. -/
def mbCapacityWords (s : State) : List Word :=
  [loHalf (clRead s 0), loHalf (dlRead s 0), loHalf (pkRead s 0), loHalf (gcRead s 0)] ++
  (List.range 4).map (fun p => loHalf (portStatus s p))

/-- Answer words of WINDOW. -/
def mbWindowWords (f : Nat) (s : State) : List Word :=
  let w := s.vt.wins.get (0, 0) f
  [BitVec.ofNat 32 w.1.toNat, BitVec.ofNat 32 w.2.toNat]

/-- Answer words of FUNCTION. -/
def mbFunctionWords (f : Nat) (s : State) : List Word :=
  let e := (s.fn f).entry
  [loHalf (pk [(0, e.ringBase.toNat), (16, e.ringCount.toNat)]), loHalf (pk [(0, e.vecBase.toNat), (16, e.vecCount.toNat)]),
   BitVec.ofNat 32 e.attrWord, BitVec.ofNat 32 e.tagQuota.toNat, BitVec.ofNat 32 e.drainUs.toNat]

/-- A go on a mailbox path (R303): on the register port, by Burin, or inside the sentinel and the vault sequencer. -/
def State.mailGo (s : State) (b : MailBox) (q : PortReq) : State :=
  match b with
  | .fnToBurin f => s.portWrite (fnPage f.toNat 0x1038) (q.upper.force 32 1 1)
  | .burinToFn _ => if q.initiator = burinId then s.goDo b 0xC00BC burinId true else s.portWrite 0xC00B8 (q.upper.force 32 1 1)
  | .burinToSen => if q.initiator = burinId then s.goDo b 0xC013C burinId true else s.portWrite 0xC0138 (q.upper.force 32 1 1)
  | .burinToVs => if q.initiator = burinId then s.goDo b 0xC01BC burinId true else s.portWrite 0xC01B8 (q.upper.force 32 1 1)
  | .senToBurin | .vsToBurin => s.goDo b 0 0 true

/-- A release on a mailbox path (R305). -/
def State.mailRelease (s : State) (b : MailBox) (q : PortReq) : State :=
  match b with
  | .burinToFn f => s.portWrite (fnPage f.toNat 0x1078) (q.upper.force 32 1 1)
  | .fnToBurin _ => if q.initiator = burinId then s.mbRelease b else s.portWrite 0xC0078 (q.upper.force 32 1 1)
  | .senToBurin => if q.initiator = burinId then s.mbRelease b else s.portWrite 0xC00F8 (q.upper.force 32 1 1)
  | .vsToBurin => if q.initiator = burinId then s.mbRelease b else s.portWrite 0xC0178 (q.upper.force 32 1 1)
  | .burinToSen | .burinToVs => s.mbRelease b

end Sys2Proof.Machine
end

