-- ==== Sys2Proof/Machine/CmdAccess.lean ====
section
/-! DEFINITION. Meanings of commands. Tamper response, access rules, journal, fabric answers, credits and the test access port (14_protection.md, 16_ports.md). Each is the command's effect as a next state. -/

namespace Sys2Proof.Machine

open Host

/-- ALARM_EVENT (R363): An alarm line rising on an enabled line carries out its response and writes its tamper
records. -/
def execAlarmEvent (levels : BitVec 16) (s : State) : Outcome State Fault Refusal := .next (s.alarmLevels levels)

/-- CELL_CRITICAL (R369): The backup cell falling below 1.80 V on cell power burnishes at once with cause PREEMPT. -/
def execCellCritical (s : State) : Outcome State Fault Refusal := .next s.cellCritical

/-- SOFTWARE_BURNISH (R371): A write of 1 to TS_CTRL.BURNISH carries out ERASE_ALL with cause SOFTWARE_ALL. -/
def execSoftwareBurnish (q : PortReq) (s : State) : Outcome State Fault Refusal := .next (s.command 0xF8000 0 1 1 q)

/-- SOFTWARE_SESSION (R371): A write of 1 to TS_CTRL.SESSION carries out ERASE_SESSION with cause SOFTWARE_SESSION. -/
def execSoftwareSession (q : PortReq) (s : State) : Outcome State Fault Refusal := .next (s.command 0xF8000 1 1 1 q)

/-- MONITOR_TEST (R366): A GO to TS_TEST drives the stimulus and suppression of a line, or gives REFUSED. -/
def execMonitorTest (q : PortReq) (s : State) : Outcome State Fault Refusal := .next (s.command 0xF8010 14 1 1 q)

/-- MONITOR_TEST_END (R366): 10 µs after the window the test result is set, raising TAMPER or an alarm on FAIL. -/
def execMonitorTestEnd (seenActive stillActive : Bool) (s : State) : Outcome State Fault Refusal :=
  .next (s.testEnd seenActive stillActive)

/-- LINE_CFG_WRITE (R362): A write to TS_LINE_CFG sets a line's EN and RESPONSE in D0 unless locked. -/
def execLineCfgWrite (line : BitVec 4) (q : PortReq) (s : State) : Outcome State Fault Refusal :=
  .next (s.portWrite (0xF8100 + line.toNat / 2 * 8) (q.half line.toNat))

/-- TAMPER_RECORD_CLEAR (R370): A write of 1 to TS_REC_STAT.CLEAR clears every tamper record and LOST. -/
def execTamperRecordClear (q : PortReq) (s : State) : Outcome State Fault Refusal :=
  .next (s.command 0xF8200 16 1 1 q)

/-- AR_LOAD (R349): AR_CMD LOAD copies the selected region table entry into the staging registers. -/
def execArLoad (q : PortReq) (s : State) : Outcome State Fault Refusal := .next (s.command 0xF0008 0 2 1 q)

/-- AR_COMMIT (R349): AR_CMD COMMIT writes the staged region table entry and increments the epoch. -/
def execArCommit (q : PortReq) (s : State) : Outcome State Fault Refusal := .next (s.command 0xF0008 0 2 2 q)

/-- AR_INVALIDATE (R351): AR_CMD INVALIDATE invalidates the selected entry and increments the epoch, unless locked. -/
def execArInvalidate (q : PortReq) (s : State) : Outcome State Fault Refusal := .next (s.command 0xF0008 0 2 3 q)

/-- AR_CMD_UNDEFINED (R349): An AR_CMD write of OP 0 sets ERR to 3. -/
def execArCmdUndefined (q : PortReq) (s : State) : Outcome State Fault Refusal := .next (s.command 0xF0008 0 2 0 q)

/-- AR_SYNC_DONE (R350): DONE returns to 1 once no access checked under an older epoch remains. -/
def execArSyncDone (s : State) : Outcome State Fault Refusal := .next s.syncCheck

/-- PO_ENTRY_WRITE (R353): A write to AR_PO_ENTRY sets the selected page-owner entry unless locked. -/
def execPoEntryWrite (q : PortReq) (s : State) : Outcome State Fault Refusal := .next (s.portWrite 0xF0108 q)

/-- DG_CTRL_WRITE (R356): A write to DG_CTRL sets the debug function and tracing, TRACE_EN only in MANUFACTURE or
DEVELOPMENT. -/
def execDgCtrlWrite (q : PortReq) (s : State) : Outcome State Fault Refusal := .next (s.portWrite 0x110000 q.lower)

/-- JN_CTRL_WRITE (R359): A write to JN_CTRL enables the journal ring, resets its indices or locks it. -/
def execJnCtrlWrite (q : PortReq) (s : State) : Outcome State Fault Refusal := .next (s.portWrite 0x120008 q.lower)

/-- JN_CONS_WRITE (R359): A write to JN_CONS frees ring space so that shadow entries drain to the ring. -/
def execJnConsWrite (q : PortReq) (s : State) : Outcome State Fault Refusal := .next (s.portWrite 0x120010 q.upper)

/-- JN_LOST_READ (R407): A read of JN_LOST returns and clears the lost-event count. -/
def execJnLostRead (q : PortReq) (s : State) : Outcome State Fault Refusal := .next (s.portRead 0x120018 q)

/-- FABRIC_RESPONSE_FAIL (R403): A fabric answer of RETRY schedules a retry, and one of ERROR fails the transaction. -/
def execFabricResponseFail (txn : Nat) (retry : Bool) (s : State) : Outcome State Fault Refusal :=
  .next (s.responseFail txn retry)

/-- FABRIC_RETRY_TIMER (R403): After 2^(n−1) µs a retried fabric transaction is sent again. -/
def execFabricRetryTimer (txn : Nat) (s : State) : Outcome State Fault Refusal := .next (s.retryTxn txn)

/-- FABRIC_TIMEOUT (R403): A transaction unanswered after TIMEOUT_US fails and raises RESP_TIMEOUT. -/
def execFabricTimeout (txn : Nat) (s : State) : Outcome State Fault Refusal := .next (s.timeoutTxn txn)

/-- FABRIC_PARITY_ERROR (R404): A parity error on an incoming fabric transfer, or fpx_perr_i, is a DATAPATH fault that
fences the port. -/
def execFabricParityError (portB : Bool) (s : State) : Outcome State Fault Refusal := .next (s.fabParity portB)

/-- GC_FABRIC_WRITE (R403): A write to GC_FABRIC sets retries and timeout, ignoring a TIMEOUT_US of 0. -/
def execGcFabricWrite (q : PortReq) (s : State) : Outcome State Fault Refusal := .next (s.portWrite 0x10020 q.lower)

/-- CREDIT_RETURN (R397): A four-phase credit return adds X_ccnt credits to the sender. -/
def execCreditReturn (ch : Channel) (n : BitVec 4) (s : State) : Outcome State Fault Refusal :=
  .next (s.creditBack ch n)

/-- IDCODE (R420): TAP instruction IDCODE selects the 32-bit identification register. -/
def execTapIdcode (s : State) : Outcome State Fault Refusal := .next s.tapIdcode

/-- DBG_ENABLE (R420): TAP instruction DBG_ENABLE writes DG_CTRL.MASTER_ACTIVE at Update-DR. -/
def execDbgEnable (bit : Bool) (s : State) : Outcome State Fault Refusal := .next (s.dbgEnable bit)

/-- DBG_ACCESS (R420): TAP instruction DBG_ACCESS starts a debug register or fabric access at Update-DR. -/
def execDbgAccess (dr : BitVec 128) (answer : DWord) (s : State) : Outcome State Fault Refusal :=
  .next (s.dbgAccess dr answer)

/-- BYPASS (R420): TAP instruction BYPASS selects the one-bit bypass register. -/
def execTapBypass (s : State) : Outcome State Fault Refusal := .next s.tapBypass

/-- TAP_RESET (R420): dbg_trst_i or the TAP reset state resets the TAP controller and selects IDCODE. -/
def execTapReset (s : State) : Outcome State Fault Refusal := .next s.tapReset

/-- CELL_LOW (R369): The backup cell voltage crosses the 2.10 V or 1.80 V threshold and TS_STATUS.CELL changes between
GOOD, LOW and CRITICAL. -/
def execCellLow (level : Cell) (s : State) : Outcome State Fault Refusal := .next (s.cellLevel level)

/-- BACKUP_CELL_DEPLETED (R369): The cell falls below the level at which D0 retains its state, and the vault state,
line configuration and tamper records are lost. -/
def execBackupCellDepleted (s : State) : Outcome State Fault Refusal := .next s.cellDepleted

end Sys2Proof.Machine
end

