-- ==== Sys2Proof/Machine/CmdBurin.lean ====
section
/-! DEFINITION. Meanings of commands. Burin's instructions and cores (11_burin.md). Each is the command's effect as a next state. -/

namespace Sys2Proof.Machine

open Host

/-- MOV (R286): rd = rb. -/
def execMov (rd rb : BitVec 5) (s : State) : Outcome State Fault Refusal := .next (s.burinStep (.mov rd rb))

/-- ADD (R286): rd = sum of the operands. -/
def execAdd (a : Alu3) (s : State) : Outcome State Fault Refusal := .next (s.burinStep (.add a))

/-- SUB (R286): rd = difference of the operands. -/
def execSub (a : Alu3) (s : State) : Outcome State Fault Refusal := .next (s.burinStep (.sub a))

/-- AND (R286): rd = bitwise AND. -/
def execAndOp (a : Alu3) (s : State) : Outcome State Fault Refusal := .next (s.burinStep (.and a))

/-- OR (R286): rd = bitwise OR. -/
def execOrOp (a : Alu3) (s : State) : Outcome State Fault Refusal := .next (s.burinStep (.or a))

/-- XOR (R286): rd = bitwise XOR. -/
def execXorOp (a : Alu3) (s : State) : Outcome State Fault Refusal := .next (s.burinStep (.xor a))

/-- ANDN (R286): rd = ra AND NOT rb. -/
def execAndn (rd ra rb : BitVec 5) (s : State) : Outcome State Fault Refusal := .next (s.burinStep (.andn rd ra rb))

/-- SHL (R286): rd = shift left by a register. -/
def execShl (a : Alu3) (s : State) : Outcome State Fault Refusal := .next (s.burinStep (.shl a))

/-- SHR (R286): rd = logical shift right by a register. -/
def execShr (a : Alu3) (s : State) : Outcome State Fault Refusal := .next (s.burinStep (.shr a))

/-- SAR (R286): rd = arithmetic shift right by a register. -/
def execSar (a : Alu3) (s : State) : Outcome State Fault Refusal := .next (s.burinStep (.sar a))

/-- ROR (R286): rd = ra rotated right by rb. -/
def execRor (rd ra rb : BitVec 5) (s : State) : Outcome State Fault Refusal := .next (s.burinStep (.ror rd ra rb))

/-- SLT (R286): rd = 1 when signed less than. -/
def execSlt (a : Alu3) (s : State) : Outcome State Fault Refusal := .next (s.burinStep (.slt a))

/-- SLTU (R286): rd = 1 when unsigned less than. -/
def execSltu (a : Alu3) (s : State) : Outcome State Fault Refusal := .next (s.burinStep (.sltu a))

/-- MIN (R286): rd = signed minimum. -/
def execMinOp (rd ra rb : BitVec 5) (s : State) : Outcome State Fault Refusal := .next (s.burinStep (.min rd ra rb))

/-- MAX (R286): rd = signed maximum. -/
def execMaxOp (rd ra rb : BitVec 5) (s : State) : Outcome State Fault Refusal := .next (s.burinStep (.max rd ra rb))

/-- MINU (R286): rd = unsigned minimum. -/
def execMinu (rd ra rb : BitVec 5) (s : State) : Outcome State Fault Refusal := .next (s.burinStep (.minu rd ra rb))

/-- MAXU (R286): rd = unsigned maximum. -/
def execMaxu (rd ra rb : BitVec 5) (s : State) : Outcome State Fault Refusal := .next (s.burinStep (.maxu rd ra rb))

/-- CLZ (R286): rd = leading zeros of ra. -/
def execClz (rd ra : BitVec 5) (s : State) : Outcome State Fault Refusal := .next (s.burinStep (.clz rd ra))

/-- POPC (R286): rd = population count of ra. -/
def execPopc (rd ra : BitVec 5) (s : State) : Outcome State Fault Refusal := .next (s.burinStep (.popc rd ra))

/-- BSWAP (R286): rd = ra with bytes reversed. -/
def execBswap (rd ra : BitVec 5) (s : State) : Outcome State Fault Refusal := .next (s.burinStep (.bswap rd ra))

/-- NEG (R286): rd = −rb. -/
def execNeg (rd rb : BitVec 5) (s : State) : Outcome State Fault Refusal := .next (s.burinStep (.neg rd rb))

/-- ADDI (R286): rd = register plus sign-extended immediate. -/
def execAddi (a : AddImm) (s : State) : Outcome State Fault Refusal := .next (s.burinStep (.addi a))

/-- ANDI (R286): rd = ra AND zero-extended immediate. -/
def execAndi (rd ra : BitVec 5) (imm : BitVec 14) (s : State) : Outcome State Fault Refusal :=
  .next (s.burinStep (.andi rd ra imm))

/-- ORI (R286): rd = ra OR zero-extended immediate. -/
def execOri (rd ra : BitVec 5) (imm : BitVec 14) (s : State) : Outcome State Fault Refusal :=
  .next (s.burinStep (.ori rd ra imm))

/-- XORI (R286): rd = ra XOR zero-extended immediate. -/
def execXori (rd ra : BitVec 5) (imm : BitVec 14) (s : State) : Outcome State Fault Refusal :=
  .next (s.burinStep (.xori rd ra imm))

/-- LI (R286): rd = sign-extended 5-bit immediate. -/
def execLi (rd : BitVec 5) (imm : BitVec 5) (s : State) : Outcome State Fault Refusal :=
  .next (s.burinStep (.li rd imm))

/-- LUI (R286): rd = imm18 shifted left 14. -/
def execLui (rd : BitVec 5) (imm : BitVec 18) (s : State) : Outcome State Fault Refusal :=
  .next (s.burinStep (.lui rd imm))

/-- SHLI (R286): rd = shift left by an immediate. -/
def execShli (a : ShImm) (s : State) : Outcome State Fault Refusal := .next (s.burinStep (.shli a))

/-- SHRI (R286): rd = logical shift right by an immediate. -/
def execShri (a : ShImm) (s : State) : Outcome State Fault Refusal := .next (s.burinStep (.shri a))

/-- SARI (R286): rd = arithmetic shift right by an immediate. -/
def execSari (a : ShImm) (s : State) : Outcome State Fault Refusal := .next (s.burinStep (.sari a))

/-- SLTI (R286): rd = 1 when ra is less than the signed immediate. -/
def execSlti (rd ra : BitVec 5) (imm : BitVec 14) (s : State) : Outcome State Fault Refusal :=
  .next (s.burinStep (.slti rd ra imm))

/-- LWS (R284): Loads a word from the data stack at DSP plus offset, with load delay. -/
def execLws (rd : BitVec 5) (imm : BitVec 5) (s : State) : Outcome State Fault Refusal :=
  .next (s.burinStep (.lws rd imm))

/-- SWS (R284): Stores a word to the data stack at DSP plus offset. -/
def execSws (rd : BitVec 5) (imm : BitVec 5) (s : State) : Outcome State Fault Refusal :=
  .next (s.burinStep (.sws rd imm))

/-- LW (R281): Loads a word, writing rd after the delay slot. -/
def execLw (r base : BitVec 5) (imm : BitVec 14) (s : State) : Outcome State Fault Refusal :=
  .next (s.burinStep (.lw r base imm))

/-- LH (R281): Loads a sign-extended halfword. -/
def execLh (r base : BitVec 5) (imm : BitVec 14) (s : State) : Outcome State Fault Refusal :=
  .next (s.burinStep (.lh r base imm))

/-- LHU (R281): Loads a zero-extended halfword. -/
def execLhu (r base : BitVec 5) (imm : BitVec 14) (s : State) : Outcome State Fault Refusal :=
  .next (s.burinStep (.lhu r base imm))

/-- LB (R281): Loads a sign-extended byte. -/
def execLb (r base : BitVec 5) (imm : BitVec 14) (s : State) : Outcome State Fault Refusal :=
  .next (s.burinStep (.lb r base imm))

/-- LBU (R281): Loads a zero-extended byte. -/
def execLbu (r base : BitVec 5) (imm : BitVec 14) (s : State) : Outcome State Fault Refusal :=
  .next (s.burinStep (.lbu r base imm))

/-- LOAD_WRITEBACK (R281): A load's value lands in its register after the delay-slot instruction, or when slow
register data returns. -/
def execLoadWriteback (s : State) : Outcome State Fault Refusal := .next s.loadLands

/-- SW (R276): Stores a word; register-window stores go to the outbound buffer. -/
def execSw (r base : BitVec 5) (imm : BitVec 14) (s : State) : Outcome State Fault Refusal :=
  .next (s.burinStep (.sw r base imm))

/-- SH (R286): Stores a halfword. -/
def execSh (r base : BitVec 5) (imm : BitVec 14) (s : State) : Outcome State Fault Refusal :=
  .next (s.burinStep (.sh r base imm))

/-- SB (R286): Stores a byte. -/
def execSb (r base : BitVec 5) (imm : BitVec 14) (s : State) : Outcome State Fault Refusal :=
  .next (s.burinStep (.sb r base imm))

/-- BEQZ (R286): Branches when rd is zero. -/
def execBeqz (rd : BitVec 5) (imm : BitVec 5) (s : State) : Outcome State Fault Refusal :=
  .next (s.burinStep (.beqz rd imm))

/-- BNEZ (R286): Branches when rd is not zero. -/
def execBnez (rd : BitVec 5) (imm : BitVec 5) (s : State) : Outcome State Fault Refusal :=
  .next (s.burinStep (.bnez rd imm))

/-- BEQ (R286): Branches when ra equals rb. -/
def execBeq (ra rb : BitVec 5) (imm : BitVec 14) (s : State) : Outcome State Fault Refusal :=
  .next (s.burinStep (.beq ra rb imm))

/-- BNE (R286): Branches when ra differs from rb. -/
def execBne (ra rb : BitVec 5) (imm : BitVec 14) (s : State) : Outcome State Fault Refusal :=
  .next (s.burinStep (.bne ra rb imm))

/-- BLT (R286): Branches when ra is signed less than rb. -/
def execBlt (ra rb : BitVec 5) (imm : BitVec 14) (s : State) : Outcome State Fault Refusal :=
  .next (s.burinStep (.blt ra rb imm))

/-- BGE (R286): Branches when ra is signed at least rb. -/
def execBge (ra rb : BitVec 5) (imm : BitVec 14) (s : State) : Outcome State Fault Refusal :=
  .next (s.burinStep (.bge ra rb imm))

/-- BLTU (R286): Branches when ra is unsigned less than rb. -/
def execBltu (ra rb : BitVec 5) (imm : BitVec 14) (s : State) : Outcome State Fault Refusal :=
  .next (s.burinStep (.bltu ra rb imm))

/-- BGEU (R286): Branches when ra is unsigned at least rb. -/
def execBgeu (ra rb : BitVec 5) (imm : BitVec 14) (s : State) : Outcome State Fault Refusal :=
  .next (s.burinStep (.bgeu ra rb imm))

/-- J (R286): Jumps relative to the instruction. -/
def execJump (a : JImm) (s : State) : Outcome State Fault Refusal := .next (s.burinStep (.jump a))

/-- CALL (R283): Pushes the return address and jumps relative. -/
def execCall (imm : BitVec 24) (s : State) : Outcome State Fault Refusal := .next (s.burinStep (.call imm))

/-- CALLR (R283): Pushes the return address and jumps to rb. -/
def execCallr (rb : BitVec 5) (s : State) : Outcome State Fault Refusal := .next (s.burinStep (.callr rb))

/-- JR (R286): Jumps to rb. -/
def execJr (rb : BitVec 5) (s : State) : Outcome State Fault Refusal := .next (s.burinStep (.jr rb))

/-- RET (R283): Pops the return stack into PC. -/
def execRet (s : State) : Outcome State Fault Refusal := .next (s.burinStep .ret)

/-- MUL (R282): Starts a signed multiply whose product lands in MHI:MLO after 3 cycles. -/
def execMul (a : Mul2) (s : State) : Outcome State Fault Refusal := .next (s.burinStep (.mul a))

/-- MULU (R282): Starts an unsigned multiply whose product lands in MHI:MLO after 3 cycles. -/
def execMulu (a : Mul2) (s : State) : Outcome State Fault Refusal := .next (s.burinStep (.mulu a))

/-- PRODUCT_LANDS (R282): At the end of cycle t + 3 the product is written to MHI:MLO. -/
def execProductLands (s : State) : Outcome State Fault Refusal := .next s.productLands

/-- MFS (R279): Reads a special register into rd. -/
def execMfs (rd : BitVec 5) (idx : BitVec 5) (s : State) : Outcome State Fault Refusal :=
  .next (s.burinStep (.mfs rd idx))

/-- MTS (R279): Writes rd to a special register. -/
def execMts (rd : BitVec 5) (idx : BitVec 5) (s : State) : Outcome State Fault Refusal :=
  .next (s.burinStep (.mts rd idx))

/-- ADJ (R284): Adds a scaled 10-bit immediate to DSP. -/
def execAdj (imm : BitVec 10) (s : State) : Outcome State Fault Refusal := .next (s.burinStep (.adj imm))

/-- ADJL (R284): Adds a scaled 14-bit immediate to DSP. -/
def execAdjl (imm : BitVec 14) (s : State) : Outcome State Fault Refusal := .next (s.burinStep (.adjl imm))

/-- SYS_NOP (R286): Does nothing. -/
def execSysNop (s : State) : Outcome State Fault Refusal := .next (s.burinStep .nop)

/-- WFE (R280): Takes a commit point and waits until EVT & EVT_MASK is non-zero. -/
def execWfe (s : State) : Outcome State Fault Refusal := .next (s.burinStep .wfe)

/-- WFE_WAKE (R280): An event in EVT & EVT_MASK ends WFE. -/
def execWfeWake (s : State) : Outcome State Fault Refusal := .next s.wfeWake

/-- COMMIT (R275): Takes a commit point, saving state, releasing the outbound buffer and clearing the logs. -/
def execCommit (s : State) : Outcome State Fault Refusal := .next (s.burinStep .commit)

/-- COMMIT_TIMER (R275): 10 µs after the last commit point Burin takes a commit point at the next allowed boundary. -/
def execCommitTimer (s : State) : Outcome State Fault Refusal := .next s.commitTimer

/-- TRET (R285): Returns from a trap to EPC and clears INTRAP. -/
def execTret (s : State) : Outcome State Fault Refusal := .next (s.burinStep .tret)

/-- BRK (R285): Traps with cause BRK. -/
def execBrk (s : State) : Outcome State Fault Refusal := .next (s.burinStep .brk)

/-- ETCH (R291): Executes the micro-words of etch table entry INDEX as one instruction. -/
def execEtch (rd ra rb : BitVec 5) (index : BitVec 6) (s : State) : Outcome State Fault Refusal :=
  .next (s.burinStep (.etch rd ra rb index))

/-- LOCKSTEP_MISMATCH (R277): A lockstep mismatch rolls Burin back to its last commit point and re-executes. -/
def execLockstepMismatch (s : State) : Outcome State Fault Refusal := .next s.lockstepMismatch

/-- ILLEGAL (R286): An instruction with a reserved encoding or non-zero zero field traps with cause ILLEGAL. -/
def execIllegal (h0 h1 : BitVec 16) (s : State) : Outcome State Fault Refusal := .next (s.burinIllegal h0 h1)

end Sys2Proof.Machine
end

