-- ==== Sys2Proof/Machine/CmdCipher.lean ====
section
/-! DEFINITION. Meanings of commands. The cipher opcodes (06_cipher_lanes.md). Each is the command's effect as a next state. -/

namespace Sys2Proof.Machine

open Host

/-- CBC_ENCRYPT (R147): Opcode 0x110 encrypts its input in AES-CBC on a cipher lane. -/
def execCbcEncrypt (tag : BitVec 14) (d : LinkData) (s : State) : Outcome State Fault Refusal :=
  .next (s.runOp tag d (isOp 0x110) (cbcPlan false))

/-- CBC_DECRYPT (R147): Opcode 0x111 decrypts its input in AES-CBC on a cipher lane. -/
def execCbcDecrypt (tag : BitVec 14) (d : LinkData) (s : State) : Outcome State Fault Refusal :=
  .next (s.runOp tag d (isOp 0x111) (cbcPlan true))

/-- CTR_ENCRYPT (R150): Opcode 0x118 encrypts in AES-CTR without counter carry or repeat. -/
def execCtrEncrypt (tag : BitVec 14) (d : LinkData) (s : State) : Outcome State Fault Refusal :=
  .next (s.runOp tag d (isOp 0x118) (ctrPlan false))

/-- CTR_DECRYPT (R150): Opcode 0x119 decrypts in AES-CTR. -/
def execCtrDecrypt (tag : BitVec 14) (d : LinkData) (s : State) : Outcome State Fault Refusal :=
  .next (s.runOp tag d (isOp 0x119) (ctrPlan true))

/-- GCM_ENCRYPT (R153): Opcode 0x120 seals AAD and plaintext in AES-GCM with an allocated or supplied IV. -/
def execGcmEncrypt (tag : BitVec 14) (d : LinkData) (s : State) : Outcome State Fault Refusal :=
  .next (s.runOp tag d (isOp 0x120) (sealPlan .gcm false) Link.ivIn)

/-- GCM_DECRYPT (R159): Opcode 0x121 checks the GCM tag before releasing plaintext, in one or two passes. -/
def execGcmDecrypt (tag : BitVec 14) (d : LinkData) (s : State) : Outcome State Fault Refusal :=
  .next (s.runOp tag d (isOp 0x121) (openPlan .gcm false))

/-- GMAC_GENERATE (R153): Opcode 0x122 generates a GMAC tag with an allocated or supplied IV. -/
def execGmacGenerate (tag : BitVec 14) (d : LinkData) (s : State) : Outcome State Fault Refusal :=
  .next (s.runOp tag d (isOp 0x122) (sealPlan .gcm true) Link.ivIn)

/-- GMAC_VERIFY (R158): Opcode 0x123 verifies a GMAC tag and reports AUTH_FAIL on mismatch. -/
def execGmacVerify (tag : BitVec 14) (d : LinkData) (s : State) : Outcome State Fault Refusal :=
  .next (s.runOp tag d (isOp 0x123) (openPlan .gcm true))

/-- XTS_ENCRYPT (R151): Opcode 0x128 encrypts data units in AES-XTS. -/
def execXtsEncrypt (tag : BitVec 14) (d : LinkData) (s : State) : Outcome State Fault Refusal :=
  .next (s.runOp tag d (isOp 0x128) (xtsPlan false))

/-- XTS_DECRYPT (R151): Opcode 0x129 decrypts data units in AES-XTS. -/
def execXtsDecrypt (tag : BitVec 14) (d : LinkData) (s : State) : Outcome State Fault Refusal :=
  .next (s.runOp tag d (isOp 0x129) (xtsPlan true))

/-- CCM_ENCRYPT (R147): Opcode 0x130 seals in AES-CCM. -/
def execCcmEncrypt (tag : BitVec 14) (d : LinkData) (s : State) : Outcome State Fault Refusal :=
  .next (s.runOp tag d (isOp 0x130) (sealPlan .ccm false) Link.ivIn)

/-- CCM_DECRYPT (R158): Opcode 0x131 checks the CCM tag before releasing plaintext. -/
def execCcmDecrypt (tag : BitVec 14) (d : LinkData) (s : State) : Outcome State Fault Refusal :=
  .next (s.runOp tag d (isOp 0x131) (openPlan .ccm false))

/-- KW_WRAP (R147): Opcode 0x138 wraps data with AES-KW. -/
def execKwWrap (tag : BitVec 14) (d : LinkData) (s : State) : Outcome State Fault Refusal :=
  .next (s.runOp tag d (isOp 0x138) kwWrapPlan)

/-- KW_UNWRAP (R158): Opcode 0x139 unwraps AES-KW data, releasing it only on a matching check value. -/
def execKwUnwrap (tag : BitVec 14) (d : LinkData) (s : State) : Outcome State Fault Refusal :=
  .next (s.runOp tag d (isOp 0x139) kwUnwrapPlan)

/-- KWP_WRAP (R147): Opcode 0x13A wraps data with AES-KWP. -/
def execKwpWrap (tag : BitVec 14) (d : LinkData) (s : State) : Outcome State Fault Refusal :=
  .next (s.runOp tag d (isOp 0x13A) kwpWrapPlan)

/-- KWP_UNWRAP (R149): Opcode 0x13B unwraps AES-KWP data, holding it on-block until the check passes. -/
def execKwpUnwrap (tag : BitVec 14) (d : LinkData) (s : State) : Outcome State Fault Refusal :=
  .next (s.runOp tag d (isOp 0x13B) kwpUnwrapPlan)

/-- CCP_ENCRYPT (R153): Opcode 0x140 seals with ChaCha20-Poly1305. -/
def execCcpEncrypt (tag : BitVec 14) (d : LinkData) (s : State) : Outcome State Fault Refusal :=
  .next (s.runOp tag d (isOp 0x140) (sealPlan .ccp false) Link.ivIn)

/-- CCP_DECRYPT (R158): Opcode 0x141 checks the Poly1305 tag before releasing plaintext. -/
def execCcpDecrypt (tag : BitVec 14) (d : LinkData) (s : State) : Outcome State Fault Refusal :=
  .next (s.runOp tag d (isOp 0x141) (openPlan .ccp false))

end Sys2Proof.Machine
end

