-- ==== Sys2Proof/Machine/CmdDigest.lean ====
section
/-! DEFINITION. Meanings of commands. The digest opcodes and contexts (07_digest.md). Each is the command's effect as a next state. -/

namespace Sys2Proof.Machine

open Host

/-- SHA2 (R170): Opcodes 0x200–0x203 compute a SHA-224/256/384/512 digest. -/
def execSha2 (tag : BitVec 14) (d : LinkData) (s : State) : Outcome State Fault Refusal :=
  .next (s.runDigest tag d (fun n => decide (0x200 ≤ n ∧ n ≤ 0x203)) (digestPlan (· - 0x1FF) false))

/-- SHA3 (R170): Opcodes 0x208–0x20B compute a SHA3 digest. -/
def execSha3 (tag : BitVec 14) (d : LinkData) (s : State) : Outcome State Fault Refusal :=
  .next (s.runDigest tag d (fun n => decide (0x208 ≤ n ∧ n ≤ 0x20B)) (digestPlan (· - 0x200) false))

/-- SHAKE (R170): Opcodes 0x20C and 0x20D produce AUX bytes of SHAKE output. -/
def execShake (tag : BitVec 14) (d : LinkData) (s : State) : Outcome State Fault Refusal :=
  .next (s.runDigest tag d (fun n => decide (n = 0x20C ∨ n = 0x20D)) (digestPlan (· - 0x200) true))

/-- HMAC (R172): Opcode 0x210 computes an HMAC tag under the slot's key or pre-computed states. -/
def execHmac (tag : BitVec 14) (d : LinkData) (s : State) : Outcome State Fault Refusal :=
  .next (s.runDigest tag d (isOp 0x210) hmacPlan)

/-- HKDF (R173): Opcode 0x218 derives output or a new slot with RFC 5869 HKDF. -/
def execHkdf (tag : BitVec 14) (d : LinkData) (s : State) : Outcome State Fault Refusal :=
  .next (s.runDigest tag d (isOp 0x218) (kdfPlan .hkdf))

/-- HKDF_EXTRACT (R173): Opcode 0x219 extracts a PRK into a new slot. -/
def execHkdfExtract (tag : BitVec 14) (d : LinkData) (s : State) : Outcome State Fault Refusal :=
  .next (s.runDigest tag d (isOp 0x219) (kdfPlan .extract))

/-- HKDF_EXPAND (R173): Opcode 0x21A expands a PRK slot into output or a new slot. -/
def execHkdfExpand (tag : BitVec 14) (d : LinkData) (s : State) : Outcome State Fault Refusal :=
  .next (s.runDigest tag d (isOp 0x21A) (kdfPlan .expand))

/-- KDF_CTR (R173): Opcode 0x220 runs the SP 800-108 counter-mode KDF. -/
def execKdfCtr (tag : BitVec 14) (d : LinkData) (s : State) : Outcome State Fault Refusal :=
  .next (s.runDigest tag d (isOp 0x220) (kdfPlan .ctr))

/-- SESS_START (R177): Opcode 0x2F0 opens a session context and absorbs its first part. -/
def execSessStart (tag : BitVec 14) (d : LinkData) (s : State) : Outcome State Fault Refusal :=
  .next (s.runDigest tag d (isOp 0x2F0) sessStartPlan)

/-- SESS_UPDATE (R177): Opcode 0x2F1 absorbs the next part into an open session. -/
def execSessUpdate (tag : BitVec 14) (d : LinkData) (s : State) : Outcome State Fault Refusal :=
  .next (s.runDigest tag d (isOp 0x2F1) sessUpdatePlan)

/-- SESS_FINISH (R177): Opcode 0x2F2 absorbs the last part, writes the result and closes the context. -/
def execSessFinish (tag : BitVec 14) (d : LinkData) (s : State) : Outcome State Fault Refusal :=
  .next (s.runDigest tag d (isOp 0x2F2) sessFinishPlan)

/-- SESS_ABORT (R177): Opcode 0x2F3 closes a session context. -/
def execSessAbort (tag : BitVec 14) (d : LinkData) (s : State) : Outcome State Fault Refusal :=
  .next (s.runDigest tag d (isOp 0x2F3) sessAbortPlan)

/-- SPILL_WRITE_DONE (R182): The write response of a context spill frees the resident entry. -/
def execSpillWriteDone (ctx : CtxRef) (s : State) : Outcome State Fault Refusal := .next (s.spillWritten ctx)

/-- CONTEXT_RESTORE (R183): The return of a spilled context read is authenticated and checked, or ends the context
with CONTEXT_LOST. -/
def execContextRestore (ctx : CtxRef) (data : List Byte) (s : State) : Outcome State Fault Refusal :=
  .next (s.ctxReturn ctx data)

/-- DL_SPILL_WRITE (R184): A write to DL_SPILL changes the context spill area only under the rules of R184. -/
def execDlSpillWrite (q : PortReq) (s : State) : Outcome State Fault Refusal := .next (s.portWrite 0x70018 q)

end Sys2Proof.Machine
end

