-- ==== Sys2Proof/Machine/CmdFault.lean ====
section
/-! DEFINITION. Meanings of commands. Faults, acknowledgement, injection and repair (13_faults_repair.md). Each is the command's effect as a next state. -/

namespace Sys2Proof.Machine

open Host

/-- CHECKER_REPORT (R320): A checker detects a fault, sends a fault message and, for a fencing kind at L3 or above,
signals its unit's fence. -/
def execCheckerReport (source : BitVec 12) (kind : Byte) (address : BitVec 44) (s : State) : Outcome State Fault Refusal :=
  .next (s.checker source.toNat kind.toNat address)

/-- FAULT_CLASSIFY (R328): The collector accepts a fault message, classifies it, holds records and acts at its level. -/
def execFaultClassify (source : BitVec 12) (s : State) : Outcome State Fault Refusal :=
  .next (s.classify source.toNat)

/-- COLLECTOR_CE (R329): A single-copy disagreement in the collector is voted away and reported as COLLECTOR_CE. -/
def execCollectorCe (address : BitVec 44) (s : State) : Outcome State Fault Refusal :=
  .next (s.raise 0x000 0x42 address)

/-- COLLECTOR_UE (R329): An uncorrectable collector error sets the lockdown latch directly. -/
def execCollectorUe (address : BitVec 44) (s : State) : Outcome State Fault Refusal := .next (s.collectorUe address)

/-- FC_ACK (R331): A write to FC_ACK acknowledges one or all held records, clearing those whose condition has ended. -/
def execFcAck (q : PortReq) (s : State) : Outcome State Fault Refusal := .next (s.portWrite 0xE0028 q.lower)

/-- FC_CTRL_WRITE (R333): A write to FC_CTRL sets event, capture and rejoin settings or is ignored for a reserved
encoding. -/
def execFcCtrlWrite (q : PortReq) (s : State) : Outcome State Fault Refusal := .next (s.portWrite 0xE0008 q.lower)

/-- SRC_CFG_WRITE (R328): A write to FC_SRC_CFG sets a source's count, window and level, or raises LOCK_VIOLATION when
locked. -/
def execSrcCfgWrite (q : PortReq) (s : State) : Outcome State Fault Refusal := .next (s.portWrite 0xE0018 q.lower)

/-- CAPTURE_REARM (R333): A write of 1 to FC_FIRST_INFO.VALID clears the capture and rearms it. -/
def execCaptureRearm (q : PortReq) (s : State) : Outcome State Fault Refusal := .next (s.command 0xE0040 0 1 1 q)

/-- INJECTION_GO (R334): A write of GO to FC_INJ arms inverted checks on the target, or sets DENIED. -/
def execInjectionGo (q : PortReq) (s : State) : Outcome State Fault Refusal := .next (s.command 0xE0048 24 1 1 q)

/-- RETURN (R342): FC_UNIT_CMD RETURN restarts an out-of-service unit and returns it after its known-answer test. -/
def execUnitReturn (q : PortReq) (s : State) : Outcome State Fault Refusal := .next (s.command 0xE0050 12 2 1 q)

/-- FC_UNIT_CMD_UNDEFINED (R342): An FC_UNIT_CMD write with another OP sets ERR. -/
def execFcUnitCmdUndefined (q : PortReq) (s : State) : Outcome State Fault Refusal :=
  .next (s.portWrite 0xE0050 (q.lower.undefinedOp 12 2 0 (fun n => decide (n = 1))))

/-- PROOFING_CYCLE (R338): A proofing cycle ends clean or failed, rejoining the unit after 1,000 clean cycles or
retiring it. -/
def execProofingCycle (unit : BitVec 12) (clean : Bool) (s : State) : Outcome State Fault Refusal :=
  .next (s.proofCycle unit.toNat clean)

end Sys2Proof.Machine
end

