-- ==== Sys2Proof/Machine/CmdFn.lean ====
section
/-! DEFINITION. Meanings of commands. The register port at large, the function table, resets, power states and event queues (02_functions.md). Each is the command's effect as a next state. -/

namespace Sys2Proof.Machine

open Host

/-- REGISTER_WRITE (R10): A register-port write to a register or offset that has no row of its own sets its fields by
their access codes, or is ignored under R8 and R9. -/
def execRegisterWrite (addr : BitVec 22) (q : PortReq) (s : State) : Outcome State Fault Refusal :=
  .next (s.portWrite (addr.toNat * 8) q)

/-- FT_LOAD (R29): FT_CMD LOAD copies the selected function's table entry into the staging registers. -/
def execFtLoad (q : PortReq) (s : State) : Outcome State Fault Refusal := .next (s.command 0x20008 0 4 1 q)

/-- FT_COMMIT (R31): FT_CMD COMMIT checks the staged entry in order and writes it into the function table, leaving the
function READY or ENABLED. -/
def execFtCommit (q : PortReq) (s : State) : Outcome State Fault Refusal := .next (s.command 0x20008 0 4 2 q)

/-- FT_ENABLE (R35): FT_CMD ENABLE moves a READY virtual function to ENABLED and restarts its poll timers. -/
def execFtEnable (q : PortReq) (s : State) : Outcome State Fault Refusal := .next (s.command 0x20008 0 4 3 q)

/-- FT_RESET_DRAIN (R41): FT_CMD RESET_DRAIN puts the function into RESETTING in drain mode at its reset point. -/
def execFtResetDrain (q : PortReq) (s : State) : Outcome State Fault Refusal := .next (s.command 0x20008 0 4 4 q)

/-- FT_RESET_SQUASH (R42): FT_CMD RESET_SQUASH puts the function into RESETTING and abandons every operation at the
reset point. -/
def execFtResetSquash (q : PortReq) (s : State) : Outcome State Fault Refusal := .next (s.command 0x20008 0 4 5 q)

/-- FT_UNBIND (R35): FT_CMD UNBIND returns a READY function to UNBOUND and releases its ranges. -/
def execFtUnbind (q : PortReq) (s : State) : Outcome State Fault Refusal := .next (s.command 0x20008 0 4 6 q)

/-- FT_CMD_UNDEFINED (R30): An FT_CMD write of an undefined OP clears ERR, sets ERR to 4 and carries out nothing. -/
def execFtCmdUndefined (q : PortReq) (s : State) : Outcome State Fault Refusal :=
  .next (s.portWrite 0x20008 (q.lower.undefinedOp 0 4 0 (fun n => decide (1 ≤ n ∧ n ≤ 6))))

/-- FT_NUMVF_WRITE (R34): A write to FT_NUMVF sets NUM_VF unless it is below a function not in UNBOUND, and the value
is presented on fi_numvf_o. -/
def execFtNumvfWrite (q : PortReq) (s : State) : Outcome State Fault Refusal := .next (s.portWrite 0x20040 q.lower)

/-- FLR_REQ (R36): A write of 1 to FN_CTRL.FLR_REQ requests a reset of the function in its FLR_MODE. -/
def execFlrReq (fn : BitVec 10) (q : PortReq) (s : State) : Outcome State Fault Refusal :=
  .next (s.command (fnPage fn.toNat 0x8) 0 1 1 q)

/-- FLR_REQUEST (R411): An FLR_REQUEST event on fi_evt starts a function reset, or is answered at once by
RESET_COMPLETE for an idle function. -/
def execFlrRequest (fn : BitVec 10) (parityOk : Bool) (s : State) : Outcome State Fault Refusal :=
  .next (s.flrMessage fn.toNat parityOk)

/-- DRAIN_TIMEOUT (R41): DRAIN_US elapsing during a drain abandons the remaining operations as in squash mode and
writes SQUASHED records for their links. -/
def execDrainTimeout (fn : BitVec 10) (s : State) : Outcome State Fault Refusal := .next (s.drainTimeout fn.toNat)

/-- RESET_COMPLETE (R43): When no tag is held and every write has its response, the function enters READY, RESET_DONE
is written and the reset-complete message is sent. -/
def execResetComplete (fn : BitVec 10) (s : State) : Outcome State Fault Refusal := .next (s.resetDone fn.toNat)

/-- PSTATE_NOTICE (R48): A write to FN_PSTATE.STATE clears ACCEPTED and flushes the function's unmasked pending
vectors. -/
def execPstateNotice (fn : BitVec 10) (q : PortReq) (s : State) : Outcome State Fault Refusal :=
  .next (s.portWrite (fnPage fn.toNat 0x10) q.lower)

/-- EQ_CTRL_WRITE (R49): A write to FN_EQ_CTRL enables or disables the event queue, resetting indices and phase on
enable. -/
def execEqCtrlWrite (fn : BitVec 10) (q : PortReq) (s : State) : Outcome State Fault Refusal :=
  .next (s.portWrite (fnPage fn.toNat 0x3010) q)

/-- EQ_BASE_WRITE (R49): A write to FN_EQ_BASE changes the queue address only while EN is 0. -/
def execEqBaseWrite (fn : BitVec 10) (q : PortReq) (s : State) : Outcome State Fault Refusal :=
  .next (s.portWrite (fnPage fn.toNat 0x3008) q)

/-- EQ_CONS_WRITE (R51): A write to FN_EQ_CONS that returns space to a full queue writes one EQ_OVERFLOW record. -/
def execEqConsWrite (fn : BitVec 10) (q : PortReq) (s : State) : Outcome State Fault Refusal :=
  .next (s.portWrite (fnPage fn.toNat 0x3018) q.upper)

/-- EQ_LOST_READ (R407): A read of FN_EQ_LOST returns the lost count and clears it. -/
def execEqLostRead (fn : BitVec 10) (q : PortReq) (s : State) : Outcome State Fault Refusal :=
  .next (s.portRead (fnPage fn.toNat 0x3020) q)

/-- REGISTER_READ (R408): A register-port read is checked for parity, page owner and byte enables, and a refused read
returns 0 with an error response, a denied one raising PAGE_DENIED. -/
def execRegisterRead (addr : BitVec 22) (q : PortReq) (s : State) : Outcome State Fault Refusal :=
  .next (s.portRead (addr.toNat * 8) q)

end Sys2Proof.Machine
end

