-- ==== Sys2Proof/Machine/CmdMail.lean ====
section
/-! DEFINITION. Meanings of commands. Mailboxes and the DMA mover (12_mailboxes_dma.md). Each is the command's effect as a next state. -/

namespace Sys2Proof.Machine

open Host

/-- MAILBOX_GO (R303): A write of GO copies the send block into the receiver's buffer, or discards, refuses or ignores
it. -/
def execMailboxGo (box : MailBox) (q : PortReq) (s : State) : Outcome State Fault Refusal := .next (s.mailGo box q)

/-- MAILBOX_RELEASE (R305): A write of 1 to MB_RX_CTRL.FULL releases the receive buffer. -/
def execMailboxRelease (box : MailBox) (q : PortReq) (s : State) : Outcome State Fault Refusal :=
  .next (s.mailRelease box q)

/-- MB_STAT_WRITE (R308): A write to FN_MB_STAT sets VEC_EN and VECTOR, leaving VEC_EN 0 for a vector out of range. -/
def execMbStatWrite (fn : BitVec 10) (q : PortReq) (s : State) : Outcome State Fault Refusal :=
  .next (s.portWrite (fnPage fn.toNat 0x1080) q)

/-- PING (R310): Mailbox request 0x01 is answered with its words unchanged. -/
def execMbPing (fn : BitVec 10) (s : State) : Outcome State Fault Refusal :=
  .next (s.mbAnswer fn.toNat (fun c => decide (c = 1)) none true (fun _ ws => ws))

/-- VERSION (R310): Mailbox request 0x02 is answered with ID_VERSION, firmware version and boot count. -/
def execMbVersion (fn : BitVec 10) (s : State) : Outcome State Fault Refusal :=
  .next (s.mbAnswer fn.toNat (fun c => decide (c = 2)) (some 0) true (fun s _ => mbVersionWords s))

/-- CAPACITY (R310): Mailbox request 0x03 is answered with the pool, profile and port status registers. -/
def execMbCapacity (fn : BitVec 10) (s : State) : Outcome State Fault Refusal :=
  .next (s.mbAnswer fn.toNat (fun c => decide (c = 3)) (some 0) true (fun s _ => mbCapacityWords s))

/-- WINDOW (R310): Mailbox request 0x04 is answered with the requester's vault window. -/
def execMbWindow (fn : BitVec 10) (s : State) : Outcome State Fault Refusal :=
  .next (s.mbAnswer fn.toNat (fun c => decide (c = 4)) (some 0) true (fun s _ => mbWindowWords fn.toNat s))

/-- FUNCTION (R310): Mailbox request 0x05 is answered with the requester's function table entry. -/
def execMbFunction (fn : BitVec 10) (s : State) : Outcome State Fault Refusal :=
  .next (s.mbAnswer fn.toNat (fun c => decide (c = 5)) (some 0) true (fun s _ => mbFunctionWords fn.toNat s))

/-- UNKNOWN_CODE (R310): A mailbox request with an unlisted CODE is answered with RESULT UNKNOWN_CODE. -/
def execMbUnknownCode (fn : BitVec 10) (s : State) : Outcome State Fault Refusal :=
  .next (s.mbAnswer fn.toNat (fun c => !decide (1 ≤ c ∧ c ≤ 5)) none false (fun _ _ => []))

/-- DMA_START (R314): DM_CTRL START starts or resumes a channel, or halts it with ERR CONFIG. -/
def execDmaStart (ch : BitVec 5) (q : PortReq) (s : State) : Outcome State Fault Refusal :=
  .next (s.unitWrite (0xD0000 + ch.toNat * 0x40) (q.lower.force 0 1 1))

/-- DMA_PAUSE (R317): DM_CTRL PAUSE stops issuing reads and drains the channel to PAUSED. -/
def execDmaPause (ch : BitVec 5) (q : PortReq) (s : State) : Outcome State Fault Refusal :=
  .next (s.unitWrite (0xD0000 + ch.toNat * 0x40) (q.lower.force 1 1 1))

/-- DMA_ABORT (R318): DM_CTRL ABORT stops the channel and ends it in HALTED with ERR ABORTED. -/
def execDmaAbort (ch : BitVec 5) (q : PortReq) (s : State) : Outcome State Fault Refusal :=
  .next (s.unitWrite (0xD0000 + ch.toNat * 0x40) (q.lower.force 2 1 1))

/-- DMA_BURST_DONE (R316): Write responses advance the channel registers over the completed prefix, ending in DONE,
PAUSED or HALTED. -/
def execDmaBurstDone (ch : BitVec 5) (burst : Nat) (s : State) : Outcome State Fault Refusal :=
  .next (s.dmaBurstDone ch.toNat burst)

/-- DMA_BURST_FAIL (R318): A failed burst is scheduled for retry or, with retries used up or denied, halts the
channel. -/
def execDmaBurstFail (ch : BitVec 5) (burst : Nat) (denied : Bool) (s : State) : Outcome State Fault Refusal :=
  .next (s.dmaBurstFail ch.toNat burst denied)

/-- DMA_RETRY_TIMER (R318): After 2^(n−1) µs the failed burst is issued again. -/
def execDmaRetryTimer (ch : BitVec 5) (burst : Nat) (s : State) : Outcome State Fault Refusal :=
  .next (s.dmaRetry ch.toNat burst)

/-- DMA_CRC_WRITTEN (R316): The response to the stored CRC write puts the channel into DONE. -/
def execDmaCrcWritten (ch : BitVec 5) (s : State) : Outcome State Fault Refusal := .next (s.dmaCrcWritten ch.toNat)

/-- DMA_READ_RETURN (R317): The read data of a DMA burst arrives and the channel issues the burst's write, or discards
it under ABORT. -/
def execDmaReadReturn (ch : BitVec 5) (burst : Nat) (data : List Byte) (s : State) : Outcome State Fault Refusal :=
  .next (s.dmaReadReturn ch.toNat burst data)

end Sys2Proof.Machine
end

