-- ==== Sys2Proof/Machine/CmdMgmt.lean ====
section
/-! DEFINITION. Meanings of commands. Plate mark, etch state and boot (11_burin.md, 14_protection.md). Each is the command's effect as a next state. -/

namespace Sys2Proof.Machine

open Host

/-- PLATE_MARK (R373): Opcode 0x0A0 forms the claims map and returns it signed in a COSE_Sign structure. -/
def execPlateMark (tag : BitVec 14) (d : LinkData) (s : State) : Outcome State Fault Refusal :=
  .next (s.runOp tag d (isOp 0x0A0) plateMarkPlan)

/-- PLATE_KEYS (R372): Opcode 0x0A1 returns the public keys of authority slots 5 and 6. -/
def execPlateKeys (tag : BitVec 14) (d : LinkData) (s : State) : Outcome State Fault Refusal :=
  .next (s.runOp tag d (isOp 0x0A1) plateKeysPlan)

/-- ETCH_LOAD (R299): Opcode 0x0E0 verifies a signed bundle and replaces the etch state atomically. -/
def execEtchLoad (tag : BitVec 14) (d : LinkData) (s : State) : Outcome State Fault Refusal :=
  .next (s.runOp tag d (isOp 0x0E0) etchLoadPlan)

/-- ETCH_CLEAR (R299): Opcode 0x0E1 empties the etch state. -/
def execEtchClear (tag : BitVec 14) (d : LinkData) (s : State) : Outcome State Fault Refusal :=
  .next (s.runOp tag d (isOp 0x0E1) etchClearPlan)

/-- ETCHED_COMMAND (R295): An etched opcode 0xE00 + n runs its dispatched routine on Burin and writes its output on
OK. -/
def execEtchedCommand (tag : BitVec 14) (d : LinkData) (s : State) : Outcome State Fault Refusal :=
  .next (s.runOp tag d (fun n => decide (0xE00 ≤ n ∧ n < 0xF00)) etchedPlan)

/-- ROUTINE_BUDGET (R296): A routine exceeding 50 µs traps with BUDGET and its link completes with OVERLOAD. -/
def execRoutineBudget (tag : BitVec 14) (s : State) : Outcome State Fault Refusal := .next (s.routineBudget tag.toNat)

/-- ETCH_OPEN (R298): A write of 1 to BU_ETCH_CTRL.OPEN asks for direct etch writing, refused outside DEVELOPMENT or
when locked. -/
def execEtchOpen (q : PortReq) (s : State) : Outcome State Fault Refusal := .next (s.command 0xB0100 0 1 1 q)

/-- ETCH_OPEN_DONE (R298): When no etched link runs, OPEN takes effect and BUSY clears. -/
def execEtchOpenDone (s : State) : Outcome State Fault Refusal := .next s.etchOpenDone

/-- ETCH_CLOSE (R298): Clearing OPEN validates the etch state, empties it if invalid and recomputes the measurement. -/
def execEtchClose (q : PortReq) (s : State) : Outcome State Fault Refusal := .next (s.command 0xB0100 0 1 0 q)

/-- ETCH_CTRL_CLEAR (R299): A write of 1 to BU_ETCH_CTRL.CLEAR empties the etch state as ETCH_CLEAR does. -/
def execEtchCtrlClear (q : PortReq) (s : State) : Outcome State Fault Refusal := .next (s.command 0xB0100 1 1 1 q)

/-- ETCH_LOCK (R297): A write of 1 to BU_ETCH_CTRL.LOCK closes every way of loading the etch state until block reset. -/
def execEtchLock (q : PortReq) (s : State) : Outcome State Fault Refusal := .next (s.command 0xB0100 2 1 1 q)

/-- ETCH_DATA_WRITE (R298): A write to BU_ETCH_DATA writes the unit at ADDR while OPEN is 1, advancing ADDR with
AUTOINC. -/
def execEtchDataWrite (q : PortReq) (s : State) : Outcome State Fault Refusal := .next (s.portWrite 0xB0110 q)

/-- ETCH_DATA_READ (R298): A read of BU_ETCH_DATA returns the unit at ADDR and advances ADDR when AUTOINC is set. -/
def execEtchDataRead (q : PortReq) (s : State) : Outcome State Fault Refusal := .next (s.portRead 0xB0110 q)

/-- BOOT_PTR_WRITE (R288): A write of BU_BOOT_PTR with VALID 1 lets the boot ROM read the firmware image. -/
def execBootPtrWrite (q : PortReq) (s : State) : Outcome State Fault Refusal :=
  .next (s.portWrite 0xB0008 (q.force 0 1 1))

/-- BOOT_VERIFY (R288): When the image has been read, the boot ROM checks and verifies it and starts Burin or enters
BOOT_FAIL. -/
def execBootVerify (image : List Byte) (busError : Bool) (s : State) : Outcome State Fault Refusal :=
  .next (s.bootAnswer image busError)

end Sys2Proof.Machine
end

