-- ==== Sys2Proof/Machine/CmdPk.lean ====
section
/-! DEFINITION. Meanings of commands. The public-key opcodes and the random number generator (08_public_key.md). Each is the command's effect as a next state. -/

namespace Sys2Proof.Machine

open Host

/-- RSA_OAEP_ENCRYPT (R198): Opcode 0x300 encrypts with RSA-OAEP. -/
def execRsaOaepEncrypt (tag : BitVec 14) (d : LinkData) (s : State) : Outcome State Fault Refusal :=
  .next (s.runOp tag d (isOp 0x300) oaepEncryptPlan)

/-- RSA_OAEP_DECRYPT (R201): Opcode 0x301 decrypts RSA-OAEP, failing decoding with AUTH_FAIL in constant time. -/
def execRsaOaepDecrypt (tag : BitVec 14) (d : LinkData) (s : State) : Outcome State Fault Refusal :=
  .next (s.runOp tag d (isOp 0x301) oaepDecryptPlan)

/-- RSA_PSS_SIGN (R198): Opcode 0x302 signs a hash with RSA-PSS. -/
def execRsaPssSign (tag : BitVec 14) (d : LinkData) (s : State) : Outcome State Fault Refusal :=
  .next (s.runOp tag d (isOp 0x302) (rsaSignPlan true))

/-- RSA_PSS_VERIFY (R199): Opcode 0x303 verifies an RSA-PSS signature. -/
def execRsaPssVerify (tag : BitVec 14) (d : LinkData) (s : State) : Outcome State Fault Refusal :=
  .next (s.runOp tag d (isOp 0x303) (rsaVerifyPlan true))

/-- RSA_PKCS1_SIGN (R198): Opcode 0x304 signs a hash with PKCS #1 v1.5. -/
def execRsaPkcs1Sign (tag : BitVec 14) (d : LinkData) (s : State) : Outcome State Fault Refusal :=
  .next (s.runOp tag d (isOp 0x304) (rsaSignPlan false))

/-- RSA_PKCS1_VERIFY (R199): Opcode 0x305 verifies a PKCS #1 v1.5 signature. -/
def execRsaPkcs1Verify (tag : BitVec 14) (d : LinkData) (s : State) : Outcome State Fault Refusal :=
  .next (s.runOp tag d (isOp 0x305) (rsaVerifyPlan false))

/-- RSA_PUBLIC_RAW (R198): Opcode 0x308 computes m^e mod n. -/
def execRsaPublicRaw (tag : BitVec 14) (d : LinkData) (s : State) : Outcome State Fault Refusal :=
  .next (s.runOp tag d (isOp 0x308) rsaRawPlan)

/-- ECDSA_KEYGEN (R202): Opcode 0x310 generates an ECDSA key pair into a new slot. -/
def execEcdsaKeygen (tag : BitVec 14) (d : LinkData) (s : State) : Outcome State Fault Refusal :=
  .next (s.runOp tag d (isOp 0x310) (keygenPlan algEcdsa 0x20))

/-- ECDSA_SIGN (R204): Opcode 0x311 signs a hash with ECDSA and checks the signature before release. -/
def execEcdsaSign (tag : BitVec 14) (d : LinkData) (s : State) : Outcome State Fault Refusal :=
  .next (s.runOp tag d (isOp 0x311) ecdsaSignPlan)

/-- ECDSA_VERIFY (R199): Opcode 0x312 verifies an ECDSA signature. -/
def execEcdsaVerify (tag : BitVec 14) (d : LinkData) (s : State) : Outcome State Fault Refusal :=
  .next (s.runOp tag d (isOp 0x312) ecdsaVerifyPlan)

/-- EDDSA_KEYGEN (R202): Opcode 0x318 generates an EdDSA key into a new slot. -/
def execEddsaKeygen (tag : BitVec 14) (d : LinkData) (s : State) : Outcome State Fault Refusal :=
  .next (s.runOp tag d (isOp 0x318) (keygenPlan algEddsa 0x21))

/-- EDDSA_SIGN (R204): Opcode 0x319 signs a message with EdDSA. -/
def execEddsaSign (tag : BitVec 14) (d : LinkData) (s : State) : Outcome State Fault Refusal :=
  .next (s.runOp tag d (isOp 0x319) eddsaSignPlan)

/-- EDDSA_VERIFY (R199): Opcode 0x31A verifies an EdDSA signature with the cofactored equation. -/
def execEddsaVerify (tag : BitVec 14) (d : LinkData) (s : State) : Outcome State Fault Refusal :=
  .next (s.runOp tag d (isOp 0x31A) eddsaVerifyPlan)

/-- EDDSA_VERIFY_BATCH (R211): Opcode 0x31B verifies a batch of EdDSA items by randomised checks and bisection. -/
def execEddsaVerifyBatch (tag : BitVec 14) (d : LinkData) (s : State) : Outcome State Fault Refusal :=
  .next (s.runOp tag d (isOp 0x31B) eddsaBatchPlan)

/-- XDH_KEYGEN (R202): Opcode 0x320 generates an X25519 or X448 key into a new slot. -/
def execXdhKeygen (tag : BitVec 14) (d : LinkData) (s : State) : Outcome State Fault Refusal :=
  .next (s.runOp tag d (isOp 0x320) (keygenPlan algXdh 0x22))

/-- XDH_AGREE (R204): Opcode 0x321 computes a shared secret twice and compares before release. -/
def execXdhAgree (tag : BitVec 14) (d : LinkData) (s : State) : Outcome State Fault Refusal :=
  .next (s.runOp tag d (isOp 0x321) xdhAgreePlan)

/-- PK_PUBLIC (R198): Opcode 0x3F0 returns the public key of a classical slot. -/
def execPkPublic (tag : BitVec 14) (d : LinkData) (s : State) : Outcome State Fault Refusal :=
  .next (s.runOp tag d (isOp 0x3F0) (pkPublicPlan algClassic bindingClassic))

/-- MLKEM_KEYGEN (R202): Opcode 0x400 generates an ML-KEM key into a new slot. -/
def execMlkemKeygen (tag : BitVec 14) (d : LinkData) (s : State) : Outcome State Fault Refusal :=
  .next (s.runOp tag d (isOp 0x400) (keygenPlan algKem 0x24))

/-- MLKEM_ENCAPS (R202): Opcode 0x401 encapsulates a shared secret to output or a slot. -/
def execMlkemEncaps (tag : BitVec 14) (d : LinkData) (s : State) : Outcome State Fault Refusal :=
  .next (s.runOp tag d (isOp 0x401) encapsPlan)

/-- MLKEM_DECAPS (R201): Opcode 0x402 decapsulates, yielding the implicit-rejection key on a bad ciphertext. -/
def execMlkemDecaps (tag : BitVec 14) (d : LinkData) (s : State) : Outcome State Fault Refusal :=
  .next (s.runOp tag d (isOp 0x402) decapsPlan)

/-- MLDSA_KEYGEN (R202): Opcode 0x410 generates an ML-DSA key into a new slot. -/
def execMldsaKeygen (tag : BitVec 14) (d : LinkData) (s : State) : Outcome State Fault Refusal :=
  .next (s.runOp tag d (isOp 0x410) (keygenPlan algDsa 0x25))

/-- MLDSA_SIGN (R204): Opcode 0x411 signs with ML-DSA and verifies before release. -/
def execMldsaSign (tag : BitVec 14) (d : LinkData) (s : State) : Outcome State Fault Refusal :=
  .next (s.runOp tag d (isOp 0x411) mldsaSignPlan)

/-- MLDSA_VERIFY (R199): Opcode 0x412 verifies an ML-DSA signature. -/
def execMldsaVerify (tag : BitVec 14) (d : LinkData) (s : State) : Outcome State Fault Refusal :=
  .next (s.runOp tag d (isOp 0x412) mldsaVerifyPlan)

/-- MLDSA_VERIFY_BATCH (R212): Opcode 0x413 verifies ML-DSA items one by one in item order. -/
def execMldsaVerifyBatch (tag : BitVec 14) (d : LinkData) (s : State) : Outcome State Fault Refusal :=
  .next (s.runOp tag d (isOp 0x413) mldsaBatchPlan)

/-- HSS_VERIFY (R198): Opcode 0x420 verifies an HSS signature. -/
def execHssVerify (tag : BitVec 14) (d : LinkData) (s : State) : Outcome State Fault Refusal :=
  .next (s.runOp tag d (isOp 0x420) hssVerifyPlan)

/-- SLHDSA_VERIFY (R198): Opcode 0x428 verifies an SLH-DSA signature. -/
def execSlhdsaVerify (tag : BitVec 14) (d : LinkData) (s : State) : Outcome State Fault Refusal :=
  .next (s.runOp tag d (isOp 0x428) slhVerifyPlan)

/-- PK_PUBLIC_PQ (R198): Opcode 0x4F0 returns the public key of a post-quantum slot. -/
def execPkPublicPq (tag : BitVec 14) (d : LinkData) (s : State) : Outcome State Fault Refusal :=
  .next (s.runOp tag d (isOp 0x4F0) (pkPublicPlan algPq bindingPq))

/-- RANDOM (R200): Opcode 0x700 returns AUX bytes from the DRBG. -/
def execRandom (tag : BitVec 14) (d : LinkData) (s : State) : Outcome State Fault Refusal :=
  .next (s.runOp tag d (isOp 0x700) randomPlan)

/-- IMPRESSION_TIMER (R207): After each 20 µs of execution a core writes an impression at its next safe point. -/
def execImpressionTimer (unit : BitVec 12) (d : LinkData) (s : State) : Outcome State Fault Refusal :=
  .next (s.impression unit.toNat d)

/-- RESEED_TIMER (R217): INTERVAL_MS after the last reseed, the DRBG reseeds. -/
def execReseedTimer (s : State) : Outcome State Fault Refusal := .next s.reseedDue

/-- RESEED (R217): A write of 1 to PK_RNG_CTRL.RESEED requests a reseed. -/
def execReseed (q : PortReq) (s : State) : Outcome State Fault Refusal := .next (s.command 0x80200 24 1 1 q)

/-- HEALTH_TEST_FAIL (R218): A failed health test zeroises the DRBG, sets STATE ERROR and restarts D9. -/
def execHealthTestFail (adaptive : Bool) (s : State) : Outcome State Fault Refusal := .next (s.healthTest adaptive)

/-- RNG_RESTART (R218): A write of 1 to PK_RNG_CTRL.RESTART leaves ERROR and restarts the source. -/
def execRngRestart (q : PortReq) (s : State) : Outcome State Fault Refusal := .next (s.command 0x80200 25 1 1 q)

/-- RAW_MODE_WRITE (R220): A write to RAW_MODE enters or leaves raw sample access in MANUFACTURE or DEVELOPMENT only. -/
def execRawModeWrite (q : PortReq) (s : State) : Outcome State Fault Refusal := .next (s.portWrite 0x80200 q.lower)

/-- PK_RNG_CTRL_WRITE (R217): A write of INTERVAL_MS or REQ_LOG2 sets them, or is ignored when out of range. -/
def execPkRngCtrlWrite (q : PortReq) (s : State) : Outcome State Fault Refusal := .next (s.portWrite 0x80200 q.lower)

/-- RNG_RAW_READ (R220): A read of PK_RNG_RAW returns the next 64 raw samples while STATE is RAW. -/
def execRngRawRead (q : PortReq) (s : State) : Outcome State Fault Refusal := .next (s.portRead 0x80218 q)

/-- RESEED_DONE (R217): A DRBG reseed finishes once the pool holds 512 bits, clearing RESEED and releasing the
requests that waited. -/
def execReseedDone (s : State) : Outcome State Fault Refusal := .next s.reseedDone

end Sys2Proof.Machine
end

