-- ==== Sys2Proof/Machine/CmdPower.lean ====
section
/-! DEFINITION. Meanings of commands. Domains, start-up, resets, time and reference (15_power_startup.md). Each is the command's effect as a next state. -/

namespace Sys2Proof.Machine

open Host

/-- PWR_ACK (R377): pwr_ack_i following a request advances the domain's switch, restart or wake. -/
def execPwrAck (dom : BitVec 6) (level : Bool) (s : State) : Outcome State Fault Refusal :=
  .next (s.pwrAck dom.toNat level)

/-- DOMAIN_RESTART_DONE (R378): A restarted domain finishes restore and lock, releases isolation and reaches ON. -/
def execDomainRestartDone (dom : BitVec 6) (pass : Bool) (s : State) : Outcome State Fault Refusal :=
  .next (s.domainDone dom.toNat pass)

/-- DOMAIN_ACK_TIMEOUT (R380): A power acknowledgement missing 15 µs after its request raises DOMAIN_FAIL. -/
def execDomainAckTimeout (dom : BitVec 6) (s : State) : Outcome State Fault Refusal := .next (s.ackTimeout dom.toNat)

/-- DOMAIN_FAIL_1MS (R343): 1 ms after an unanswered request the domain's unit is retired or taken out of service. -/
def execDomainFail1ms (dom : BitVec 6) (s : State) : Outcome State Fault Refusal := .next (s.fail1ms dom.toNat)

/-- HOLD_OFF (R382): A write of PW_DOM_CTRL.HOLD_OFF holds a domain off or releases it to restart and proof. -/
def execHoldOff (q : PortReq) (s : State) : Outcome State Fault Refusal := .next (s.portWrite 0x100028 q.lower)

/-- BLOCK_RESET (R391): A write of 1 to PW_CTRL.BLOCK_RESET requests a block reset. -/
def execBlockReset (q : PortReq) (s : State) : Outcome State Fault Refusal := .next (s.command 0x100018 0 1 1 q)

/-- BLOCK_RESET_INPUT (R392): Assertion of rst_blk_i quiesces the block, powers off switched domains and runs start-up
on release. -/
def execBlockResetInput (level : Bool) (s : State) : Outcome State Fault Refusal := .next (s.blkInput level)

/-- POWER_ON_RESET (R385): Deassertion of rst_por_i runs the start-up sequence from step 1. -/
def execPowerOnReset (ids : Identity) (s : State) : Outcome State Fault Refusal := .next (s.porDeassert ids)

/-- STARTUP_READY (R388): When the unseal step completes the block reaches READY and writes its start-up records. -/
def execStartupReady (uk : BitVec 256) (s : State) : Outcome State Fault Refusal := .next (s.startupReady uk)

/-- MAIN_POWER_LOSS (R393): D0 detects main power out of range, latches TS_LOSS_TIME and runs on the backup cell. -/
def execMainPowerLoss (s : State) : Outcome State Fault Refusal := .next s.powerLoss

/-- MAIN_POWER_RETURN (R394): On main power's return D0 switches back to main supply before start-up. -/
def execMainPowerReturn (s : State) : Outcome State Fault Refusal := .next s.powerReturn

/-- REF_LOST (R14): The 100 MHz reference absent for over 10 µs makes the generators hold frequency and raises
REF_LOST. -/
def execRefLost (s : State) : Outcome State Fault Refusal := .next s.refLost

/-- HOLDOVER (R383): After 1 ms without the reference the generators step down to 90% and HOLDOVER is set. -/
def execHoldover (s : State) : Outcome State Fault Refusal := .next s.refHoldover

/-- REF_RETURN (R383): On the reference's return the generators relock island by island and REF_LOST's condition ends. -/
def execRefReturn (s : State) : Outcome State Fault Refusal := .next s.refReturn

/-- TIME_UPDATE (R418): A toggle of tm_tog_i presents a new time-of-day value to the block. -/
def execTimeUpdate (tm : DWord) (s : State) : Outcome State Fault Refusal := .next (s.timeUpdate tm)

/-- POWER_ON_RESET_ASSERTED (R419): Assertion of rst_por_i puts every output to its reset value and resets the block's
state except D0 and the collector's kept items. -/
def execPowerOnResetAsserted (s : State) : Outcome State Fault Refusal := .next s.porAssert

/-- IDENTITY_VALID (R415): id_valid_i rising lets start-up step 1 latch the identity and life-cycle code and continue. -/
def execIdentityValid (ids : Identity) (s : State) : Outcome State Fault Refusal := .next (s.identityValid ids)

end Sys2Proof.Machine
end

