-- ==== Sys2Proof/Machine/CmdRing.lean ====
section
/-! DEFINITION. Meanings of commands. Doorbells, ring fetch, issue and completion (03_rings.md). Each is the command's effect as a next state. -/

namespace Sys2Proof.Machine

open Host

/-- KICK (R62): FN_DOORBELL KICK starts a header read of the ring, or one further read after the read in progress. -/
def execKick (fn : BitVec 10) (q : PortReq) (s : State) : Outcome State Fault Refusal :=
  .next (s.portWrite (fnPage fn.toNat 0x0) (q.force 14 2 0))

/-- DOORBELL_ENABLE (R56): FN_DOORBELL ENABLE makes the ring enabling and issues the read of its header. -/
def execDoorbellEnable (fn : BitVec 10) (q : PortReq) (s : State) : Outcome State Fault Refusal :=
  .next (s.portWrite (fnPage fn.toNat 0x0) (q.whole.force 14 2 1))

/-- DOORBELL_DISABLE (R86): FN_DOORBELL DISABLE puts the ring into STOPPING, stops fetching and discards unissued
entries. -/
def execDoorbellDisable (fn : BitVec 10) (q : PortReq) (s : State) : Outcome State Fault Refusal :=
  .next (s.portWrite (fnPage fn.toNat 0x0) (q.whole.force 14 2 2))

/-- RT_ENABLE (R59): RT_CMD ENABLE enables the selected pool ring with the header at RT_HDR, as the doorbell ENABLE
does. -/
def execRtEnable (q : PortReq) (s : State) : Outcome State Fault Refusal := .next (s.command 0x30008 0 2 1 q)

/-- RT_DISABLE (R59): RT_CMD DISABLE disables the selected pool ring, as the doorbell DISABLE does. -/
def execRtDisable (q : PortReq) (s : State) : Outcome State Fault Refusal := .next (s.command 0x30008 0 2 2 q)

/-- RT_CMD_UNDEFINED (R59): An RT_CMD write with an undefined OP sets ERR to 3 and does nothing. -/
def execRtCmdUndefined (q : PortReq) (s : State) : Outcome State Fault Refusal :=
  .next (s.portWrite 0x30008 (q.lower.undefinedOp 0 2 0 (fun n => decide (1 ≤ n ∧ n ≤ 2))))

/-- ENABLE_CHECK (R56): The return of the enable header read checks the header and accepts the ring as ENABLED or
refuses it with CONFIG or BUS_ERROR. -/
def execEnableCheck (ring : BitVec 14) (data : List Byte) (s : State) : Outcome State Fault Refusal :=
  .next (s.enableReturn ring.toNat data)

/-- HEADER_READ_RETURN (R60): The return of a header read checks the indices and issues the entry reads it makes
visible. -/
def execHeaderReadReturn (ring : BitVec 14) (data : List Byte) (s : State) : Outcome State Fault Refusal :=
  .next (s.headerReturn ring.toNat data)

/-- POLL_TIMER (R62): POLL_US after the previous header read, the block issues a header read of the ring. -/
def execPollTimer (ring : BitVec 14) (s : State) : Outcome State Fault Refusal := .next (s.poll ring.toNat)

/-- ENTRY_READ_RETURN (R74): Returned entries are checked for form, and a malformed packet stops, halts or halts the
block as R75 states. -/
def execEntryReadReturn (ring : BitVec 14) (data : List Byte) (s : State) : Outcome State Fault Refusal :=
  .next (s.entryReturn ring.toNat data)

/-- LINK_TABLE_READ_RETURN (R71): The return of an INDIRECT packet's link table lets the whole packet be checked for
form. -/
def execLinkTableReadReturn (ring : BitVec 14) (data : List Byte) (s : State) : Outcome State Fault Refusal :=
  .next (s.tableReturn ring.toNat data)

/-- FETCH_ERROR (R85): A failed header, entry or link-table read stops the ring fetching until its issued operations
end. -/
def execFetchError (ring : BitVec 14) (what : FetchKind) (s : State) : Outcome State Fault Refusal :=
  .next (s.fetchError ring.toNat what)

/-- PACKET_ISSUE (R64): A well-formed packet with tags, quota and completion room is issued atomically, admitted or
refused for class D, and SQ_CONS published. -/
def execPacketIssue (ring : BitVec 14) (s : State) : Outcome State Fault Refusal := .next (s.issueNext ring.toNat)

/-- LINK_END (R91): When a link ends, the next link is queued or the chain fails, and at the packet's end its
completion records are written and tags released. -/
def execLinkEnd (tag : BitVec 14) (s : State) : Outcome State Fault Refusal := .next (s.linkEnded tag.toNat)

/-- CQ_PROD_UPDATE (R81): After the write responses of the records it covers, the block writes CQ_PROD to the ring
header. -/
def execCqProdUpdate (ring : BitVec 14) (upTo : Word) (s : State) : Outcome State Fault Refusal :=
  .next (s.cqProdWrite ring.toNat upTo)

/-- COMPLETION_WRITE_FAIL (R82): A failed completion record write stops further records on the ring, which enters
STOPPED once its operations end. -/
def execCompletionWriteFail (ring : BitVec 14) (s : State) : Outcome State Fault Refusal :=
  .next (s.recordFail ring.toNat)

/-- RING_STOP_COMPLETE (R86): When a STOPPING ring has no issued operation left, SQ_CONS, CQ_PROD and STATE are
written and RING_STOPPED is recorded. -/
def execRingStopComplete (ring : BitVec 14) (s : State) : Outcome State Fault Refusal := .next (s.ringStop ring.toNat)

/-- NOP (R73): The NOP opcode completes with OK after every earlier packet of the ring, using no engine. -/
def execNop (tag : BitVec 14) (s : State) : Outcome State Fault Refusal := .next (s.nopLink tag.toNat)

/-- UNSUPPORTED_OPCODE (R72): An undefined opcode in an implemented range, or an unregistered etched opcode, completes
with UNSUPPORTED. -/
def execUnsupportedOpcode (tag : BitVec 14) (s : State) : Outcome State Fault Refusal :=
  .next (s.undefinedLink tag.toNat)

end Sys2Proof.Machine
end

