-- ==== Sys2Proof/Machine/CmdSeq.lean ====
section
/-! DEFINITION. Meanings of commands. Scheduling, profiles, vectors and the function port (04_chains.md). Each is the command's effect as a next state. -/

namespace Sys2Proof.Machine

open Host

/-- AGE_TIMER (R99): A class P or B link that has waited AGE_US without starting is raised one priority step. -/
def execAgeTimer (tag : BitVec 14) (s : State) : Outcome State Fault Refusal := .next (s.ageLink tag.toNat)

/-- SUSPEND_POINT (R100): At its next segment, block boundary, impression or mark, a borrowed or lower-class link is
suspended and the waiting class D link takes the unit. -/
def execSuspendPoint (tag : BitVec 14) (consumed : BitVec 33) (d : LinkData) (s : State) : Outcome State Fault Refusal :=
  .next (s.suspendLink tag.toNat consumed.toNat d)

/-- SC_SPILL_WRITE (R96): A write to SC_SPILL changes the chain spill area only under the rules of R96. -/
def execScSpillWrite (q : PortReq) (s : State) : Outcome State Fault Refusal := .next (s.portWrite 0x40018 q)

/-- ADMIT_READ (R407): A read of SC_ADMIT returns and clears the admitted and refused counts. -/
def execAdmitRead (q : PortReq) (s : State) : Outcome State Fault Refusal := .next (s.portRead 0x40010 q)

/-- PROFILE_REQUEST (R109): A write of GC_PROFILE.REQUEST differing from CURRENT starts a profile change, or is kept
while one is pending. -/
def execProfileRequest (q : PortReq) (s : State) : Outcome State Fault Refusal := .next (s.portWrite 0x10000 q.lower)

/-- PROFILE_CHANGE_DONE (R109): A profile change completes, updating CURRENT, clearing PENDING and writing a PROFILE
record. -/
def execProfileChangeDone (s : State) : Outcome State Fault Refusal := .next s.profileDone

/-- OVERRIDE_WRITE (R110): A write to GC_OVERRIDE changes the reserve, class caps and demotion for packets issued
after it. -/
def execOverrideWrite (q : PortReq) (s : State) : Outcome State Fault Refusal := .next (s.portWrite 0x10010 q.lower)

/-- POWER_CAP_WRITE (R108): A write to GC_POWER_CAP sets LEAN's power cap, or is ignored outside 4–16. -/
def execPowerCapWrite (q : PortReq) (s : State) : Outcome State Fault Refusal := .next (s.portWrite 0x10008 q.lower)

/-- IDLE_GATE (R384): In LEAN a working lane outside the reserve idle for 100 µs is gated off. -/
def execIdleGate (unit : BitVec 12) (s : State) : Outcome State Fault Refusal := .next (s.idleGate unit.toNat)

/-- SPARE_PROOF_WAKE (R384): A gated spare is woken every 100 ms to run 10 proofing cycles. -/
def execSpareProofWake (unit : BitVec 12) (s : State) : Outcome State Fault Refusal := .next (s.proofWake unit.toNat)

/-- VEC_CFG_WRITE (R111): A write to FN_VEC_CFG changes moderation and may make the vector DUE or send its message on
unmask. -/
def execVecCfgWrite (fn : BitVec 10) (q : PortReq) (s : State) : Outcome State Fault Refusal :=
  .next (s.portWrite (fnPage fn.toNat 0x2008) q.lower)

/-- VEC_TIMER (R111): TIMER_US after the first pending signal the vector becomes DUE. -/
def execVecTimer (vec : BitVec 14) (s : State) : Outcome State Fault Refusal := .next (s.vecTimer vec.toNat)

/-- INTERRUPT_OFFER (R113): A DUE unmasked vector's interrupt message is handed to the function port once its records'
writes are issued or answered. -/
def execInterruptOffer (vec : BitVec 14) (s : State) : Outcome State Fault Refusal := .next (s.offer vec.toNat)

/-- OFFER_RETRY (R410): A refused interrupt or RESET_COMPLETE message is offered again 1 µs later, setting BLOCKED
after 10 µs. -/
def execOfferRetry (what : Offer) (s : State) : Outcome State Fault Refusal := .next (s.offerAgain what)

/-- MESSAGE_ACCEPT (R410): An fi_macc answer accepts or refuses the oldest outstanding function-port message. -/
def execMessageAccept (accept parityOk : Bool) (s : State) : Outcome State Fault Refusal :=
  .next (s.macc (accept && parityOk))

end Sys2Proof.Machine
end

