-- ==== Sys2Proof/Machine/CmdStream.lean ====
section
/-! DEFINITION. Meanings of commands. The stream verifier (05_stream_verifier.md). Each is the command's effect as a next state. -/

namespace Sys2Proof.Machine

open Host

/-- FRAME_ARRIVAL (R116): A frame's beats on a stream port are numbered and written into the ingress FIFO, or cut or
dropped into a gap marker. -/
def execFrameArrival (port : Fin 4) (f : FrameIn) (s : State) : Outcome State Fault Refusal :=
  .next (s.frameArrival port.val f)

/-- FRAME_PARSE (R126): The parser reaches a frame, recognises its kind, reads its authentication extension and looks
up its key. -/
def execFrameParse (port : Fin 4) (s : State) : Outcome State Fault Refusal := .next (s.parseFrame port.val)

/-- PARSER_GAP_MARKER (R125): The parser reaching a closed gap marker emits NOT_CHECKED_OVERLOAD range words and
releases the stages. -/
def execParserGapMarker (port : Fin 4) (s : State) : Outcome State Fault Refusal := .next (s.parseGap port.val)

/-- TAG_COMPLETE (R137): A tag unit finishes a frame, the comparator and freshness check decide the verdict, and the
verdict word is emitted. -/
def execTagComplete (port : Fin 4) (seq : Word) (s : State) : Outcome State Fault Refusal :=
  .next (s.tagComplete port.val seq)

/-- PORT_ENABLE (R120): Setting ST_PCTRL.EN requests the port domain and brings STATE to RUN, or leaves EN 0 while
held off. -/
def execPortEnable (port : Fin 4) (q : PortReq) (s : State) : Outcome State Fault Refusal :=
  .next (s.command (0x50000 + port.val * 0x100) 0 1 1 q)

/-- PORT_DISABLE (R120): Clearing ST_PCTRL.EN puts the port into DRAINING and stops new frames. -/
def execPortDisable (port : Fin 4) (q : PortReq) (s : State) : Outcome State Fault Refusal :=
  .next (s.command (0x50000 + port.val * 0x100) 0 1 0 q)

/-- PORT_DRAINED (R120): When every numbered frame of a DRAINING port has its verdict, STATE becomes OFF. -/
def execPortDrained (port : Fin 4) (s : State) : Outcome State Fault Refusal := .next (s.portDrained port.val)

/-- PLOAD_READ (R407): A read of ST_PLOAD returns occupancy and clears its high-water marks. -/
def execPloadRead (port : Fin 4) (q : PortReq) (s : State) : Outcome State Fault Refusal :=
  .next (s.portRead (0x50010 + port.val * 0x100) q)

/-- KM_LOAD (R132): ST_KM_CMD LOAD copies the selected key map entry into ST_KM_ENTRY. -/
def execKmLoad (q : PortReq) (s : State) : Outcome State Fault Refusal := .next (s.command 0x51008 0 3 1 q)

/-- KM_COMMIT (R132): ST_KM_CMD COMMIT checks and writes ST_KM_ENTRY into the selected key map entry. -/
def execKmCommit (q : PortReq) (s : State) : Outcome State Fault Refusal := .next (s.command 0x51008 0 3 2 q)

/-- KM_INVALIDATE (R133): ST_KM_CMD INVALIDATE makes the selected key map entry invalid. -/
def execKmInvalidate (q : PortReq) (s : State) : Outcome State Fault Refusal := .next (s.command 0x51008 0 3 3 q)

/-- ACTIVATE (R132): ST_KM_CMD ACTIVATE sets PENDING to make the entry active at ACT_TIME. -/
def execActivate (q : PortReq) (s : State) : Outcome State Fault Refusal := .next (s.command 0x51008 0 3 4 q)

/-- KM_CMD_UNDEFINED (R132): An ST_KM_CMD write with an undefined OP sets ERR to 5. -/
def execKmCmdUndefined (q : PortReq) (s : State) : Outcome State Fault Refusal :=
  .next (s.portWrite 0x51008 (q.lower.undefinedOp 0 3 0 (fun n => decide (1 ≤ n ∧ n ≤ 4))))

/-- ACT_TIME_REACHED (R132): At the first tm_ value at or after ACT_TIME the pending entry becomes active and the
others of its APPID inactive. -/
def execActTimeReached (entry : BitVec 12) (s : State) : Outcome State Fault Refusal :=
  .next (s.actReached entry.toNat)

/-- KM_BUSY_CLEAR (R133): After a key map change, BUSY clears once every frame that used the old contents has its
verdict, and the old slot is released. -/
def execKmBusyClear (s : State) : Outcome State Fault Refusal := .next s.kmBusyClear

/-- SS_LOAD (R136): ST_SS_CMD LOAD captures the live state of the selected stream table entry. -/
def execSsLoad (q : PortReq) (s : State) : Outcome State Fault Refusal := .next (s.command 0x52008 0 2 1 q)

/-- SS_COMMIT (R134): ST_SS_CMD COMMIT writes the staged stream table entry, refusing duplicates. -/
def execSsCommit (q : PortReq) (s : State) : Outcome State Fault Refusal := .next (s.command 0x52008 0 2 2 q)

/-- SS_INVALIDATE (R134): ST_SS_CMD INVALIDATE makes the selected stream table entry invalid. -/
def execSsInvalidate (q : PortReq) (s : State) : Outcome State Fault Refusal := .next (s.command 0x52008 0 2 3 q)

/-- SS_CMD_UNDEFINED (R134): An ST_SS_CMD write of OP 0 sets ERR to 5. -/
def execSsCmdUndefined (q : PortReq) (s : State) : Outcome State Fault Refusal := .next (s.command 0x52008 0 2 0 q)

end Sys2Proof.Machine
end

