-- ==== Sys2Proof/Machine/CmdVault.lean ====
section
/-! DEFINITION. Meanings of commands. Stipple and the plate vault (09_stipple.md, 10_plate_vault.md). Each is the command's effect as a next state. -/

namespace Sys2Proof.Machine

open Host

/-- STIPPLE_PACK (R232): Opcode 0x500 packs rows into frames, an end record and bucket padding. -/
def execStipplePack (tag : BitVec 14) (d : LinkData) (s : State) : Outcome State Fault Refusal :=
  .next (s.runStipple true tag d 0x500 packPlan)

/-- STIPPLE_UNPACK (R236): Opcode 0x501 decodes frames into rows, ending at the first failure. -/
def execStippleUnpack (tag : BitVec 14) (d : LinkData) (s : State) : Outcome State Fault Refusal :=
  .next (s.runStipple false tag d 0x501 unpackPlan)

/-- VAULT_CREATE (R263): Opcode 0x600 fills a slot with a fresh DRBG key. -/
def execVaultCreate (tag : BitVec 14) (d : LinkData) (s : State) : Outcome State Fault Refusal :=
  .next (s.runOp tag d (isOp 0x600) createPlan)

/-- VAULT_IMPORT (R265): Opcode 0x601 unwraps a transfer and fills a slot from it. -/
def execVaultImport (tag : BitVec 14) (d : LinkData) (s : State) : Outcome State Fault Refusal :=
  .next (s.runOp tag d (isOp 0x601) importPlan)

/-- VAULT_EXPORT (R266): Opcode 0x602 wraps a slot into a KWP transfer. -/
def execVaultExport (tag : BitVec 14) (d : LinkData) (s : State) : Outcome State Fault Refusal :=
  .next (s.runOp tag d (isOp 0x602) exportPlan)

/-- VAULT_IMPORT_PUBLIC (R263): Opcode 0x603 validates a public key and fills a slot with it. -/
def execVaultImportPublic (tag : BitVec 14) (d : LinkData) (s : State) : Outcome State Fault Refusal :=
  .next (s.runOp tag d (isOp 0x603) importPublicPlan)

/-- VAULT_DERIVE (R263): Opcode 0x608 copies a parent's key area into a narrowed new slot. -/
def execVaultDerive (tag : BitVec 14) (d : LinkData) (s : State) : Outcome State Fault Refusal :=
  .next (s.runOp tag d (isOp 0x608) derivePlan)

/-- VAULT_SET_ATTR (R263): Opcode 0x610 replaces a slot's attributes with a narrowed template. -/
def execVaultSetAttr (tag : BitVec 14) (d : LinkData) (s : State) : Outcome State Fault Refusal :=
  .next (s.runOp tag d (isOp 0x610) setAttrPlan)

/-- VAULT_QUERY (R263): Opcode 0x611 returns a slot's attributes and live counters. -/
def execVaultQuery (tag : BitVec 14) (d : LinkData) (s : State) : Outcome State Fault Refusal :=
  .next (s.runOp tag d (isOp 0x611) queryPlan)

/-- VAULT_RETIRE (R267): Opcode 0x618 writes a FREE record for the slot. -/
def execVaultRetire (tag : BitVec 14) (d : LinkData) (s : State) : Outcome State Fault Refusal :=
  .next (s.runOp tag d (isOp 0x618) retirePlan)

/-- VAULT_AUTH_REGISTER (R263): Opcode 0x680 fills a registered authority slot. -/
def execVaultAuthRegister (tag : BitVec 14) (d : LinkData) (s : State) : Outcome State Fault Refusal :=
  .next (s.runOp tag d (isOp 0x680) authRegisterPlan)

/-- VAULT_AUTH_CLEAR (R263): Opcode 0x681 frees an unlocked registered slot. -/
def execVaultAuthClear (tag : BitVec 14) (d : LinkData) (s : State) : Outcome State Fault Refusal :=
  .next (s.runOp tag d (isOp 0x681) authClearPlan)

/-- VAULT_REKEY_SWEEP (R269): Opcode 0x688 starts a rekey sweep under a new epoch. -/
def execVaultRekeySweep (tag : BitVec 14) (d : LinkData) (s : State) : Outcome State Fault Refusal :=
  .next (s.runOp tag d (isOp 0x688) sweepPlan)

/-- VAULT_ESCROW_EXPORT (R266): Opcode 0x690 exports a slot as an escrow transfer. -/
def execVaultEscrowExport (tag : BitVec 14) (d : LinkData) (s : State) : Outcome State Fault Refusal :=
  .next (s.runOp tag d (isOp 0x690) escrowExportPlan)

/-- VAULT_ESCROW_IMPORT (R266): Opcode 0x691 restores a slot whole from an escrow transfer. -/
def execVaultEscrowImport (tag : BitVec 14) (d : LinkData) (s : State) : Outcome State Fault Refusal :=
  .next (s.runOp tag d (isOp 0x691) escrowImportPlan)

/-- SWEEP_STEP (R270): At its pace the sweep rewrites the next record or node, stopping or freeing slots on an
authentication failure. -/
def execSweepStep (read : VaultRead) (s : State) : Outcome State Fault Refusal := .next (s.sweepStep read)

/-- MISS_READ_RETURN (R254): On return of a cache-miss read, nodes and record are verified from the top down. -/
def execMissReadReturn (slot : BitVec 19) (read : VaultRead) (s : State) : Outcome State Fault Refusal :=
  .next ((s.missReadReturn slot.toNat read).kmResume)

/-- BATCH_CLOSE (R255): A batch closes at 8 records or 100 ns, writes its descriptor to D0 and issues its record and
node writes. -/
def execBatchClose (s : State) : Outcome State Fault Refusal := .next s.batchClose

/-- BATCH_COMMIT (R255): When every write of a batch has responded, the root counters are incremented and the
descriptor cleared. -/
def execBatchCommit (s : State) : Outcome State Fault Refusal := .next s.batchCommit.kmResume

/-- BATCH_FAIL (R256): A failed batch write discards the batch, ends its operations with BUS_ERROR and runs recovery. -/
def execBatchFail (s : State) : Outcome State Fault Refusal := .next s.batchFail

/-- PV_REGION_WRITE (R245): A write to PV_REGION sets or clears the vault region, opening or closing the vault. -/
def execPvRegionWrite (q : PortReq) (s : State) : Outcome State Fault Refusal := .next (s.portWrite 0xA0000 q)

/-- PV_BLOB_WRITE (R245): A write to PV_BLOB sets or clears the blob area. -/
def execPvBlobWrite (q : PortReq) (s : State) : Outcome State Fault Refusal := .next (s.portWrite 0xA0008 q)

end Sys2Proof.Machine
end

