-- ==== Sys2Proof/Machine/Dispatch.lean ====
section
/-! DEFINITION. The meaning of every command: one arm per constructor, each one direct call. -/

namespace Sys2Proof.Machine

open Host

def exec (i : Instr) (s : State) : Host.Outcome State Fault Refusal :=
  match i with
  | .registerWrite addr q => Sys2Proof.Machine.execRegisterWrite addr q s
  | .ftLoad q => Sys2Proof.Machine.execFtLoad q s
  | .ftCommit q => Sys2Proof.Machine.execFtCommit q s
  | .ftEnable q => Sys2Proof.Machine.execFtEnable q s
  | .ftResetDrain q => Sys2Proof.Machine.execFtResetDrain q s
  | .ftResetSquash q => Sys2Proof.Machine.execFtResetSquash q s
  | .ftUnbind q => Sys2Proof.Machine.execFtUnbind q s
  | .ftCmdUndefined q => Sys2Proof.Machine.execFtCmdUndefined q s
  | .ftNumvfWrite q => Sys2Proof.Machine.execFtNumvfWrite q s
  | .flrReq fn q => Sys2Proof.Machine.execFlrReq fn q s
  | .flrRequest fn parityOk => Sys2Proof.Machine.execFlrRequest fn parityOk s
  | .drainTimeout fn => Sys2Proof.Machine.execDrainTimeout fn s
  | .resetComplete fn => Sys2Proof.Machine.execResetComplete fn s
  | .pstateNotice fn q => Sys2Proof.Machine.execPstateNotice fn q s
  | .eqCtrlWrite fn q => Sys2Proof.Machine.execEqCtrlWrite fn q s
  | .eqBaseWrite fn q => Sys2Proof.Machine.execEqBaseWrite fn q s
  | .eqConsWrite fn q => Sys2Proof.Machine.execEqConsWrite fn q s
  | .eqLostRead fn q => Sys2Proof.Machine.execEqLostRead fn q s
  | .kick fn q => Sys2Proof.Machine.execKick fn q s
  | .doorbellEnable fn q => Sys2Proof.Machine.execDoorbellEnable fn q s
  | .doorbellDisable fn q => Sys2Proof.Machine.execDoorbellDisable fn q s
  | .rtEnable q => Sys2Proof.Machine.execRtEnable q s
  | .rtDisable q => Sys2Proof.Machine.execRtDisable q s
  | .rtCmdUndefined q => Sys2Proof.Machine.execRtCmdUndefined q s
  | .enableCheck ring data => Sys2Proof.Machine.execEnableCheck ring data s
  | .headerReadReturn ring data => Sys2Proof.Machine.execHeaderReadReturn ring data s
  | .pollTimer ring => Sys2Proof.Machine.execPollTimer ring s
  | .entryReadReturn ring data => Sys2Proof.Machine.execEntryReadReturn ring data s
  | .linkTableReadReturn ring data => Sys2Proof.Machine.execLinkTableReadReturn ring data s
  | .fetchError ring what => Sys2Proof.Machine.execFetchError ring what s
  | .packetIssue ring => Sys2Proof.Machine.execPacketIssue ring s
  | .linkEnd tag => Sys2Proof.Machine.execLinkEnd tag s
  | .cqProdUpdate ring upTo => Sys2Proof.Machine.execCqProdUpdate ring upTo s
  | .completionWriteFail ring => Sys2Proof.Machine.execCompletionWriteFail ring s
  | .ringStopComplete ring => Sys2Proof.Machine.execRingStopComplete ring s
  | .nop tag => Sys2Proof.Machine.execNop tag s
  | .unsupportedOpcode tag => Sys2Proof.Machine.execUnsupportedOpcode tag s
  | .ageTimer tag => Sys2Proof.Machine.execAgeTimer tag s
  | .suspendPoint tag consumed d => Sys2Proof.Machine.execSuspendPoint tag consumed d s
  | .scSpillWrite q => Sys2Proof.Machine.execScSpillWrite q s
  | .admitRead q => Sys2Proof.Machine.execAdmitRead q s
  | .profileRequest q => Sys2Proof.Machine.execProfileRequest q s
  | .profileChangeDone => Sys2Proof.Machine.execProfileChangeDone s
  | .overrideWrite q => Sys2Proof.Machine.execOverrideWrite q s
  | .powerCapWrite q => Sys2Proof.Machine.execPowerCapWrite q s
  | .idleGate unit => Sys2Proof.Machine.execIdleGate unit s
  | .spareProofWake unit => Sys2Proof.Machine.execSpareProofWake unit s
  | .vecCfgWrite fn q => Sys2Proof.Machine.execVecCfgWrite fn q s
  | .vecTimer vec => Sys2Proof.Machine.execVecTimer vec s
  | .interruptOffer vec => Sys2Proof.Machine.execInterruptOffer vec s
  | .offerRetry what => Sys2Proof.Machine.execOfferRetry what s
  | .messageAccept accept parityOk => Sys2Proof.Machine.execMessageAccept accept parityOk s
  | .frameArrival port f => Sys2Proof.Machine.execFrameArrival port f s
  | .frameParse port => Sys2Proof.Machine.execFrameParse port s
  | .parserGapMarker port => Sys2Proof.Machine.execParserGapMarker port s
  | .tagComplete port seq => Sys2Proof.Machine.execTagComplete port seq s
  | .portEnable port q => Sys2Proof.Machine.execPortEnable port q s
  | .portDisable port q => Sys2Proof.Machine.execPortDisable port q s
  | .portDrained port => Sys2Proof.Machine.execPortDrained port s
  | .ploadRead port q => Sys2Proof.Machine.execPloadRead port q s
  | .kmLoad q => Sys2Proof.Machine.execKmLoad q s
  | .kmCommit q => Sys2Proof.Machine.execKmCommit q s
  | .kmInvalidate q => Sys2Proof.Machine.execKmInvalidate q s
  | .activate q => Sys2Proof.Machine.execActivate q s
  | .kmCmdUndefined q => Sys2Proof.Machine.execKmCmdUndefined q s
  | .actTimeReached entry => Sys2Proof.Machine.execActTimeReached entry s
  | .kmBusyClear => Sys2Proof.Machine.execKmBusyClear s
  | .ssLoad q => Sys2Proof.Machine.execSsLoad q s
  | .ssCommit q => Sys2Proof.Machine.execSsCommit q s
  | .ssInvalidate q => Sys2Proof.Machine.execSsInvalidate q s
  | .ssCmdUndefined q => Sys2Proof.Machine.execSsCmdUndefined q s
  | .cbcEncrypt tag d => Sys2Proof.Machine.execCbcEncrypt tag d s
  | .cbcDecrypt tag d => Sys2Proof.Machine.execCbcDecrypt tag d s
  | .ctrEncrypt tag d => Sys2Proof.Machine.execCtrEncrypt tag d s
  | .ctrDecrypt tag d => Sys2Proof.Machine.execCtrDecrypt tag d s
  | .gcmEncrypt tag d => Sys2Proof.Machine.execGcmEncrypt tag d s
  | .gcmDecrypt tag d => Sys2Proof.Machine.execGcmDecrypt tag d s
  | .gmacGenerate tag d => Sys2Proof.Machine.execGmacGenerate tag d s
  | .gmacVerify tag d => Sys2Proof.Machine.execGmacVerify tag d s
  | .xtsEncrypt tag d => Sys2Proof.Machine.execXtsEncrypt tag d s
  | .xtsDecrypt tag d => Sys2Proof.Machine.execXtsDecrypt tag d s
  | .ccmEncrypt tag d => Sys2Proof.Machine.execCcmEncrypt tag d s
  | .ccmDecrypt tag d => Sys2Proof.Machine.execCcmDecrypt tag d s
  | .kwWrap tag d => Sys2Proof.Machine.execKwWrap tag d s
  | .kwUnwrap tag d => Sys2Proof.Machine.execKwUnwrap tag d s
  | .kwpWrap tag d => Sys2Proof.Machine.execKwpWrap tag d s
  | .kwpUnwrap tag d => Sys2Proof.Machine.execKwpUnwrap tag d s
  | .ccpEncrypt tag d => Sys2Proof.Machine.execCcpEncrypt tag d s
  | .ccpDecrypt tag d => Sys2Proof.Machine.execCcpDecrypt tag d s
  | .sha2 tag d => Sys2Proof.Machine.execSha2 tag d s
  | .sha3 tag d => Sys2Proof.Machine.execSha3 tag d s
  | .shake tag d => Sys2Proof.Machine.execShake tag d s
  | .hmac tag d => Sys2Proof.Machine.execHmac tag d s
  | .hkdf tag d => Sys2Proof.Machine.execHkdf tag d s
  | .hkdfExtract tag d => Sys2Proof.Machine.execHkdfExtract tag d s
  | .hkdfExpand tag d => Sys2Proof.Machine.execHkdfExpand tag d s
  | .kdfCtr tag d => Sys2Proof.Machine.execKdfCtr tag d s
  | .sessStart tag d => Sys2Proof.Machine.execSessStart tag d s
  | .sessUpdate tag d => Sys2Proof.Machine.execSessUpdate tag d s
  | .sessFinish tag d => Sys2Proof.Machine.execSessFinish tag d s
  | .sessAbort tag d => Sys2Proof.Machine.execSessAbort tag d s
  | .spillWriteDone ctx => Sys2Proof.Machine.execSpillWriteDone ctx s
  | .contextRestore ctx data => Sys2Proof.Machine.execContextRestore ctx data s
  | .dlSpillWrite q => Sys2Proof.Machine.execDlSpillWrite q s
  | .rsaOaepEncrypt tag d => Sys2Proof.Machine.execRsaOaepEncrypt tag d s
  | .rsaOaepDecrypt tag d => Sys2Proof.Machine.execRsaOaepDecrypt tag d s
  | .rsaPssSign tag d => Sys2Proof.Machine.execRsaPssSign tag d s
  | .rsaPssVerify tag d => Sys2Proof.Machine.execRsaPssVerify tag d s
  | .rsaPkcs1Sign tag d => Sys2Proof.Machine.execRsaPkcs1Sign tag d s
  | .rsaPkcs1Verify tag d => Sys2Proof.Machine.execRsaPkcs1Verify tag d s
  | .rsaPublicRaw tag d => Sys2Proof.Machine.execRsaPublicRaw tag d s
  | .ecdsaKeygen tag d => Sys2Proof.Machine.execEcdsaKeygen tag d s
  | .ecdsaSign tag d => Sys2Proof.Machine.execEcdsaSign tag d s
  | .ecdsaVerify tag d => Sys2Proof.Machine.execEcdsaVerify tag d s
  | .eddsaKeygen tag d => Sys2Proof.Machine.execEddsaKeygen tag d s
  | .eddsaSign tag d => Sys2Proof.Machine.execEddsaSign tag d s
  | .eddsaVerify tag d => Sys2Proof.Machine.execEddsaVerify tag d s
  | .eddsaVerifyBatch tag d => Sys2Proof.Machine.execEddsaVerifyBatch tag d s
  | .xdhKeygen tag d => Sys2Proof.Machine.execXdhKeygen tag d s
  | .xdhAgree tag d => Sys2Proof.Machine.execXdhAgree tag d s
  | .pkPublic tag d => Sys2Proof.Machine.execPkPublic tag d s
  | .mlkemKeygen tag d => Sys2Proof.Machine.execMlkemKeygen tag d s
  | .mlkemEncaps tag d => Sys2Proof.Machine.execMlkemEncaps tag d s
  | .mlkemDecaps tag d => Sys2Proof.Machine.execMlkemDecaps tag d s
  | .mldsaKeygen tag d => Sys2Proof.Machine.execMldsaKeygen tag d s
  | .mldsaSign tag d => Sys2Proof.Machine.execMldsaSign tag d s
  | .mldsaVerify tag d => Sys2Proof.Machine.execMldsaVerify tag d s
  | .mldsaVerifyBatch tag d => Sys2Proof.Machine.execMldsaVerifyBatch tag d s
  | .hssVerify tag d => Sys2Proof.Machine.execHssVerify tag d s
  | .slhdsaVerify tag d => Sys2Proof.Machine.execSlhdsaVerify tag d s
  | .pkPublicPq tag d => Sys2Proof.Machine.execPkPublicPq tag d s
  | .random tag d => Sys2Proof.Machine.execRandom tag d s
  | .impressionTimer unit d => Sys2Proof.Machine.execImpressionTimer unit d s
  | .reseedTimer => Sys2Proof.Machine.execReseedTimer s
  | .reseed q => Sys2Proof.Machine.execReseed q s
  | .healthTestFail adaptive => Sys2Proof.Machine.execHealthTestFail adaptive s
  | .rngRestart q => Sys2Proof.Machine.execRngRestart q s
  | .rawModeWrite q => Sys2Proof.Machine.execRawModeWrite q s
  | .pkRngCtrlWrite q => Sys2Proof.Machine.execPkRngCtrlWrite q s
  | .rngRawRead q => Sys2Proof.Machine.execRngRawRead q s
  | .stipplePack tag d => Sys2Proof.Machine.execStipplePack tag d s
  | .stippleUnpack tag d => Sys2Proof.Machine.execStippleUnpack tag d s
  | .vaultCreate tag d => Sys2Proof.Machine.execVaultCreate tag d s
  | .vaultImport tag d => Sys2Proof.Machine.execVaultImport tag d s
  | .vaultExport tag d => Sys2Proof.Machine.execVaultExport tag d s
  | .vaultImportPublic tag d => Sys2Proof.Machine.execVaultImportPublic tag d s
  | .vaultDerive tag d => Sys2Proof.Machine.execVaultDerive tag d s
  | .vaultSetAttr tag d => Sys2Proof.Machine.execVaultSetAttr tag d s
  | .vaultQuery tag d => Sys2Proof.Machine.execVaultQuery tag d s
  | .vaultRetire tag d => Sys2Proof.Machine.execVaultRetire tag d s
  | .vaultAuthRegister tag d => Sys2Proof.Machine.execVaultAuthRegister tag d s
  | .vaultAuthClear tag d => Sys2Proof.Machine.execVaultAuthClear tag d s
  | .vaultRekeySweep tag d => Sys2Proof.Machine.execVaultRekeySweep tag d s
  | .vaultEscrowExport tag d => Sys2Proof.Machine.execVaultEscrowExport tag d s
  | .vaultEscrowImport tag d => Sys2Proof.Machine.execVaultEscrowImport tag d s
  | .sweepStep read => Sys2Proof.Machine.execSweepStep read s
  | .missReadReturn slot read => Sys2Proof.Machine.execMissReadReturn slot read s
  | .batchClose => Sys2Proof.Machine.execBatchClose s
  | .batchCommit => Sys2Proof.Machine.execBatchCommit s
  | .batchFail => Sys2Proof.Machine.execBatchFail s
  | .pvRegionWrite q => Sys2Proof.Machine.execPvRegionWrite q s
  | .pvBlobWrite q => Sys2Proof.Machine.execPvBlobWrite q s
  | .plateMark tag d => Sys2Proof.Machine.execPlateMark tag d s
  | .plateKeys tag d => Sys2Proof.Machine.execPlateKeys tag d s
  | .etchLoad tag d => Sys2Proof.Machine.execEtchLoad tag d s
  | .etchClear tag d => Sys2Proof.Machine.execEtchClear tag d s
  | .etchedCommand tag d => Sys2Proof.Machine.execEtchedCommand tag d s
  | .routineBudget tag => Sys2Proof.Machine.execRoutineBudget tag s
  | .etchOpen q => Sys2Proof.Machine.execEtchOpen q s
  | .etchOpenDone => Sys2Proof.Machine.execEtchOpenDone s
  | .etchClose q => Sys2Proof.Machine.execEtchClose q s
  | .etchCtrlClear q => Sys2Proof.Machine.execEtchCtrlClear q s
  | .etchLock q => Sys2Proof.Machine.execEtchLock q s
  | .etchDataWrite q => Sys2Proof.Machine.execEtchDataWrite q s
  | .etchDataRead q => Sys2Proof.Machine.execEtchDataRead q s
  | .bootPtrWrite q => Sys2Proof.Machine.execBootPtrWrite q s
  | .bootVerify image busError => Sys2Proof.Machine.execBootVerify image busError s
  | .mov rd rb => Sys2Proof.Machine.execMov rd rb s
  | .add a => Sys2Proof.Machine.execAdd a s
  | .sub a => Sys2Proof.Machine.execSub a s
  | .andOp a => Sys2Proof.Machine.execAndOp a s
  | .orOp a => Sys2Proof.Machine.execOrOp a s
  | .xorOp a => Sys2Proof.Machine.execXorOp a s
  | .andn rd ra rb => Sys2Proof.Machine.execAndn rd ra rb s
  | .shl a => Sys2Proof.Machine.execShl a s
  | .shr a => Sys2Proof.Machine.execShr a s
  | .sar a => Sys2Proof.Machine.execSar a s
  | .ror rd ra rb => Sys2Proof.Machine.execRor rd ra rb s
  | .slt a => Sys2Proof.Machine.execSlt a s
  | .sltu a => Sys2Proof.Machine.execSltu a s
  | .minOp rd ra rb => Sys2Proof.Machine.execMinOp rd ra rb s
  | .maxOp rd ra rb => Sys2Proof.Machine.execMaxOp rd ra rb s
  | .minu rd ra rb => Sys2Proof.Machine.execMinu rd ra rb s
  | .maxu rd ra rb => Sys2Proof.Machine.execMaxu rd ra rb s
  | .clz rd ra => Sys2Proof.Machine.execClz rd ra s
  | .popc rd ra => Sys2Proof.Machine.execPopc rd ra s
  | .bswap rd ra => Sys2Proof.Machine.execBswap rd ra s
  | .neg rd rb => Sys2Proof.Machine.execNeg rd rb s
  | .addi a => Sys2Proof.Machine.execAddi a s
  | .andi rd ra imm => Sys2Proof.Machine.execAndi rd ra imm s
  | .ori rd ra imm => Sys2Proof.Machine.execOri rd ra imm s
  | .xori rd ra imm => Sys2Proof.Machine.execXori rd ra imm s
  | .li rd imm => Sys2Proof.Machine.execLi rd imm s
  | .lui rd imm => Sys2Proof.Machine.execLui rd imm s
  | .shli a => Sys2Proof.Machine.execShli a s
  | .shri a => Sys2Proof.Machine.execShri a s
  | .sari a => Sys2Proof.Machine.execSari a s
  | .slti rd ra imm => Sys2Proof.Machine.execSlti rd ra imm s
  | .lws rd imm => Sys2Proof.Machine.execLws rd imm s
  | .sws rd imm => Sys2Proof.Machine.execSws rd imm s
  | .lw r base imm => Sys2Proof.Machine.execLw r base imm s
  | .lh r base imm => Sys2Proof.Machine.execLh r base imm s
  | .lhu r base imm => Sys2Proof.Machine.execLhu r base imm s
  | .lb r base imm => Sys2Proof.Machine.execLb r base imm s
  | .lbu r base imm => Sys2Proof.Machine.execLbu r base imm s
  | .loadWriteback => Sys2Proof.Machine.execLoadWriteback s
  | .sw r base imm => Sys2Proof.Machine.execSw r base imm s
  | .sh r base imm => Sys2Proof.Machine.execSh r base imm s
  | .sb r base imm => Sys2Proof.Machine.execSb r base imm s
  | .beqz rd imm => Sys2Proof.Machine.execBeqz rd imm s
  | .bnez rd imm => Sys2Proof.Machine.execBnez rd imm s
  | .beq ra rb imm => Sys2Proof.Machine.execBeq ra rb imm s
  | .bne ra rb imm => Sys2Proof.Machine.execBne ra rb imm s
  | .blt ra rb imm => Sys2Proof.Machine.execBlt ra rb imm s
  | .bge ra rb imm => Sys2Proof.Machine.execBge ra rb imm s
  | .bltu ra rb imm => Sys2Proof.Machine.execBltu ra rb imm s
  | .bgeu ra rb imm => Sys2Proof.Machine.execBgeu ra rb imm s
  | .jump a => Sys2Proof.Machine.execJump a s
  | .call imm => Sys2Proof.Machine.execCall imm s
  | .callr rb => Sys2Proof.Machine.execCallr rb s
  | .jr rb => Sys2Proof.Machine.execJr rb s
  | .ret => Sys2Proof.Machine.execRet s
  | .mul a => Sys2Proof.Machine.execMul a s
  | .mulu a => Sys2Proof.Machine.execMulu a s
  | .productLands => Sys2Proof.Machine.execProductLands s
  | .mfs rd idx => Sys2Proof.Machine.execMfs rd idx s
  | .mts rd idx => Sys2Proof.Machine.execMts rd idx s
  | .adj imm => Sys2Proof.Machine.execAdj imm s
  | .adjl imm => Sys2Proof.Machine.execAdjl imm s
  | .sysNop => Sys2Proof.Machine.execSysNop s
  | .wfe => Sys2Proof.Machine.execWfe s
  | .wfeWake => Sys2Proof.Machine.execWfeWake s
  | .commit => Sys2Proof.Machine.execCommit s
  | .commitTimer => Sys2Proof.Machine.execCommitTimer s
  | .tret => Sys2Proof.Machine.execTret s
  | .brk => Sys2Proof.Machine.execBrk s
  | .etch rd ra rb index => Sys2Proof.Machine.execEtch rd ra rb index s
  | .lockstepMismatch => Sys2Proof.Machine.execLockstepMismatch s
  | .mailboxGo box q => Sys2Proof.Machine.execMailboxGo box q s
  | .mailboxRelease box q => Sys2Proof.Machine.execMailboxRelease box q s
  | .mbStatWrite fn q => Sys2Proof.Machine.execMbStatWrite fn q s
  | .mbPing fn => Sys2Proof.Machine.execMbPing fn s
  | .mbVersion fn => Sys2Proof.Machine.execMbVersion fn s
  | .mbCapacity fn => Sys2Proof.Machine.execMbCapacity fn s
  | .mbWindow fn => Sys2Proof.Machine.execMbWindow fn s
  | .mbFunction fn => Sys2Proof.Machine.execMbFunction fn s
  | .mbUnknownCode fn => Sys2Proof.Machine.execMbUnknownCode fn s
  | .dmaStart ch q => Sys2Proof.Machine.execDmaStart ch q s
  | .dmaPause ch q => Sys2Proof.Machine.execDmaPause ch q s
  | .dmaAbort ch q => Sys2Proof.Machine.execDmaAbort ch q s
  | .dmaBurstDone ch burst => Sys2Proof.Machine.execDmaBurstDone ch burst s
  | .dmaBurstFail ch burst denied => Sys2Proof.Machine.execDmaBurstFail ch burst denied s
  | .dmaRetryTimer ch burst => Sys2Proof.Machine.execDmaRetryTimer ch burst s
  | .dmaCrcWritten ch => Sys2Proof.Machine.execDmaCrcWritten ch s
  | .checkerReport source kind address => Sys2Proof.Machine.execCheckerReport source kind address s
  | .faultClassify source => Sys2Proof.Machine.execFaultClassify source s
  | .collectorCe address => Sys2Proof.Machine.execCollectorCe address s
  | .collectorUe address => Sys2Proof.Machine.execCollectorUe address s
  | .fcAck q => Sys2Proof.Machine.execFcAck q s
  | .fcCtrlWrite q => Sys2Proof.Machine.execFcCtrlWrite q s
  | .srcCfgWrite q => Sys2Proof.Machine.execSrcCfgWrite q s
  | .captureRearm q => Sys2Proof.Machine.execCaptureRearm q s
  | .injectionGo q => Sys2Proof.Machine.execInjectionGo q s
  | .unitReturn q => Sys2Proof.Machine.execUnitReturn q s
  | .fcUnitCmdUndefined q => Sys2Proof.Machine.execFcUnitCmdUndefined q s
  | .proofingCycle unit clean => Sys2Proof.Machine.execProofingCycle unit clean s
  | .pwrAck dom level => Sys2Proof.Machine.execPwrAck dom level s
  | .domainRestartDone dom pass => Sys2Proof.Machine.execDomainRestartDone dom pass s
  | .domainAckTimeout dom => Sys2Proof.Machine.execDomainAckTimeout dom s
  | .domainFail1ms dom => Sys2Proof.Machine.execDomainFail1ms dom s
  | .holdOff q => Sys2Proof.Machine.execHoldOff q s
  | .blockReset q => Sys2Proof.Machine.execBlockReset q s
  | .blockResetInput level => Sys2Proof.Machine.execBlockResetInput level s
  | .powerOnReset ids => Sys2Proof.Machine.execPowerOnReset ids s
  | .startupReady uk => Sys2Proof.Machine.execStartupReady uk s
  | .mainPowerLoss => Sys2Proof.Machine.execMainPowerLoss s
  | .mainPowerReturn => Sys2Proof.Machine.execMainPowerReturn s
  | .refLost => Sys2Proof.Machine.execRefLost s
  | .holdover => Sys2Proof.Machine.execHoldover s
  | .refReturn => Sys2Proof.Machine.execRefReturn s
  | .alarmEvent levels => Sys2Proof.Machine.execAlarmEvent levels s
  | .cellCritical => Sys2Proof.Machine.execCellCritical s
  | .softwareBurnish q => Sys2Proof.Machine.execSoftwareBurnish q s
  | .softwareSession q => Sys2Proof.Machine.execSoftwareSession q s
  | .monitorTest q => Sys2Proof.Machine.execMonitorTest q s
  | .monitorTestEnd seenActive stillActive => Sys2Proof.Machine.execMonitorTestEnd seenActive stillActive s
  | .lineCfgWrite line q => Sys2Proof.Machine.execLineCfgWrite line q s
  | .tamperRecordClear q => Sys2Proof.Machine.execTamperRecordClear q s
  | .arLoad q => Sys2Proof.Machine.execArLoad q s
  | .arCommit q => Sys2Proof.Machine.execArCommit q s
  | .arInvalidate q => Sys2Proof.Machine.execArInvalidate q s
  | .arCmdUndefined q => Sys2Proof.Machine.execArCmdUndefined q s
  | .arSyncDone => Sys2Proof.Machine.execArSyncDone s
  | .poEntryWrite q => Sys2Proof.Machine.execPoEntryWrite q s
  | .dgCtrlWrite q => Sys2Proof.Machine.execDgCtrlWrite q s
  | .jnCtrlWrite q => Sys2Proof.Machine.execJnCtrlWrite q s
  | .jnConsWrite q => Sys2Proof.Machine.execJnConsWrite q s
  | .jnLostRead q => Sys2Proof.Machine.execJnLostRead q s
  | .fabricResponseFail txn retry => Sys2Proof.Machine.execFabricResponseFail txn retry s
  | .fabricRetryTimer txn => Sys2Proof.Machine.execFabricRetryTimer txn s
  | .fabricTimeout txn => Sys2Proof.Machine.execFabricTimeout txn s
  | .fabricParityError portB => Sys2Proof.Machine.execFabricParityError portB s
  | .gcFabricWrite q => Sys2Proof.Machine.execGcFabricWrite q s
  | .creditReturn ch n => Sys2Proof.Machine.execCreditReturn ch n s
  | .timeUpdate tm => Sys2Proof.Machine.execTimeUpdate tm s
  | .tapIdcode => Sys2Proof.Machine.execTapIdcode s
  | .dbgEnable bit => Sys2Proof.Machine.execDbgEnable bit s
  | .dbgAccess dr answer => Sys2Proof.Machine.execDbgAccess dr answer s
  | .tapBypass => Sys2Proof.Machine.execTapBypass s
  | .tapReset => Sys2Proof.Machine.execTapReset s
  | .registerRead addr q => Sys2Proof.Machine.execRegisterRead addr q s
  | .reseedDone => Sys2Proof.Machine.execReseedDone s
  | .dmaReadReturn ch burst data => Sys2Proof.Machine.execDmaReadReturn ch burst data s
  | .cellLow level => Sys2Proof.Machine.execCellLow level s
  | .backupCellDepleted => Sys2Proof.Machine.execBackupCellDepleted s
  | .powerOnResetAsserted => Sys2Proof.Machine.execPowerOnResetAsserted s
  | .identityValid ids => Sys2Proof.Machine.execIdentityValid ids s
  | .illegal h0 h1 => Sys2Proof.Machine.execIllegal h0 h1 s

end Sys2Proof.Machine
end

