-- ==== Sys2Proof/Safety.lean ====
section
/-! DEFINITION. The terms in which claims speak of the machine: when the register port takes an access (R408), the state a
write leaves once it is journalled and answered, and when Burin executes its next instruction (R273, R275, R280). -/

namespace Sys2Proof.Machine

/-! The register port -/

/-- The register port carries a write of `q` at `off` out: the port is up, parity is good, the page owner passes it, the
byte enables cover a half, and the block is not in lockdown, nor halted but for the FC_ page (R326, R327, R352,
R407–R409). -/
structure State.Accepts (s : State) (off : Nat) (q : PortReq) : Prop where
  up : s.po.rpUp = true
  parity : q.parityOk = true
  owner : s.ownerPasses off q.initiator q.world true = true
  covers : (beLo q.be || beHi q.be) = true
  open_ : s.fc.lockdown = false
  running : s.fc.halted = false ∨ off / 0x10000 = 0x0E

/-- The write as the journal sees it. -/
def wlog (off : Nat) (q : PortReq) : WLog :=
  { off := off, be := q.be, lo := beLo q.be, hi := beHi q.be, init := q.initiator, world := q.world, data := q.wdata }

/-- The write as the page sees it: the half it does not cover holds the register's old contents. -/
def State.wreq (s : State) (off : Nat) (q : PortReq) : WReq :=
  { x := halves (loHalf (if beLo q.be then q.wdata else regRead s off)) (hiHalf (if beHi q.be then q.wdata else regRead s off)),
    lo := beLo q.be, hi := beHi q.be, init := q.initiator, world := q.world, off := off }

/-- What a write that took `s` to `u` leaves: `u` with the write's journal entry (R357) and its answer without ERROR. -/
def State.carried (s u : State) (off : Nat) (q : PortReq) : State :=
  (u.journalWrite (wlog off q) (regRead s off)
    (sameBut s u || s.setsHeldPort off (beLo q.be) q.wdata) false).rpAnswer 0 q.tag false

/-- Where the port takes the write `q` at `off`, the command `i` takes the block to `u`, with its journal entry and its
answer. -/
def PortDoes (s : State) (i : Instr) (off : Nat) (q : PortReq) (u : State) : Prop :=
  s.Accepts off q → exec i s = .next (s.carried u off q)

/-- Where the port takes the read `q` at `off`, the command `i` answers the halves of `x` that it covers and leaves `u`. -/
def PortReads (s : State) (i : Instr) (off : Nat) (q : PortReq) (x : DWord) (u : State) : Prop :=
  s.Accepts off q → exec i s = .next (u.rpAnswer (covered (beLo q.be) (beHi q.be) x) q.tag false)

/-! Burin -/

/-- Burin as its next instruction finds it: back in RUN after a rollback, events brought up to the mailboxes, results that
are due landed (R277, R281, R282). -/
def State.burinNow (s : State) : Burin := (s.rolledBack.evtSync.modBu Burin.settle).bu

/-- Burin executes its next instruction: in RUN or after a rollback, not in WFE, the block not halted (R277, R280). -/
def State.Executes (s : State) : Prop := s.rolledBack.burinRuns = true

/-- An instruction of `len` bytes stands at the program counter where instructions are fetched from (R273, R286). -/
def State.Fetches (s : State) (len : Word) : Prop := fetches s.burinNow.ctx.pc len.toNat = true

/-- No commit point falls due at the next boundary by itself: none is owed, and the logs have room for an instruction's
writes (R275). -/
structure Burin.Quiet (b : Burin) : Prop where
  notDue : b.commitDue = false
  undo : b.undo.length + 16 < 2048
  outb : b.outb.length + 1 < 256
  readLog : b.readLog.length + 1 < 256

/-- Burin after an instruction that leaves the context `c`, goes on at `pc` and takes `cost` cycles: loads before it have
had their delay slot (R281). -/
def Burin.next (b : Burin) (c : BuCtx) (pc : Word) (cost : Nat) : Burin :=
  { b with
    ctx := { c with pc := pc }, loads := b.loads.map (fun l => { l with slotDone := true }), cycle := b.cycle + cost }

/-- `s` with Burin as `b`, its events brought up to the mailboxes. -/
def State.withBurin (s : State) (b : Burin) : State := (s.modBu (fun _ => b)).evtSync

/-- The command `i` is an instruction that runs to its end: Burin's written register and the `len` bytes it passed, and
nothing else of the block. -/
def BurinSets (s : State) (i : Instr) (rd : BitVec 5) (v : Word) (len : Word) : Prop :=
  s.Fetches len → exec i s = .next (s.withBurin (s.burinNow.next (s.burinNow.ctx.set rd v) (s.burinNow.ctx.pc + len) 1))

/-- The context where control goes to `t`: INROUTINE rises on entering the routine area and falls on leaving it (R296,
log 14). -/
def BuCtx.arriving (c : BuCtx) (t : Word) : BuCtx :=
  { c with inRoutine := if inArea t && !inArea c.pc then true else if inArea c.pc && !inArea t then false else c.inRoutine }

/-- A branch may go from the program counter to `t`: an even address, and no way out of the routine area (R273, R296). -/
def BuCtx.mayGo (c : BuCtx) (t : Word) : Bool := decide (t.toNat % 2 = 0) && (!inArea c.pc || inArea t)

/-- The command `i`, an instruction of `len` bytes, goes on at `t` in two cycles with the context `c`, and records the branch
while tracing is on (R286, R356). -/
def BurinGoes (s : State) (i : Instr) (c : BuCtx) (t len : Word) : Prop :=
  s.Fetches len → exec i s = .next ((s.withBurin (s.burinNow.next c t 2)).traceRec 1 (halves t (BitVec.ofNat 32 (s.burinNow.cycle + 2))))

/-- The command `i` only passes its `len` bytes. -/
def BurinPasses (s : State) (i : Instr) (len : Word) : Prop :=
  s.Fetches len → exec i s = .next (s.withBurin (s.burinNow.next s.burinNow.ctx (s.burinNow.ctx.pc + len) 1))

/-- The command `i` reads `n` bytes at `a` of a memory that answers in `cost` cycles: the value is on its way to `rd`
(R281). -/
def BurinLoads (s : State) (i : Instr) (rd : BitVec 5) (v len : Word) (cost : Nat) : Prop :=
  s.Fetches len → exec i s = .next (s.withBurin { s.burinNow.next s.burinNow.ctx (s.burinNow.ctx.pc + len) cost with
    loads := s.burinNow.loads.map (fun l => { l with slotDone := true }) ++ [{ rd := rd.toNat, val := v }] })

/-- The command `i` stores the bytes `l` at `a` of data SRAM: those bytes are written, every other byte of it reads as
before, the word's old contents enter the undo log, and nothing else changes (R273, R276). -/
def BurinStores (s : State) (i : Instr) (a : Nat) (l : List Byte) (len : Word) : Prop :=
  s.Fetches len → ∃ m : Memory,
    exec i s = .next (s.withBurin { s.burinNow.next s.burinNow.ctx (s.burinNow.ctx.pc + len) 1 with
      dmem := m,
      undo := (a / 4 * 4, BitVec.ofNat 32 (leNat (s.burinNow.dmem.readBytes (a / 4 * 4) 4))) :: s.burinNow.undo }) ∧
    (∀ (k : Nat) (h : k < l.length), m.read (a + k) = l[k]) ∧
    (∀ x, x < a ∨ a + l.length ≤ x → m.read x = s.burinNow.dmem.read x)

/-- Burin after a trap of cause `n`: the program counter is saved, and execution goes on at TVEC (R285). -/
def Burin.trapped (b : Burin) (n : Nat) : Burin :=
  { b with
    loads := [], cycle := b.cycle + 1,
    ctx := { b.ctx.landLoads b.loads with
      epc := b.ctx.pc, cause := BitVec.ofNat 4 n, inTrap := true, pc := b.ctx.tvec,
      inRoutine := inArea b.ctx.tvec } }

/-! Links -/

/-- The commands that run a link: the tag, what the host answered, the opcodes the row takes, and the opcode's plan. -/
def linkRow (i : Instr) : Option (BitVec 14 × LinkData × (Nat → Bool) × (State → Link → Plan) × (Link → List Byte)) :=
  match i with
  | .cbcEncrypt t d => some (t, d, isOp 0x110, cbcPlan false, fun _ => [])
  | .cbcDecrypt t d => some (t, d, isOp 0x111, cbcPlan true, fun _ => [])
  | .ctrEncrypt t d => some (t, d, isOp 0x118, ctrPlan false, fun _ => [])
  | .ctrDecrypt t d => some (t, d, isOp 0x119, ctrPlan true, fun _ => [])
  | .gcmEncrypt t d => some (t, d, isOp 0x120, sealPlan .gcm false, Link.ivIn)
  | .gcmDecrypt t d => some (t, d, isOp 0x121, openPlan .gcm false, fun _ => [])
  | .gmacGenerate t d => some (t, d, isOp 0x122, sealPlan .gcm true, Link.ivIn)
  | .gmacVerify t d => some (t, d, isOp 0x123, openPlan .gcm true, fun _ => [])
  | .xtsEncrypt t d => some (t, d, isOp 0x128, xtsPlan false, fun _ => [])
  | .xtsDecrypt t d => some (t, d, isOp 0x129, xtsPlan true, fun _ => [])
  | .ccmEncrypt t d => some (t, d, isOp 0x130, sealPlan .ccm false, Link.ivIn)
  | .ccmDecrypt t d => some (t, d, isOp 0x131, openPlan .ccm false, fun _ => [])
  | .kwWrap t d => some (t, d, isOp 0x138, kwWrapPlan, fun _ => [])
  | .kwUnwrap t d => some (t, d, isOp 0x139, kwUnwrapPlan, fun _ => [])
  | .kwpWrap t d => some (t, d, isOp 0x13A, kwpWrapPlan, fun _ => [])
  | .kwpUnwrap t d => some (t, d, isOp 0x13B, kwpUnwrapPlan, fun _ => [])
  | .ccpEncrypt t d => some (t, d, isOp 0x140, sealPlan .ccp false, Link.ivIn)
  | .ccpDecrypt t d => some (t, d, isOp 0x141, openPlan .ccp false, fun _ => [])
  | .sha2 t d => some (t, d, fun n => decide (0x200 ≤ n ∧ n ≤ 0x203), digestPlan (· - 0x1FF) false, fun _ => [])
  | .sha3 t d => some (t, d, fun n => decide (0x208 ≤ n ∧ n ≤ 0x20B), digestPlan (· - 0x200) false, fun _ => [])
  | .shake t d => some (t, d, fun n => decide (n = 0x20C ∨ n = 0x20D), digestPlan (· - 0x200) true, fun _ => [])
  | .hmac t d => some (t, d, isOp 0x210, hmacPlan, fun _ => [])
  | .hkdf t d => some (t, d, isOp 0x218, kdfPlan .hkdf, fun _ => [])
  | .hkdfExtract t d => some (t, d, isOp 0x219, kdfPlan .extract, fun _ => [])
  | .hkdfExpand t d => some (t, d, isOp 0x21A, kdfPlan .expand, fun _ => [])
  | .kdfCtr t d => some (t, d, isOp 0x220, kdfPlan .ctr, fun _ => [])
  | .sessStart t d => some (t, d, isOp 0x2F0, sessStartPlan, fun _ => [])
  | .sessUpdate t d => some (t, d, isOp 0x2F1, sessUpdatePlan, fun _ => [])
  | .sessFinish t d => some (t, d, isOp 0x2F2, sessFinishPlan, fun _ => [])
  | .sessAbort t d => some (t, d, isOp 0x2F3, sessAbortPlan, fun _ => [])
  | .rsaOaepEncrypt t d => some (t, d, isOp 0x300, oaepEncryptPlan, fun _ => [])
  | .rsaOaepDecrypt t d => some (t, d, isOp 0x301, oaepDecryptPlan, fun _ => [])
  | .rsaPssSign t d => some (t, d, isOp 0x302, rsaSignPlan true, fun _ => [])
  | .rsaPssVerify t d => some (t, d, isOp 0x303, rsaVerifyPlan true, fun _ => [])
  | .rsaPkcs1Sign t d => some (t, d, isOp 0x304, rsaSignPlan false, fun _ => [])
  | .rsaPkcs1Verify t d => some (t, d, isOp 0x305, rsaVerifyPlan false, fun _ => [])
  | .rsaPublicRaw t d => some (t, d, isOp 0x308, rsaRawPlan, fun _ => [])
  | .ecdsaKeygen t d => some (t, d, isOp 0x310, keygenPlan algEcdsa 0x20, fun _ => [])
  | .ecdsaSign t d => some (t, d, isOp 0x311, ecdsaSignPlan, fun _ => [])
  | .ecdsaVerify t d => some (t, d, isOp 0x312, ecdsaVerifyPlan, fun _ => [])
  | .eddsaKeygen t d => some (t, d, isOp 0x318, keygenPlan algEddsa 0x21, fun _ => [])
  | .eddsaSign t d => some (t, d, isOp 0x319, eddsaSignPlan, fun _ => [])
  | .eddsaVerify t d => some (t, d, isOp 0x31A, eddsaVerifyPlan, fun _ => [])
  | .eddsaVerifyBatch t d => some (t, d, isOp 0x31B, eddsaBatchPlan, fun _ => [])
  | .xdhKeygen t d => some (t, d, isOp 0x320, keygenPlan algXdh 0x22, fun _ => [])
  | .xdhAgree t d => some (t, d, isOp 0x321, xdhAgreePlan, fun _ => [])
  | .pkPublic t d => some (t, d, isOp 0x3F0, pkPublicPlan algClassic bindingClassic, fun _ => [])
  | .mlkemKeygen t d => some (t, d, isOp 0x400, keygenPlan algKem 0x24, fun _ => [])
  | .mlkemEncaps t d => some (t, d, isOp 0x401, encapsPlan, fun _ => [])
  | .mlkemDecaps t d => some (t, d, isOp 0x402, decapsPlan, fun _ => [])
  | .mldsaKeygen t d => some (t, d, isOp 0x410, keygenPlan algDsa 0x25, fun _ => [])
  | .mldsaSign t d => some (t, d, isOp 0x411, mldsaSignPlan, fun _ => [])
  | .mldsaVerify t d => some (t, d, isOp 0x412, mldsaVerifyPlan, fun _ => [])
  | .mldsaVerifyBatch t d => some (t, d, isOp 0x413, mldsaBatchPlan, fun _ => [])
  | .hssVerify t d => some (t, d, isOp 0x420, hssVerifyPlan, fun _ => [])
  | .slhdsaVerify t d => some (t, d, isOp 0x428, slhVerifyPlan, fun _ => [])
  | .pkPublicPq t d => some (t, d, isOp 0x4F0, pkPublicPlan algPq bindingPq, fun _ => [])
  | .random t d => some (t, d, isOp 0x700, randomPlan, fun _ => [])
  | .stipplePack t d => some (t, d, isOp 0x500, packPlan, fun _ => [])
  | .stippleUnpack t d => some (t, d, isOp 0x501, unpackPlan, fun _ => [])
  | .vaultCreate t d => some (t, d, isOp 0x600, createPlan, fun _ => [])
  | .vaultImport t d => some (t, d, isOp 0x601, importPlan, fun _ => [])
  | .vaultExport t d => some (t, d, isOp 0x602, exportPlan, fun _ => [])
  | .vaultImportPublic t d => some (t, d, isOp 0x603, importPublicPlan, fun _ => [])
  | .vaultDerive t d => some (t, d, isOp 0x608, derivePlan, fun _ => [])
  | .vaultSetAttr t d => some (t, d, isOp 0x610, setAttrPlan, fun _ => [])
  | .vaultQuery t d => some (t, d, isOp 0x611, queryPlan, fun _ => [])
  | .vaultRetire t d => some (t, d, isOp 0x618, retirePlan, fun _ => [])
  | .vaultAuthRegister t d => some (t, d, isOp 0x680, authRegisterPlan, fun _ => [])
  | .vaultAuthClear t d => some (t, d, isOp 0x681, authClearPlan, fun _ => [])
  | .vaultRekeySweep t d => some (t, d, isOp 0x688, sweepPlan, fun _ => [])
  | .vaultEscrowExport t d => some (t, d, isOp 0x690, escrowExportPlan, fun _ => [])
  | .vaultEscrowImport t d => some (t, d, isOp 0x691, escrowImportPlan, fun _ => [])
  | .plateMark t d => some (t, d, isOp 0x0A0, plateMarkPlan, fun _ => [])
  | .plateKeys t d => some (t, d, isOp 0x0A1, plateKeysPlan, fun _ => [])
  | .etchLoad t d => some (t, d, isOp 0x0E0, etchLoadPlan, fun _ => [])
  | .etchClear t d => some (t, d, isOp 0x0E1, etchClearPlan, fun _ => [])
  | .etchedCommand t d => some (t, d, fun n => decide (0xE00 ≤ n ∧ n < 0xF00), etchedPlan, fun _ => [])
  | _ => none

/-- Stippling and digest rows end a link with a step of their own: a digest's context is dropped, Stipple counts. -/
def rowEnd (i : Instr) (n : Nat) (s : State) : State :=
  match i with
  | .sha2 t _ | .sha3 t _ | .shake t _ | .hmac t _ | .hkdf t _ | .hkdfExtract t _ | .hkdfExpand t _ | .kdfCtr t _
  | .sessStart t _ | .sessUpdate t _ | .sessFinish t _ | .sessAbort t _ =>
    match s.tag? t.toNat with
    | some e => if e.phase = .ended ∨ e.phase = .commitWait then s.dropDctx t.toNat else s
    | none => s
  | .stipplePack t _ =>
    match s.tag? t.toNat with
    | some e => if e.phase = .ended then s.stippleCount true n e else s
    | none => s
  | .stippleUnpack t _ =>
    match s.tag? t.toNat with
    | some e => if e.phase = .ended then s.stippleCount false n e else s
    | none => s
  | _ => s

/-- A digest link waits for no spilled context of its own (R183). -/
def notRestoring (i : Instr) (s : State) : Bool :=
  match i with
  | .sha2 t _ | .sha3 t _ | .shake t _ | .hmac t _ | .hkdf t _ | .hkdfExtract t _ | .hkdfExpand t _ | .kdfCtr t _
  | .sessStart t _ | .sessUpdate t _ | .sessFinish t _ | .sessAbort t _ => !s.restoringFor t.toNat
  | _ => true

/-- A link comes through everything before its work: its parameters are read, no pre-start check fails (R84), its output
has a place (R93), no lease must be written first (R157), its counts are taken (R155, R250), and its input is read. `e`
and `w` are its slots, `iv` its allocated IV, `x` its input, `u` the state in which its work begins. -/
structure State.Starts (s : State) (l : Link) (p : Plan) (sup : List Byte) (e w : SlotEnt) (iv : Iv) (x : List Byte)
    (u : State) : Prop where
  fresh : l.mark = none
  read : (s.paramsRead l p).1 = true
  answered : l.data.access = .ok
  supported : p.unsupported = false
  checks : (s.paramsRead l p).2.preChecks l p = .ok e w
  counts : ∃ r i y, (s.paramsRead l p).2.reserveOut l.tag = some r ∧ r.usesReady p.uses = .go ∧
    (r.drbgOpen l).takeCounts sup (((r.tag? l.tag).bind (·.passed)).getD e) p.uses {} = (.ok iv, i) ∧
    (i.drbgClose l.tag false).inputOf l = (some x, y) ∧ u = y.drbgOpen l

/-- A link that was suspended or is replayed goes on from its mark, with what the mark holds: its slots, its allocated IV
and the input it has consumed (R161, R164, R165, R207). -/
structure State.Resumes (s : State) (l : Link) (e w : SlotEnt) (iv : Iv) (x : List Byte) (u : State) : Prop where
  marked : ∃ m, l.mark = some m ∧ e = m.slot ∧ w = m.wrap ∧ iv = { iv := m.iv, field := m.ivField }
  answered : l.data.access = .ok
  input : ∃ y, s.inputOf l = (some x, y) ∧ u = y.drbgOpen l

/-- A link's work begins: it starts, or goes on from its mark. -/
def State.Works (s : State) (l : Link) (p : Plan) (sup : List Byte) (e w : SlotEnt) (iv : Iv) (x : List Byte) (u : State) :
    Prop :=
  s.Starts l p sup e w iv x u ∨ s.Resumes l e w iv x u

/-! Memories -/

/-- Every addressed memory of the block is in its canonical form. -/
def State.memoriesWf (s : State) : Bool := s.bu.dmem.wf && s.bu.imem.wf

end Sys2Proof.Machine
end

