-- ==== Sys2Proof/Certificates/Slice0/Obligations.lean ====
section
/-! DEFINITION. The statements about the model, in the words of the spec's rules; each docstring names the rules it follows
and, where it says so, the log entries of the conventions it rests on. -/

open Sys2Proof Sys2Proof.Machine

/-! Burin (11_burin.md) -/

/-- Arithmetic and logic (R279, R286, Tables 11.5, 11.7, 11.8): the destination register, the program counter, and nothing
else of the block. -/
def Obligations.BurinArithmetic : Prop :=
  ∀ s : State, s.Executes → s.burinNow.Quiet →
    (∀ rd rb, BurinSets s (.mov rd rb) rd (s.burinNow.ctx.get rb) 2) ∧
    (∀ rd rb, BurinSets s (.add (.short rd rb)) rd (s.burinNow.ctx.get rd + s.burinNow.ctx.get rb) 2) ∧
    (∀ rd ra rb, BurinSets s (.add (.long rd ra rb)) rd (s.burinNow.ctx.get ra + s.burinNow.ctx.get rb) 4) ∧
    (∀ rd rb, BurinSets s (.sub (.short rd rb)) rd (s.burinNow.ctx.get rd - s.burinNow.ctx.get rb) 2) ∧
    (∀ rd ra rb, BurinSets s (.sub (.long rd ra rb)) rd (s.burinNow.ctx.get ra - s.burinNow.ctx.get rb) 4) ∧
    (∀ rd rb, BurinSets s (.andOp (.short rd rb)) rd (s.burinNow.ctx.get rd &&& s.burinNow.ctx.get rb) 2) ∧
    (∀ rd ra rb, BurinSets s (.andOp (.long rd ra rb)) rd (s.burinNow.ctx.get ra &&& s.burinNow.ctx.get rb) 4) ∧
    (∀ rd rb, BurinSets s (.orOp (.short rd rb)) rd (s.burinNow.ctx.get rd ||| s.burinNow.ctx.get rb) 2) ∧
    (∀ rd ra rb, BurinSets s (.orOp (.long rd ra rb)) rd (s.burinNow.ctx.get ra ||| s.burinNow.ctx.get rb) 4) ∧
    (∀ rd rb, BurinSets s (.xorOp (.short rd rb)) rd (s.burinNow.ctx.get rd ^^^ s.burinNow.ctx.get rb) 2) ∧
    (∀ rd ra rb, BurinSets s (.xorOp (.long rd ra rb)) rd (s.burinNow.ctx.get ra ^^^ s.burinNow.ctx.get rb) 4) ∧
    (∀ rd ra rb, BurinSets s (.andn rd ra rb) rd (s.burinNow.ctx.get ra &&& ~~~(s.burinNow.ctx.get rb)) 4) ∧
    (∀ rd rb, BurinSets s (.neg rd rb) rd (-(s.burinNow.ctx.get rb)) 2) ∧
    (∀ rd imm, BurinSets s (.addi (.short rd imm)) rd (s.burinNow.ctx.get rd + imm.signExtend 32) 2) ∧
    (∀ rd ra imm, BurinSets s (.addi (.long rd ra imm)) rd (s.burinNow.ctx.get ra + imm.signExtend 32) 4) ∧
    (∀ rd ra imm, BurinSets s (.andi rd ra imm) rd (s.burinNow.ctx.get ra &&& imm.setWidth 32) 4) ∧
    (∀ rd ra imm, BurinSets s (.ori rd ra imm) rd (s.burinNow.ctx.get ra ||| imm.setWidth 32) 4) ∧
    (∀ rd ra imm, BurinSets s (.xori rd ra imm) rd (s.burinNow.ctx.get ra ^^^ imm.setWidth 32) 4) ∧
    (∀ rd imm, BurinSets s (.li rd imm) rd (imm.signExtend 32) 2) ∧
    (∀ rd imm, BurinSets s (.lui rd imm) rd (imm ++ (0 : BitVec 14)) 4)

/-- Comparisons (R286): 1 or 0 for SLT, SLTU and SLTI, the smaller or the greater operand for the rest. -/
def Obligations.BurinComparisons : Prop :=
  ∀ s : State, s.Executes → s.burinNow.Quiet →
    (∀ rd rb, BurinSets s (.slt (.short rd rb)) rd
      (if (s.burinNow.ctx.get rd).toInt < (s.burinNow.ctx.get rb).toInt then 1 else 0) 2) ∧
    (∀ rd ra rb, BurinSets s (.slt (.long rd ra rb)) rd
      (if (s.burinNow.ctx.get ra).toInt < (s.burinNow.ctx.get rb).toInt then 1 else 0) 4) ∧
    (∀ rd rb, BurinSets s (.sltu (.short rd rb)) rd
      (if (s.burinNow.ctx.get rd).toNat < (s.burinNow.ctx.get rb).toNat then 1 else 0) 2) ∧
    (∀ rd ra rb, BurinSets s (.sltu (.long rd ra rb)) rd
      (if (s.burinNow.ctx.get ra).toNat < (s.burinNow.ctx.get rb).toNat then 1 else 0) 4) ∧
    (∀ rd ra imm, BurinSets s (.slti rd ra imm) rd
      (if (s.burinNow.ctx.get ra).toInt < (imm.signExtend 32).toInt then 1 else 0) 4) ∧
    (∀ rd ra rb, ∃ v, BurinSets s (.minOp rd ra rb) rd v 4 ∧
      v.toInt = min (s.burinNow.ctx.get ra).toInt (s.burinNow.ctx.get rb).toInt) ∧
    (∀ rd ra rb, ∃ v, BurinSets s (.maxOp rd ra rb) rd v 4 ∧
      v.toInt = max (s.burinNow.ctx.get ra).toInt (s.burinNow.ctx.get rb).toInt) ∧
    (∀ rd ra rb, ∃ v, BurinSets s (.minu rd ra rb) rd v 4 ∧
      v.toNat = min (s.burinNow.ctx.get ra).toNat (s.burinNow.ctx.get rb).toNat) ∧
    (∀ rd ra rb, ∃ v, BurinSets s (.maxu rd ra rb) rd v 4 ∧
      v.toNat = max (s.burinNow.ctx.get ra).toNat (s.burinNow.ctx.get rb).toNat)

/-- Shifts and bit counts (R286): a register's low five bits or the immediate give the distance. -/
def Obligations.BurinShifts : Prop :=
  ∀ s : State, s.Executes → s.burinNow.Quiet →
    (∀ rd rb, BurinSets s (.shl (.short rd rb)) rd (s.burinNow.ctx.get rd <<< ((s.burinNow.ctx.get rb).toNat % 32)) 2) ∧
    (∀ rd ra rb, BurinSets s (.shl (.long rd ra rb)) rd (s.burinNow.ctx.get ra <<< ((s.burinNow.ctx.get rb).toNat % 32)) 4) ∧
    (∀ rd rb, BurinSets s (.shr (.short rd rb)) rd (s.burinNow.ctx.get rd >>> ((s.burinNow.ctx.get rb).toNat % 32)) 2) ∧
    (∀ rd ra rb, BurinSets s (.shr (.long rd ra rb)) rd (s.burinNow.ctx.get ra >>> ((s.burinNow.ctx.get rb).toNat % 32)) 4) ∧
    (∀ rd rb, ∃ v, BurinSets s (.sar (.short rd rb)) rd v 2 ∧
      v.toInt = (s.burinNow.ctx.get rd).toInt / 2 ^ ((s.burinNow.ctx.get rb).toNat % 32)) ∧
    (∀ rd ra rb, ∃ v, BurinSets s (.sar (.long rd ra rb)) rd v 4 ∧
      v.toInt = (s.burinNow.ctx.get ra).toInt / 2 ^ ((s.burinNow.ctx.get rb).toNat % 32)) ∧
    (∀ rd ra rb, BurinSets s (.ror rd ra rb) rd
      ((s.burinNow.ctx.get ra).rotateRight ((s.burinNow.ctx.get rb).toNat % 32)) 4) ∧
    (∀ rd imm, BurinSets s (.shli (.short rd imm)) rd (s.burinNow.ctx.get rd <<< imm.toNat) 2) ∧
    (∀ rd ra imm, BurinSets s (.shli (.long rd ra imm)) rd (s.burinNow.ctx.get ra <<< imm.toNat) 4) ∧
    (∀ rd imm, BurinSets s (.shri (.short rd imm)) rd (s.burinNow.ctx.get rd >>> imm.toNat) 2) ∧
    (∀ rd ra imm, BurinSets s (.shri (.long rd ra imm)) rd (s.burinNow.ctx.get ra >>> imm.toNat) 4) ∧
    (∀ rd imm, ∃ v, BurinSets s (.sari (.short rd imm)) rd v 2 ∧ v.toInt = (s.burinNow.ctx.get rd).toInt / 2 ^ imm.toNat) ∧
    (∀ rd ra imm, ∃ v, BurinSets s (.sari (.long rd ra imm)) rd v 4 ∧ v.toInt = (s.burinNow.ctx.get ra).toInt / 2 ^ imm.toNat) ∧
    (∀ rd ra, ∃ n : Nat, BurinSets s (.clz rd ra) rd (BitVec.ofNat 32 n) 4 ∧ n ≤ 32 ∧
      (s.burinNow.ctx.get ra).toNat < 2 ^ (32 - n) ∧ (n < 32 → 2 ^ (31 - n) ≤ (s.burinNow.ctx.get ra).toNat)) ∧
    (∀ rd ra, BurinSets s (.popc rd ra) rd
      (BitVec.ofNat 32 (((List.range 32).filter (fun k => (s.burinNow.ctx.get ra).getLsbD k)).length)) 4) ∧
    (∀ rd ra, BurinSets s (.bswap rd ra) rd
      ((s.burinNow.ctx.get ra).extractLsb' 0 8 ++ (s.burinNow.ctx.get ra).extractLsb' 8 8 ++
       (s.burinNow.ctx.get ra).extractLsb' 16 8 ++ (s.burinNow.ctx.get ra).extractLsb' 24 8) 4)

/-- R0 discards writes and reads 0; any other register reads what was written, and a write changes no other register nor
any special register (R279). -/
def Obligations.BurinRegisterFile : Prop :=
  (∀ (c : BuCtx) (v : Word), (c.set 0 v) = c ∧ c.get 0 = 0) ∧
  (∀ (c : BuCtx) (r q : BitVec 5) (v : Word), r ≠ 0 → (c.set r v).get q = if q = r then v else c.get q) ∧
  (∀ (c : BuCtx) (r : BitVec 5) (v : Word), c.set r v = { c with regs := (c.set r v).regs })
/-- Loads (R273, R281, R284, Tables 11.5, 11.7): an aligned address in data SRAM (outside the routine area the first 256
KiB, for routine code its own window) gives its little-endian value, one in the data view of instruction SRAM gives it in
two cycles; field 0 of the base names DSP. The value lands once the next instruction has run. A load's value is written to
its register when its delay slot has passed, and every other register keeps its value (R281). -/
def Obligations.BurinLoadForms : Prop :=
  (∀ s : State, s.Executes → s.burinNow.Quiet →
    (∀ (m : Memory) (cost n : Nat) (a : Word) (area : Area),
      (area = .dsram ∧ m = s.burinNow.dmem ∧ cost = 1) ∨ (area = .iview ∧ m = s.burinNow.imem ∧ cost = 2) →
      a.toNat % n = 0 → dataArea (inArea s.burinNow.ctx.pc) false a.toNat n = area →
      (∀ rd imm, n = 4 → a = s.burinNow.ctx.dsp + 4 * imm.setWidth 32 →
        BurinLoads s (.lws rd imm) rd (BitVec.ofNat 32 (leNat (m.readBytes a.toNat 4))) 2 cost) ∧
      (∀ rd base imm, a = (if base = 0 then s.burinNow.ctx.dsp else s.burinNow.ctx.get base) + imm.signExtend 32 →
        (n = 4 → BurinLoads s (.lw rd base imm) rd (BitVec.ofNat 32 (leNat (m.readBytes a.toNat 4))) 4 cost) ∧
        (n = 2 → BurinLoads s (.lhu rd base imm) rd ((BitVec.ofNat 16 (leNat (m.readBytes a.toNat 2))).setWidth 32) 4 cost) ∧
        (n = 2 → BurinLoads s (.lh rd base imm) rd ((BitVec.ofNat 16 (leNat (m.readBytes a.toNat 2))).signExtend 32) 4 cost) ∧
        (n = 1 → BurinLoads s (.lbu rd base imm) rd ((m.read a.toNat).setWidth 32) 4 cost) ∧
        (n = 1 → BurinLoads s (.lb rd base imm) rd ((m.read a.toNat).signExtend 32) 4 cost)))) ∧
  (∀ (s : State) (rd : BitVec 5) (v : Word), s.burinRuns = true → s.bu.Quiet → s.bu.products = [] →
    s.bu.loads = [{ rd := rd.toNat, val := v, slotDone := true }] →
    exec .loadWriteback s = .next { s with bu := { s.bu with ctx := s.bu.ctx.set rd v, loads := [] } })

/-- Stores to data SRAM (R273, R276, R284): the bytes of the source register, at the address that the load of the same
form would read. -/
def Obligations.BurinStoreForms : Prop :=
  ∀ s : State, s.Executes → s.burinNow.Quiet → ∀ (a : Word) (n : Nat),
    a.toNat % n = 0 → dataArea (inArea s.burinNow.ctx.pc) true a.toNat n = .dsram →
      (∀ rd imm, n = 4 → a = s.burinNow.ctx.dsp + 4 * imm.setWidth 32 →
        BurinStores s (.sws rd imm) a.toNat (leBytes 4 (s.burinNow.ctx.get rd).toNat) 2) ∧
      (∀ rs base imm, a = (if base = 0 then s.burinNow.ctx.dsp else s.burinNow.ctx.get base) + imm.signExtend 32 →
        (n = 4 → BurinStores s (.sw rs base imm) a.toNat (leBytes 4 (s.burinNow.ctx.get rs).toNat) 4) ∧
        (n = 2 → BurinStores s (.sh rs base imm) a.toNat (leBytes 2 (s.burinNow.ctx.get rs).toNat) 4) ∧
        (n = 1 → BurinStores s (.sb rs base imm) a.toNat (leBytes 1 (s.burinNow.ctx.get rs).toNat) 4))

/-- Conditional branches (R286): taken to PC + 2 × the sign-extended immediate when the condition holds, else passed. Jumps,
calls and returns (R283, R285, R286): CALL and CALLR push the address of the next instruction on a return stack of 64
entries, RET pops it, TRET goes to EPC and clears INTRAP. -/
def Obligations.BurinControlFlow : Prop :=
  (∀ s : State, s.Executes → s.burinNow.Quiet →
    (∀ rd imm, let t := s.burinNow.ctx.pc + 2 * imm.signExtend 32; s.burinNow.ctx.mayGo t = true →
      if s.burinNow.ctx.get rd = 0 then
        BurinGoes s (.beqz rd imm) (s.burinNow.ctx.arriving t) t 2 ∧ BurinPasses s (.bnez rd imm) 2
      else
        BurinGoes s (.bnez rd imm) (s.burinNow.ctx.arriving t) t 2 ∧ BurinPasses s (.beqz rd imm) 2) ∧
    (∀ ra rb imm, let t := s.burinNow.ctx.pc + 2 * imm.signExtend 32; s.burinNow.ctx.mayGo t = true →
      (if s.burinNow.ctx.get ra = s.burinNow.ctx.get rb then
        BurinGoes s (.beq ra rb imm) (s.burinNow.ctx.arriving t) t 4 ∧ BurinPasses s (.bne ra rb imm) 4
      else
        BurinGoes s (.bne ra rb imm) (s.burinNow.ctx.arriving t) t 4 ∧ BurinPasses s (.beq ra rb imm) 4) ∧
      (if (s.burinNow.ctx.get ra).toInt < (s.burinNow.ctx.get rb).toInt then
        BurinGoes s (.blt ra rb imm) (s.burinNow.ctx.arriving t) t 4 ∧ BurinPasses s (.bge ra rb imm) 4
      else
        BurinGoes s (.bge ra rb imm) (s.burinNow.ctx.arriving t) t 4 ∧ BurinPasses s (.blt ra rb imm) 4) ∧
      (if (s.burinNow.ctx.get ra).toNat < (s.burinNow.ctx.get rb).toNat then
        BurinGoes s (.bltu ra rb imm) (s.burinNow.ctx.arriving t) t 4 ∧ BurinPasses s (.bgeu ra rb imm) 4
      else
        BurinGoes s (.bgeu ra rb imm) (s.burinNow.ctx.arriving t) t 4 ∧ BurinPasses s (.bltu ra rb imm) 4))) ∧
  (∀ s : State, s.Executes → s.burinNow.Quiet →
    (∀ imm, let t := s.burinNow.ctx.pc + 2 * imm.signExtend 32; s.burinNow.ctx.mayGo t = true →
      BurinGoes s (.jump (.short imm)) (s.burinNow.ctx.arriving t) t 2) ∧
    (∀ imm, let t := s.burinNow.ctx.pc + 2 * imm.signExtend 32; s.burinNow.ctx.mayGo t = true →
      BurinGoes s (.jump (.long imm)) (s.burinNow.ctx.arriving t) t 4 ∧
      (s.burinNow.ctx.stack.length < 64 → BurinGoes s (.call imm)
        { s.burinNow.ctx.arriving t with stack := (s.burinNow.ctx.pc + 4) :: s.burinNow.ctx.stack } t 4)) ∧
    (∀ rb, let t := s.burinNow.ctx.get rb; s.burinNow.ctx.mayGo t = true →
      BurinGoes s (.jr rb) (s.burinNow.ctx.arriving t) t 2 ∧
      (s.burinNow.ctx.stack.length < 64 → BurinGoes s (.callr rb)
        { s.burinNow.ctx.arriving t with stack := (s.burinNow.ctx.pc + 2) :: s.burinNow.ctx.stack } t 2)) ∧
    (∀ t r, s.burinNow.ctx.stack = t :: r → t.toNat % 2 = 0 →
      BurinGoes s .ret { s.burinNow.ctx.arriving t with stack := r } t 2) ∧
    (s.burinNow.ctx.mayGo s.burinNow.ctx.epc = true →
      BurinGoes s .tret { s.burinNow.ctx.arriving s.burinNow.ctx.epc with inTrap := false } s.burinNow.ctx.epc 2))

/-- Multiplication (R282): the full 64-bit product of the operands, signed or unsigned, is on its way to MHI:MLO, and lands
at the end of its cycle t + 3. Special registers and the stack pointer (R279, R284): MFS reads each of the twelve, MTS
writes the writable ones and has no effect on the others, ADJ and ADJL move DSP, and the NOP does nothing. -/
def Obligations.BurinMultiplyAndSpecials : Prop :=
  ((∀ s : State, s.Executes → s.burinNow.Quiet → ∀ (i : Instr) (x y len : Word) (signed : Bool),
    ((∃ rd rb, i = .mul (.short rd rb) ∧ x = s.burinNow.ctx.get rd ∧ y = s.burinNow.ctx.get rb ∧ len = 2 ∧ signed = true) ∨
     (∃ ra rb, i = .mul (.long ra rb) ∧ x = s.burinNow.ctx.get ra ∧ y = s.burinNow.ctx.get rb ∧ len = 4 ∧ signed = true) ∨
     (∃ rd rb, i = .mulu (.short rd rb) ∧ x = s.burinNow.ctx.get rd ∧ y = s.burinNow.ctx.get rb ∧ len = 2 ∧ signed = false) ∨
     (∃ ra rb, i = .mulu (.long ra rb) ∧ x = s.burinNow.ctx.get ra ∧ y = s.burinNow.ctx.get rb ∧ len = 4 ∧ signed = false)) → s.Fetches len →
    ∃ hi lo : Word,
      exec i s = .next (s.withBurin { s.burinNow.next s.burinNow.ctx (s.burinNow.ctx.pc + len) 1 with
        products := s.burinNow.products ++ [{ issued := s.burinNow.cycle, hi := hi, lo := lo }] }) ∧
      (if signed then (hi ++ lo : BitVec 64).toInt = x.toInt * y.toInt else (hi ++ lo : BitVec 64).toNat = x.toNat * y.toNat)) ∧
  (∀ (s : State) (p : Product), s.burinRuns = true → s.bu.Quiet → s.bu.loads = [] → s.bu.products = [p] →
    exec .productLands s = .next { s with bu := { s.bu with
      ctx := { s.bu.ctx with mhi := p.hi, mlo := p.lo }, products := [], cycle := max s.bu.cycle (p.issued + 4) } })) ∧
  (∀ s : State, s.Executes → s.burinNow.Quiet →
    (inArea s.burinNow.ctx.pc = false → ∀ rd,
      BurinSets s (.mfs rd 0) rd s.burinNow.ctx.dsp 2 ∧ BurinSets s (.mfs rd 1) rd s.burinNow.ctx.mlo 2 ∧
      BurinSets s (.mfs rd 2) rd s.burinNow.ctx.mhi 2 ∧ BurinSets s (.mfs rd 3) rd s.burinNow.ctx.epc 2 ∧
      BurinSets s (.mfs rd 4) rd (s.burinNow.ctx.cause.setWidth 32) 2 ∧ BurinSets s (.mfs rd 5) rd s.burinNow.ctx.tvec 2 ∧
      BurinSets s (.mfs rd 6) rd (BitVec.ofNat 32 (b2n s.burinNow.ctx.inTrap + 2 * b2n s.burinNow.ctx.inRoutine)) 2 ∧
      BurinSets s (.mfs rd 7) rd (BitVec.ofNat 32 s.burinNow.ctx.stack.length) 2 ∧
      BurinSets s (.mfs rd 8) rd (BitVec.ofNat 32 s.burinNow.cycle) 2 ∧
      BurinSets s (.mfs rd 9) rd (BitVec.ofNat 32 (s.burinNow.cycle / 2 ^ 32)) 2 ∧
      BurinSets s (.mfs rd 10) rd (s.burinNow.evt.setWidth 32) 2 ∧
      BurinSets s (.mfs rd 11) rd (s.burinNow.ctx.evtMask.setWidth 32) 2 ∧
      let v := s.burinNow.ctx.get rd
      let goes (i : Instr) (c : BuCtx) : Prop := s.Fetches 2 → exec i s = .next (s.withBurin (s.burinNow.next c (s.burinNow.ctx.pc + 2) 1))
      goes (.mts rd 0) { s.burinNow.ctx with dsp := v } ∧ goes (.mts rd 1) { s.burinNow.ctx with mlo := v } ∧
      goes (.mts rd 2) { s.burinNow.ctx with mhi := v } ∧ goes (.mts rd 3) { s.burinNow.ctx with epc := v } ∧
      goes (.mts rd 5) { s.burinNow.ctx with tvec := v &&& 0xFFFFFFFE } ∧
      goes (.mts rd 11) { s.burinNow.ctx with evtMask := v.setWidth 6 } ∧
      (s.Fetches 2 → exec (.mts rd 10) s = .next (s.withBurin { s.burinNow.next s.burinNow.ctx (s.burinNow.ctx.pc + 2) 1 with
        evt := s.burinNow.evt &&& ~~~(v.setWidth 6) })) ∧
      (∀ idx : BitVec 5, idx = 4 ∨ idx = 6 ∨ idx = 7 ∨ idx = 8 ∨ idx = 9 → BurinPasses s (.mts rd idx) 2)) ∧
    (∀ imm, s.Fetches 2 → exec (.adj imm) s = .next (s.withBurin (s.burinNow.next
      { s.burinNow.ctx with dsp := s.burinNow.ctx.dsp + 4 * imm.signExtend 32 } (s.burinNow.ctx.pc + 2) 1))) ∧
    (∀ imm, s.Fetches 4 → exec (.adjl imm) s = .next (s.withBurin (s.burinNow.next
      { s.burinNow.ctx with dsp := s.burinNow.ctx.dsp + 4 * imm.signExtend 32 } (s.burinNow.ctx.pc + 4) 1))) ∧
    BurinPasses s .sysNop 2)
/-- A trap saves the program counter in EPC and the cause in CAUSE, sets INTRAP, goes on at TVEC and raises BU_TRAP, or
BU_ROUTINE_TRAP in routine code, where the etched link that it runs ends; while INTRAP is 1 it halts Burin (R285). BRK
traps with cause 11, a reserved encoding with cause 1 (R286); an instruction of which a halfword lies where nothing is
fetched from traps with cause 3, and its message carries the fetch (R273, R333). -/
def Obligations.BurinTraps : Prop :=
  ∀ s : State, s.Executes → s.burinNow.Quiet → ∀ (i : Instr) (n len : Nat) (fetch : Bool),
    ((i = .brk ∧ n = 11 ∧ len = 2) ∨ (∃ h0 h1, i = .illegal h0 h1 ∧ decodeBu h0 h1 = none ∧ n = 1 ∧ len = buLen h0)) ∧
      fetches s.burinNow.ctx.pc len = true ∧ fetch = false ∨
    ((i = .brk ∧ len = 2) ∨ (∃ rd imm, i = .lui rd imm ∧ len = 4)) ∧
      fetches s.burinNow.ctx.pc len = false ∧ n = 3 ∧ fetch = true →
    let pc := s.burinNow.ctx.pc
    let routine := inArea pc || s.burinNow.ctx.inRoutine
    let say (k : Nat) (u : State) : State :=
      if fetch then u.raiseFetch 0x003 k (formB pc.toNat n) burinId pc else u.raise 0x003 k (formB pc.toNat n)
    (s.burinNow.loads = [] → s.burinNow.ctx.inTrap = false →
      let u := say (if routine then 0x35 else 0x34) { s with bu := s.burinNow.trapped n }
      exec i s = .next (if routine then u.routineEnds n else u)) ∧
    (s.burinNow.loads = [] → s.burinNow.ctx.inTrap = true →
      let u := say 0x37 ({ s with bu := s.burinNow } : State).burinHalts
      exec i s = .next (if routine then u.routineEnds n else u))

/-- COMMIT, the commit timer and WFE (R275, R276, R280). A commit point saves the registers and EVT, clears the logs and
releases the outbound buffer in order; WFE then waits until EVT & EVT_MASK is non-zero, and an event ends the wait. -/
def Obligations.BurinCommitPoints : Prop :=
  ∀ s : State,
    (s.Executes → s.Fetches 2 → s.burinNow.Quiet → s.burinNow.loads = [] → s.burinNow.products = [] →
      let b := s.burinNow.next s.burinNow.ctx (s.burinNow.ctx.pc + 2) 1
      let saved (b : Burin) : Burin := { b with
        saved := b.ctx, savedEvt := b.evt, evtNew := 0, savedLow := b.lowHalf, savedHalf := b.loadHalf, outb := [], undo := [],
        readLog := [], mismatched := false, commitDue := false, cycle := b.cycle + 2 }
      exec .commit s = .next (b.outb.foldl (fun u w => u.releaseWrite w) { s with bu := saved (s.withBurin b).bu }) ∧
      (b.outb = [] → exec .wfe s = .next { s with bu := { saved (s.withBurin b).bu with
        waiting := decide ((s.withBurin b).bu.evt &&& s.burinNow.ctx.evtMask = 0) } })) ∧
    (s.burinRuns = true → s.bu.loads = [] → s.bu.products = [] → s.bu.outb = [] →
      exec .commitTimer s = .next { s with bu := { s.bu with
        saved := s.bu.ctx, savedEvt := s.bu.evt, evtNew := 0, savedLow := s.bu.lowHalf, savedHalf := s.bu.loadHalf, outb := [], undo := [],
        readLog := [], mismatched := false, commitDue := false, cycle := s.bu.cycle + 2 } }) ∧
    (s.bu.state = .run → s.bu.waiting = true → s.fc.halted = false → s.evtSync.bu.evt &&& s.bu.ctx.evtMask ≠ 0 →
      exec .wfeWake s = .next { s with bu := { s.evtSync.bu with waiting := false } })

/-- A lock-step mismatch brings Burin back to the last commit point, in ROLLBACK until its re-execution begins: registers and
EVT as saved, with the events that have come since (log 80), data SRAM as the undo log
tells, the outbound buffer dropped, the read log kept for the re-execution; the link Burin works on is marked REPLAYED.
A second one before a new commit point halts Burin (R276, R277, R278). -/
def Obligations.BurinLockstep : Prop :=
  ∀ s : State, s.bu.state = .run → s.fc.halted = false →
    (s.bu.mismatched = false → ∃ t, exec .lockstepMismatch s = .next t ∧
      t.bu.state = .rollback ∧ t.bu.ctx = s.bu.saved ∧ t.bu.evt = s.bu.savedEvt ||| s.bu.evtNew ∧ t.bu.mismatched = true ∧ t.bu.outb = [] ∧
      t.bu.replay = s.bu.readLog ++ s.bu.replay ∧ t.bu.imem = s.bu.imem ∧
      t.bu.dmem = s.bu.undo.foldl (fun m p => m.writeBytes p.1 (leBytes 4 p.2.toNat)) s.bu.dmem ∧
      (∀ n e, (s.unit 0x003).busy = some n → s.tag? n = some e → t.tag? n = some { e with replayed := true }) ∧
      t.fx = s.fx ∧ t.rt = s.rt ∧ t.d0 = s.d0 ∧ t.vt = s.vt ∧ t.mb = s.mb ∧ t.po = s.po) ∧
    (s.bu.mismatched = true → ∃ t, exec .lockstepMismatch s = .next t ∧ t.bu.state = .halted ∧
      t.bu.ctx = s.bu.ctx ∧ t.bu.dmem = s.bu.dmem ∧ t.fx = s.fx ∧ t.sq = s.sq ∧ t.po = s.po)

/-- ETCH runs the micro-words of a valid entry from START (R290, R291, R292): one word of a one-cycle operation that ends
there puts its result into rd, in two cycles. An entry that is not valid, or an etch state that is open, traps with
ETCH_INVALID. -/
def Obligations.BurinEtched : Prop :=
  ∀ s : State, s.Executes → s.Fetches 4 → s.burinNow.Quiet → ∀ (rd ra rb : BitVec 5) (index : BitVec 6) (e w : BitVec 64),
    s.burinNow.etch.entries.get 0 index.toNat = e →
    (s.burinNow.etch.isOpen = false → bit e 12 = true → s.burinNow.etch.words.get 0 (fld e 0 12).toNat = w →
      bit w 45 = true → fld w 54 4 = 0 → fld w 50 4 = 1 → fld w 46 4 = 2 → ∀ v,
      etchValue (fld w 58 6).toNat (s.burinNow.ctx.get ra) (s.burinNow.ctx.get rb) = some v →
      exec (.etch rd ra rb index) s =
        .next (s.withBurin (s.burinNow.next (s.burinNow.ctx.set rd v) (s.burinNow.ctx.pc + 4) 2))) ∧
    (s.burinNow.etch.isOpen = true ∨ bit e 12 = false → s.burinNow.loads = [] → s.burinNow.ctx.inTrap = false →
      let routine := inArea s.burinNow.ctx.pc || s.burinNow.ctx.inRoutine
      let u := ({ s with bu := s.burinNow.trapped 6 } : State).raise 0x003 (if routine then 0x35 else 0x34)
        (formB s.burinNow.ctx.pc.toNat 6)
      exec (.etch rd ra rb index) s = .next (if routine then u.routineEnds 6 else u))

/-- The register window (R274, R276, R277): a store to a 32-bit register waits in the outbound buffer; the two halves of a
64-bit register wait as one write; a load in a re-execution gives the logged value, and one that does not match halts
Burin. -/
def Obligations.BurinWindow : Prop :=
  ∀ s : State, s.Executes → s.Fetches 4 → s.burinNow.Quiet → inArea s.burinNow.ctx.pc = false → ∀ (r base : BitVec 5) (imm : BitVec 14) (off : Nat),
    ((if base = 0 then s.burinNow.ctx.dsp else s.burinNow.ctx.get base) + imm.signExtend 32).toNat = 0x10000000 + off →
    off < 0x1400000 → off % 4 = 0 →
    (wide64 (off / 8 * 8) = false → exec (.sw r base imm) s = .next (s.withBurin
      { s.burinNow.next s.burinNow.ctx (s.burinNow.ctx.pc + 4) 1 with
        outb := s.burinNow.outb ++ [(off, (s.burinNow.ctx.get r).setWidth 64, false)] })) ∧
    (∀ x, wide64 (off / 8 * 8) = true → off % 8 = 4 → s.burinNow.lowHalf = some (off - 4, x) →
      exec (.sw r base imm) s = .next (s.withBurin
        { s.burinNow.next s.burinNow.ctx (s.burinNow.ctx.pc + 4) 1 with
          lowHalf := none, outb := s.burinNow.outb ++ [(off - 4, (s.burinNow.ctx.get r ++ x), true)] })) ∧
    (∀ v held rest, s.burinNow.outb = [] → s.burinNow.replay = (off, v, held) :: rest →
      exec (.lw r base imm) s = .next (s.withBurin
        { s.burinNow.next s.burinNow.ctx (s.burinNow.ctx.pc + 4) 1 with
          loads := s.burinNow.loads.map (fun l => { l with slotDone := true }) ++ [{ rd := r.toNat, val := v }],
          replay := rest, loadHalf := held, readLog := s.burinNow.readLog ++ [(off, v, held)] })) ∧
    (∀ a v held rest, s.burinNow.outb = [] → s.burinNow.replay = (a, v, held) :: rest → a ≠ off →
      ∃ t, exec (.lw r base imm) s = .next t ∧ t.bu.state = .halted)

/-- Every Burin instruction of Tables 11.4 to 11.8, whatever its operands, is decoded from its own encoding; the second
halfword of a short one is whatever follows it. -/
def Obligations.BurinDecodeOfEncode : Prop :=
  ∀ op : BuOp,
    (∀ h, encodeBu op = .short h → ∀ next, decodeBu h next = some op) ∧
    (∀ h0 h1, encodeBu op = .long h0 h1 → decodeBu h0 h1 = some op)

/-- Words written out from Tables 11.4 to 11.8 decode to what the tables say. -/
def Obligations.BurinDecodeWords : Prop :=
  decodeBu 0b0000000010100110 0 = some (.mov 5 6) ∧
  decodeBu 0b0000010001100010 0 = some (.add (.short 3 2)) ∧
  decodeBu 0b0011001000111111 0 = some (.addi (.short 17 31)) ∧
  decodeBu 0b0100010000101000 0 = some (.lws 1 8) ∧
  decodeBu 0b0110100000000101 0 = some (.jump (.short 5)) ∧
  decodeBu 0b0110110000100000 0 = some .ret ∧
  decodeBu 0b1000000000001000 0b1000011000000001 = some (.sub (.long 1 2 3)) ∧
  decodeBu 0b1001100000100000 0b1100000000000100 = some (.lw 4 3 4) ∧
  decodeBu 0b1011000111111111 0b1111111111111110 = some (.call 0xFFFFFE) ∧
  decodeBu 0b1111111100010000 0b1100100000000111 = some (.etch 2 3 4 7)
/-! Links (03_rings.md, 06_cipher_lanes.md to 10_plate_vault.md) -/

/-- A link whose checks pass, or that goes on from its mark, and whose work succeeds runs to its end: its output goes to its place, it ends with OK, its
output length and its RESULT, and its unit is free for the next link (R76, R84, R90, R98). Where the work changes slots, the
link ends with the commit of its batch instead, its unit free at once (R176, R255, R267). -/
def Obligations.LinksComplete : Prop :=
  ∀ (i : Instr) (t : BitVec 14) (d : LinkData) (ops : Nat → Bool) (plan : State → Link → Plan) (sup : Link → List Byte)
    (s u v y : State) (l : Link) (e w : SlotEnt) (iv : Iv) (x out : List Byte) (res : DWord),
    linkRow i = some (t, d, ops, plan, sup) → s.link? t.toNat d ops = some l → notRestoring i s = true →
    s.Works l (plan s l) (sup l) e w iv x u → (v.drbgClose l.tag false).writeOut l out = (true, y) →
      ((plan s l).body u e w iv x = (.good out res, v) → l.checkFails (plan s l) e x (.good out res) = false →
        exec i s = .next (rowEnd i l.n ((y.finish l.tag .ok out.length res).readsDone l.tag))) ∧
      (∀ slot ent, (plan s l).body u e w iv x = (.writes [(slot, ent)] none out res, v) →
        l.checkFails (plan s l) e x (.writes [(slot, ent)] none out res) = false →
        (y.writeBlob slot ent).1 = true → (y.writeBlob slot ent).2.imageReady = true →
        exec i s = .next (rowEnd i l.n ((((y.writeBlob slot ent).2.toCommit l
          (if ent.attr.binding ≠ 0 then some slot else none) out.length res).joinBatch slot ent (some l.tag)).readsDone l.tag)))

/-- The pre-start checks end a link in the order of R84, whatever later checks would say: UNSUPPORTED, then KEY_DENIED, then
KEY_LIMIT, then LEN_MISMATCH, with no output and RESULT 0. -/
def Obligations.LinkChecksInOrder : Prop :=
  ∀ (i : Instr) (t : BitVec 14) (d : LinkData) (ops : Nat → Bool) (plan : State → Link → Plan) (sup : Link → List Byte)
    (s : State) (l : Link),
    linkRow i = some (t, d, ops, plan, sup) → s.link? t.toNat d ops = some l → notRestoring i s = true →
    l.mark = none → l.data.access = .ok → (s.paramsRead l (plan s l)).1 = true →
      let u := (s.paramsRead l (plan s l)).2
      ((plan s l).unsupported = true →
        exec i s = .next (rowEnd i l.n ((u.finish l.tag .unsupported 0 0).readsDone l.tag))) ∧
      ((plan s l).unsupported = false → ∀ st, u.preChecks l (plan s l) = .deny st →
        exec i s = .next (rowEnd i l.n ((u.finish l.tag st 0 0).readsDone l.tag)))

/-- KEY_DENIED of any slot goes before KEY_LIMIT, and LEN_MISMATCH shows only when neither fails (R84). -/
def Obligations.CheckOrder : Prop :=
  ∀ (s : State) (l : Link) (p : Plan), l.e.passed = none → p.dest = none → ∀ n use, p.slot = some (n, use) → p.wrap = none →
    (∀ e, s.checkSlot n l.fn l.auth use = .ok e →
      (p.denied e = true → s.preChecks l p = .deny .keyDenied) ∧
      (p.denied e = false → (!l.chainOk || p.badLen e || decide (l.outLen < p.out e)) = true →
        s.preChecks l p = .deny .lenMismatch) ∧
      (p.denied e = false → (!l.chainOk || p.badLen e || decide (l.outLen < p.out e)) = false →
        ∃ w, s.preChecks l p = .ok e w)) ∧
    (s.checkSlot n l.fn l.auth use = .deny .keyDenied → s.preChecks l p = .deny .keyDenied) ∧
    (s.checkSlot n l.fn l.auth use = .deny .keyLimit →
      s.preChecks l p = .deny (if p.denied ((assoc s.vt.slots n).getD {}) then .keyDenied else .keyLimit)) ∧
    (s.checkSlot n l.fn l.auth use = .wait → s.preChecks l p = .wait n)

/-- The slot checks in the order of R250, on a slot of the cache that no blob belongs to: another owner outside the share
group, the world, the life-cycle state, the binding or permission, and the end of validity give KEY_DENIED, and only then
a spent count gives KEY_LIMIT. -/
def Obligations.SlotChecksInOrder : Prop :=
  ∀ (s : State) (slot fn : Nat) (auth : Bool) (u : SlotUse) (e : SlotEnt),
    256 ≤ slot → s.look slot = .hit e → e.attr.blob = false → u.anyFn = false → u.ownerOnly = false → u.query = false →
    (e.attr.owner ≠ fn ∧ (e.attr.share = 0 ∨ (s.fn fn).entry.shareGroup ≠ e.attr.share) → s.checkSlot slot fn auth u = .deny .keyDenied) ∧
    (e.attr.world ≠ 2 ∧ e.attr.world ≠ (s.fn fn).entry.world → s.checkSlot slot fn auth u = .deny .keyDenied) ∧
    (e.attr.lcMask.getLsbD s.ts.lcs.toNat = false → s.checkSlot slot fn auth u = .deny .keyDenied) ∧
    (u.suits e = false → s.checkSlot slot fn auth u = .deny .keyDenied) ∧
    (∀ p, u.perm = some p → e.attr.perms.getLsbD p = false → s.checkSlot slot fn auth u = .deny .keyDenied) ∧
    (e.attr.notAfter ≠ 0 ∧ e.attr.notAfter.toNat < s.po.tm.toNat → s.checkSlot slot fn auth u = .deny .keyDenied) ∧
    (e.attr.owner = fn → (e.attr.world = 2 ∨ e.attr.world = (s.fn fn).entry.world) →
      e.attr.lcMask.getLsbD s.ts.lcs.toNat = true → u.suits e = true → (∀ p, u.perm = some p → e.attr.perms.getLsbD p = true) →
      (e.attr.notAfter = 0 ∨ s.po.tm.toNat ≤ e.attr.notAfter.toNat) →
      s.checkSlot slot fn auth u =
        if u.consumes = true ∧ e.attr.usageLimit ≠ 0 ∧ e.attr.usageLimit ≤ e.attr.usageCount then .deny .keyLimit else .ok e)

/-! The function table and the function pages (02_functions.md, 04_chains.md) -/

/-- The commands of FT_CMD on the selected entry (R29, R30, R36, Table 2.3): LOAD brings the entry to the staging registers,
ENABLE and UNBIND move a READY function, the resets start at a function that is ENABLED or HALTED, an undefined OP gives ERR
4, and any OP written while BUSY is 1 gives ERR 6 alone (how long BUSY lasts is a free value, log 76); FT_NUMVF takes a value that leaves every bound function reachable (R34). Each leaves every other register as it was.
COMMIT (R31): the function's state, FT_NUMVF, ranges, ring overlap and vector overlap are checked in that order, each with
its ERR; a virtual function that is UNBOUND and passes takes the staged entry and becomes READY. -/
def Obligations.FunctionTableCommands : Prop :=
  (∀ (s : State) (q : PortReq),
    let f := s.fx.sel.toNat
    (s.ftBusy = false →
      PortDoes s (.ftLoad q) 0x20008 (q.lower.force 0 4 1)
        (s.modFx (fun x => { x with stage := (s.fn f).entry, err := 0 })).ftBegin ∧
      (f ≠ 0 → (s.fn f).state = .ready →
        PortDoes s (.ftEnable q) 0x20008 (q.lower.force 0 4 3)
          ((s.modFn f (fun v => { v with state := .enabled, quiet := false })).ftErr 0).ftBegin) ∧
      ((s.fn f).state = .ready →
        PortDoes s (.ftUnbind q) 0x20008 (q.lower.force 0 4 6)
          ((s.modFn f (fun v => { v with
            state := .unbound,
            entry := { v.entry with ringBase := 0, ringCount := 0, vecBase := 0, vecCount := 0 } })).ftErr 0).ftBegin) ∧
      (f ≠ 0 → (s.fn f).state = .enabled ∨ (s.fn f).state = .halted →
        PortDoes s (.ftResetDrain q) 0x20008 (q.lower.force 0 4 4) ((s.resetPoint f false false).ftErr 0) ∧
        PortDoes s (.ftResetSquash q) 0x20008 (q.lower.force 0 4 5) ((s.resetPoint f true false).ftErr 0)) ∧
      PortDoes s (.ftCmdUndefined q) 0x20008 (q.lower.undefinedOp 0 4 0 (fun n => decide (1 ≤ n ∧ n ≤ 6))) (s.ftErr 4)) ∧
    (s.ftBusy = true →
      PortDoes s (.ftLoad q) 0x20008 (q.lower.force 0 4 1) (s.ftErr 6) ∧
      PortDoes s (.ftCommit q) 0x20008 (q.lower.force 0 4 2) (s.ftErr 6) ∧
      PortDoes s (.ftEnable q) 0x20008 (q.lower.force 0 4 3) (s.ftErr 6) ∧
      PortDoes s (.ftResetDrain q) 0x20008 (q.lower.force 0 4 4) (s.ftErr 6) ∧
      PortDoes s (.ftResetSquash q) 0x20008 (q.lower.force 0 4 5) (s.ftErr 6) ∧
      PortDoes s (.ftUnbind q) 0x20008 (q.lower.force 0 4 6) (s.ftErr 6) ∧
      PortDoes s (.ftCmdUndefined q) 0x20008 (q.lower.undefinedOp 0 4 0 (fun n => decide (1 ≤ n ∧ n ≤ 6))) (s.ftErr 6)) ∧
    (s.fx.fns.all (fun p => decide (p.1 ≤ (fld q.wdata 0 10).toNat) || decide (p.2.state = .unbound)) = true →
      PortDoes s (.ftNumvfWrite q) 0x20040 q.lower (s.modFx (fun x => { x with numVf := fld q.wdata 0 10 })))) ∧
  (∀ (s : State) (q : PortReq),
    let f := s.fx.sel.toNat
    let e := s.fx.stage
    let Q := q.lower.force 0 4 2
    let rings := (s.bound f).any (fun p => overlaps e.ringBase.toNat e.ringCount.toNat p.2.entry.ringBase.toNat p.2.entry.ringCount.toNat)
    let vecs := (s.bound f).any (fun p => overlaps e.vecBase.toNat e.vecCount.toNat p.2.entry.vecBase.toNat p.2.entry.vecCount.toNat)
    f ≠ 0 → s.ftBusy = false →
      ((s.fn f).state ≠ .unbound → (s.fn f).state ≠ .ready → PortDoes s (.ftCommit q) 0x20008 Q (s.ftErr 1).ftBegin) ∧
      ((s.fn f).state = .unbound ∨ (s.fn f).state = .ready →
        (s.fx.numVf.toNat < f → PortDoes s (.ftCommit q) 0x20008 Q (s.ftErr 5).ftBegin) ∧
        (f ≤ s.fx.numVf.toNat →
          (s.commitRange f e = false → PortDoes s (.ftCommit q) 0x20008 Q (s.ftErr 4).ftBegin) ∧
          (s.commitRange f e = true → rings = true → PortDoes s (.ftCommit q) 0x20008 Q (s.ftErr 2).ftBegin) ∧
          (s.commitRange f e = true → rings = false → vecs = true → PortDoes s (.ftCommit q) 0x20008 Q (s.ftErr 3).ftBegin) ∧
          (s.commitRange f e = true → rings = false → vecs = false → (s.fn f).state = .unbound →
            PortDoes s (.ftCommit q) 0x20008 Q
              ((s.modFn f (fun v => { v with entry := e, state := .ready })).ftErr 0).ftBegin))))

/-- FN_CTRL.FLR_REQ and FLR_REQUEST (R36, R39, R47, R411): either brings an ENABLED or HALTED virtual function to its reset
point, in the entry's FLR mode. A message for a function that is UNBOUND, READY or above FT_NUMVF is answered at once; one for a
function in RESETTING makes that reset one the port asked for, and in squash mode turns a drain into a squash. For function 0
either resets the block. A message with a parity error is discarded. The end of a reset (R41, R43–R45): when DRAIN_US has
elapsed, every link left is reported by its SQUASHED record and abandoned; a function in RESETTING that holds no tag and whose
writes are answered becomes READY, in power state ACTIVE, its table entry kept, its rings disabled, its vectors masked and its event queue
off. -/
def Obligations.FunctionReset : Prop :=
  (∀ (s : State) (f : BitVec 10) (q : PortReq), f.toNat ≠ 0 → (s.fn f.toNat).state = .enabled ∨ (s.fn f.toNat).state = .halted →
    PortDoes s (.flrReq f q) (fnPage f.toNat 0x8) (q.lower.force 0 1 1)
      ((s.modFn f.toNat (fun v => { v with flrReq := true })).resetPoint f.toNat (s.fn f.toNat).entry.flrMode false)) ∧
  (∀ (s : State) (f : BitVec 10), f.toNat ≠ 0 → s.po.fiUp = true →
    let v := s.fn f.toNat
    let p := s.modFn f.toNat (fun v => { v with byPort := true })
    (s.fx.numVf.toNat < f.toNat ∨ v.state = .unbound ∨ v.state = .ready →
      exec (.flrRequest f true) s = .next (s.sendReset f.toNat)) ∧
    (f.toNat ≤ s.fx.numVf.toNat →
      (v.state = .enabled ∨ v.state = .halted →
        exec (.flrRequest f true) s = .next (s.resetPoint f.toNat v.entry.flrMode true)) ∧
      (v.state = .resetting → v.entry.flrMode = true → v.squash = false →
        exec (.flrRequest f true) s = .next ((p.modFn f.toNat (fun v => { v with squash := true })).squashAll f.toNat)) ∧
      (v.state = .resetting → v.entry.flrMode = false ∨ v.squash = true → exec (.flrRequest f true) s = .next p))) ∧
  (∀ (s : State) (q : PortReq),
    ((s.fn 0).state = .enabled → s.Accepts (fnPage 0 0x8) (q.lower.force 0 1 1) →
      exec (.flrReq 0 q) s = .next (s.resetFn0 false)) ∧
    (s.po.fiUp = true → s.fx.fn0Due = false → s.fx.fn0Offered = false → exec (.flrRequest 0 true) s = .next (s.resetFn0 true)) ∧
    (∀ f, exec (.flrRequest f false) s = .next s)) ∧
  (∀ (s : State) (f : BitVec 10), (s.fn f.toNat).state = .resetting → (s.fn f.toNat).squash = false →
    exec (.drainTimeout f) s =
      .next (((s.sq.tags.filter (fun p => decide (p.2.fn = f.toNat))).foldl (fun s (p : Nat × TagEnt) =>
        s.squashed f.toNat (s.localRing f.toNat p.2.ring) (s.flight p.2.pkt).head p.2.link p.2.desc.opcode.toNat false) s).squashAll
          f.toNat)) ∧
  (∀ (s : State) (f : BitVec 10), f.toNat ≠ 0 → (s.fn f.toNat).state = .resetting → (s.tagsOf f.toNat).isEmpty = true →
    s.writeRetries f.toNat = false →
      ∃ t, exec (.resetComplete f) s = .next t ∧ (t.fn f.toNat).state = .ready ∧ (t.fn f.toNat).quiet = true ∧
        (t.fn f.toNat).pstate = 0 ∧ (t.fn f.toNat).flrReq = false ∧ (t.fn f.toNat).eq.en = false ∧ (t.fn f.toNat).eq.lost = 0 ∧
        (t.fn f.toNat).entry = (s.fn f.toNat).entry ∧
        (∀ r ∈ (s.fn f.toNat).entry.rings, (t.ring r).state = .disabled) ∧
        (∀ n ∈ (s.fn f.toNat).entry.vecs, (t.vec n).mask = true))

/-- Event queues and power states of a function that is not UNBOUND (R48–R51): an enable with a good size and vector starts
the queue at index 0; a queue that is off takes a new base; EQ_CONS moves the consumer index; a read of FN_EQ_LOST returns and
clears it; a power-state notice with no message to flush is accepted at once with its PSTATE record. -/
def Obligations.EventQueues : Prop :=
  ∀ (s : State) (f : BitVec 10) (q : PortReq),
    let v := s.fn f.toNat
    v.state ≠ .unbound →
      (v.eq.en = false → q.be = 0xFF → bit q.wdata 0 = true → (fld q.wdata 1 4).toNat ≤ 10 →
        (fld q.wdata 16 14).toNat < v.entry.vecCount.toNat →
        PortDoes s (.eqCtrlWrite f q) (fnPage f.toNat 0x3010) q (s.modFn f.toNat (fun v => { v with eq := { v.eq with
          en := true, size := fld q.wdata 1 4, vecEn := bit q.wdata 8, vector := fld q.wdata 16 14, typeEn := hiHalf q.wdata,
          prod := 0, cons := 0, since := 0 } }))) ∧
      (v.eq.en = false → q.be = 0xFF →
        PortDoes s (.eqBaseWrite f q) (fnPage f.toNat 0x3008) q
          (s.modFn f.toNat (fun v => { v with eq := { v.eq with base := fld q.wdata 12 45 } }))) ∧
      (v.eq.since = 0 →
        PortDoes s (.eqConsWrite f q) (fnPage f.toNat 0x3018) q.upper
          (s.modFn f.toNat (fun v => { v with eq := { v.eq with cons := hiHalf q.wdata } }))) ∧
      (q.be = 0x0F →
        PortReads s (.eqLostRead f q) (fnPage f.toNat 0x3020) q (v.eq.lost.setWidth 64)
          (s.modFn f.toNat (fun v => { v with eq := { v.eq with lost := 0 } }))) ∧
      (v.entry.vecCount = 0 →
        PortDoes s (.pstateNotice f q) (fnPage f.toNat 0x10) q.lower
          ((s.modFn f.toNat (fun v => { v with pstate := fld q.wdata 0 2, accepted := true, flush := [] })).event f.toNat 0x0A f.toNat
            noRing [BitVec.ofNat 8 (fld q.wdata 0 2).toNat]))

/-- Interrupt vectors (R111, R113, R115, R410): FN_VEC_CFG sets the moderation of the selected vector, unless COUNT is 0,
when nothing is written; TIMER_US after the first signal a vector becomes due; a due vector whose records have left, or while IRQ_AFTER_RESP is 1 whose
event records are answered, is offered;
an accepted message clears its vector, and a refused one is kept for another offer. -/
def Obligations.Vectors : Prop :=
  ∀ (s : State) (f : BitVec 10) (v : BitVec 14) (q : PortReq),
    ((s.fn f.toNat).state ≠ .unbound → fld q.wdata 12 12 = 0 →
      PortDoes s (.vecCfgWrite f q) (fnPage f.toNat 0x2008) q.lower s) ∧
    ((s.fn f.toNat).state ≠ .unbound → s.selVec f.toNat = some v.toNat → fld q.wdata 12 12 ≠ 0 → bit q.wdata 31 = true →
      (s.vec v.toNat).pending = 0 → (s.fn f.toNat).accepted = true →
      PortDoes s (.vecCfgWrite f q) (fnPage f.toNat 0x2008) q.lower
        ((s.setVec v.toNat { s.vec v.toNat with timerUs := fld q.wdata 0 10, count := fld q.wdata 12 12, mask := true }).modFn f.toNat
          (fun x => { x with flush := x.flush.filter (fun n => decide (n ≠ v.toNat)) }))) ∧
    (s.vecOwner v.toNat = some f.toNat → (s.vec v.toNat).pending ≠ 0 → (s.vec v.toNat).timerUs ≠ 0 →
      exec (.vecTimer v) s = .next (s.setVec v.toNat ((s.vec v.toNat).makeDue (s.fn f.toNat).pstate))) ∧
    (s.vecOwner v.toNat = some f.toNat → (s.vec v.toNat).due = true → (s.vec v.toNat).mask = false →
      (s.vec v.toNat).offered = false → s.po.fiUp = true → s.po.fiWait.length < 64 → (s.fn f.toNat).pstate ≠ 3 →
      let t (u : State) := (u.setVec v.toNat { s.vec v.toNat with offered := true, offeredAt := s.po.tm }).sendFi {
        reset := false, fn := f.toNat, vector := v.toNat - (s.fn f.toNat).entry.vecBase.toNat, wake := (s.vec v.toNat).wake,
        pool := v.toNat }
      let u := s.answered (fun w => decide (w = .event f.toNat) && (s.fn f.toNat).eq.vecEn &&
        decide ((s.fn f.toNat).eq.vector.toNat = v.toNat - (s.fn f.toNat).entry.vecBase.toNat))
      (s.pf.irqAfterResp = false → exec (.interruptOffer v) s = .next (t s)) ∧
      (s.pf.irqAfterResp = true → exec (.interruptOffer v) s = .next (t u)) ∧
      ((s.vec v.toNat).refusedAt.isSome = true → s.pf.irqAfterResp = false → exec (.offerRetry (.interrupt v)) s = .next (t s))) ∧
    (∀ m r, s.po.fiWait = m :: r → m.reset = false → (s.fn m.fn).accepted = true →
      ∃ t, exec (.messageAccept true true) s = .next t ∧ t.po.fiWait = r ∧
        t.vec m.pool = { s.vec m.pool with pending := 0, due := false, blocked := false, offered := false, refusedAt := none })

/-! Rings (03_rings.md) -/

/-- A doorbell or an RT_CMD that the ring's state lets through (R56, R58, R59, R62, R86, R434): ENABLE makes the ring
enabling and reads its header; KICK reads the header, or asks for one more read when one is under way, or is held while the
ring is enabling; DISABLE stops the ring, or is held while it is enabling. While the ring manager is fenced what is let
through waits (R19, log 129). RT_CMD on a ring of no function gives ERR 2, one that the ring's state refuses ERR 1, an
undefined one ERR 3. The return of the header read of an ENABLE (R56, R434): a header that passes makes the ring ENABLED with the header's
queues and indices and writes STATE; one that fails leaves the ring as it was, with STOP_REASON CONFIG. -/
def Obligations.RingCommands : Prop :=
  (∀ (s : State) (f : BitVec 10) (q : PortReq) (r : Nat),
    let x := s.ring r
    let v := s.fn f.toNat
    let kick := q.force 14 2 0
    let disable := q.whole.force 14 2 2
    let loc := (fld q.wdata 0 14).toNat
    let hdr := s.setRing r { x with hdrBusy := true, hdrOwed := false, lastHdr := s.po.tm }
    let read := hdr.fabRead (.ringHeader r) f.toNat (x.hdr.toNat * 512) 16 true
    let enabling (h : BitVec 48) := (s.modRing r (fun x => { x with
      enabling := true, newHdr := h, heldKick := false, heldDisable := false, lastHdr := s.po.tm })).fabRead (.ringHeader r) f.toNat
        (h.toNat * 512) 64 true
    (v.state = .enabled → r = v.entry.ringBase.toNat + loc → loc < v.entry.ringCount.toNat → s.stopped 0x008 = false →
      (beLo q.be = true → x.enabling = false → x.state = .enabled → x.hdrBusy = true →
        PortDoes s (.kick f q) (fnPage f.toNat 0) kick (s.modRing r (fun x => { x with hdrOwed := true }))) ∧
      (beLo q.be = true → x.enabling = false → x.state = .enabled → x.hdrBusy = false → read.1 = true →
        PortDoes s (.kick f q) (fnPage f.toNat 0) kick read.2) ∧
      (beLo q.be = true → x.enabling = true →
        PortDoes s (.kick f q) (fnPage f.toNat 0) kick (s.setRing r { x with heldKick := true })) ∧
      (x.state = .disabled ∨ x.state = .stopped → x.enabling = false → (enabling (fld q.wdata 16 48)).1 = true →
        PortDoes s (.doorbellEnable f q) (fnPage f.toNat 0) (q.whole.force 14 2 1) (enabling (fld q.wdata 16 48)).2) ∧
      (x.state ≠ .disabled → x.enabling = false →
        PortDoes s (.doorbellDisable f q) (fnPage f.toNat 0) disable (s.stopRing r 1)) ∧
      (x.enabling = true →
        PortDoes s (.doorbellDisable f q) (fnPage f.toNat 0) disable (s.setRing r { x with heldDisable := true }))) ∧
    (v.state = .enabled → r = v.entry.ringBase.toNat + loc → loc < v.entry.ringCount.toNat → s.stopped 0x008 = true →
      x.state ≠ .disabled →
        PortDoes s (.doorbellDisable f q) (fnPage f.toNat 0) disable
          { s with rt := { s.rt with held := s.rt.held ++ [{ fn := f.toNat, ring := r, op := .disable, hdr := 0 }] } }) ∧
    (r = s.rt.sel.toNat → s.ringOwner r = some f.toNat → v.state = .enabled → s.stopped 0x008 = false →
      (x.state = .disabled ∨ x.state = .stopped → x.enabling = false → (enabling s.rt.hdr).1 = true →
        PortDoes s (.rtEnable q) 0x30008 (q.lower.force 0 2 1)
          { (enabling s.rt.hdr).2 with rt := { (enabling s.rt.hdr).2.rt with err := 0 } }) ∧
      (x.state ≠ .disabled → x.enabling = false →
        PortDoes s (.rtDisable q) 0x30008 (q.lower.force 0 2 2)
          { s.stopRing r 1 with rt := { (s.stopRing r 1).rt with err := 0 } }) ∧
      (x.state = .enabled ∨ x.enabling = true →
        PortDoes s (.rtEnable q) 0x30008 (q.lower.force 0 2 1) { s with rt := { s.rt with err := 1 } })) ∧
    (s.ringOwner s.rt.sel.toNat = none →
      PortDoes s (.rtEnable q) 0x30008 (q.lower.force 0 2 1) { s with rt := { s.rt with err := 2 } } ∧
      PortDoes s (.rtDisable q) 0x30008 (q.lower.force 0 2 2) { s with rt := { s.rt with err := 2 } }) ∧
    PortDoes s (.rtCmdUndefined q) 0x30008 (q.lower.undefinedOp 0 2 0 (fun n => decide (1 ≤ n ∧ n ≤ 2)))
      { s with rt := { s.rt with err := 3 } }) ∧
  (∀ (s : State) (ring : BitVec 14) (f : Nat) (data : List Byte),
    let r := ring.toNat
    let b := fit 64 data
    let u := s.answeredFirst (.ringHeader r) 1
    let w (o : Nat) : Word := BitVec.ofNat 32 (fieldAt b o 4)
    let x := s.ring r
    let y : Ring := {
      state := .enabled, hdr := x.newHdr, newHdr := x.newHdr, lastHdr := x.lastHdr,
      sqBase := BitVec.ofNat 64 (fieldAt b 0x10 8), cqBase := BitVec.ofNat 64 (fieldAt b 0x18 8),
      sqSize := BitVec.ofNat 4 (b.getD 0x20 0).toNat, cqSize := BitVec.ofNat 4 (b.getD 0x21 0).toNat,
      vector := BitVec.ofNat 16 (fieldAt b 0x22 2), pollUs := BitVec.ofNat 16 (fieldAt b 0x24 2),
      sqProd := w 8, cqCons := w 4, fetchPos := w 8, issuePos := w 8, cqPos := w 12, cqProd := w 12 }
    s.ringOwner r = some f → x.enabling = true → s.fc.halted = false → s.stopped 0x008 = false →
      (enableOk (s.fn f).entry b = true → x.heldDisable = true →
        exec (.enableCheck ring data) s = .next (((u.setRing r y).writeHeader f r y.hdr 0x28 [1]).stopRing r 1)) ∧
      (enableOk (s.fn f).entry b = true → x.heldDisable = false → x.heldKick = false → (s.fn f).state = .enabled →
        exec (.enableCheck ring data) s = .next (((u.setRing r y).writeHeader f r y.hdr 0x28 [1]).headerSeen f r (b.take 16))) ∧
      (enableOk (s.fn f).entry b = false →
        exec (.enableCheck ring data) s = .next (u.refuseEnable f r (w 8) 4)))

/-- The returns of a live ring's reads, and its poll (R60, R62, R66, R71, R74, R85): new indices within the queues are taken
and further entries fetched; entries join those that wait and are formed into packets; a link table completes its packet; a
failed header, entry or link-table read stops the ring; POLL_US after the last header read another is issued. -/
def Obligations.RingReturns : Prop :=
  ∀ (s : State) (ring : BitVec 14) (f : Nat) (data : List Byte),
    let r := ring.toNat
    let x := s.ring r
    let b := fit 16 data
    let prod : Word := BitVec.ofNat 32 (fieldAt b 0 4)
    let cons : Word := BitVec.ofNat 32 (fieldAt b 4 4)
    let hdr := s.setRing r { x with hdrBusy := true, hdrOwed := false, lastHdr := s.po.tm }
    let read := hdr.fabRead (.ringHeader r) f (x.hdr.toNat * 512) 16 true
    s.ringOwner r = some f → s.ringLive f r = true →
      (x.hdrBusy = true → x.hdrOwed = false → (prod - x.fetchPos).toNat ≤ queueSize x.sqSize →
        (x.cqPos - cons).toNat ≤ queueSize x.cqSize →
        exec (.headerReadReturn ring data) s = .next (((s.answeredFirst (.ringHeader r) 1).setRing r { x with
          hdrBusy := false, hdrOwed := false, sqProd := prod, cqCons := cons }).fetch f r)) ∧
      (x.pollUs ≠ 0 → x.hdrBusy = false → read.1 = true → exec (.pollTimer ring) s = .next read.2) ∧
      (∀ p k rest, x.reads = (p, k) :: rest →
        exec (.entryReadReturn ring data) s = .next (((s.answeredFirst (.ringEntry r) 1).setRing r { x with
          reads := rest, raw := x.raw ++ chunks 64 (fit (64 * k) data) }).formLoop 70 f r)) ∧
      (∀ p h t y, x.table = some p → x.raw = h :: t →
        formCheck (isAuthority f (s.localRing f r)) (x.raw.take (entrySpan h)) (fit ((h.getD 1 0).toNat * 48) data) = .ok y →
        exec (.linkTableReadReturn ring data) s =
          .next (((s.answered (· == .ringTable r)).setRing r { x with
            table := none, raw := x.raw.drop (entrySpan h),
            ready := x.ready ++ [{ y with head := p.head, indirect := true }] }).formLoop 70 f r)) ∧
      (x.hdrBusy = true → x.enabling = false →
        ∃ t, exec (.fetchError ring .header) s = .next t ∧ (t.ring r).state = .stopping ∧ (t.ring r).stopWith = 2) ∧
      (x.reads.isEmpty = false →
        ∃ t, exec (.fetchError ring .entry) s = .next t ∧ (t.ring r).state = .stopping ∧ (t.ring r).stopWith = 2) ∧
      (x.table.isSome = true →
        ∃ t, exec (.fetchError ring .linkTable) s = .next t ∧ (t.ring r).state = .stopping ∧ (t.ring r).stopWith = 2)

/-- Issue (R64–R66, R97): the next packet of a live ring with room for its records, within the function's quota and the pool
of tags, and with no ring ahead of it in the wait for tags, is issued whole: SQ_CONS moves past it, its links get tags, and the
ring fetches on. A packet of more links than TAG_QUOTA takes no tag: each of its links gets an OVERLOAD record. One that finds too few free tags
waits behind the rings that wait. -/
def Obligations.PacketsIssue : Prop :=
  ∀ (s : State) (ring : BitVec 14) (f : Nat) (p : Packet) (rest : List Packet),
    let r := ring.toNat
    let x := s.ring r
    let n := p.links.length
    let quota := (s.fn f).entry.tagQuota.toNat
    let u : State := { s with sq := { s.sq with tagWait := s.sq.tagWait.erase r } }
    s.ringOwner r = some f → s.ringLive f r = true → s.stopped 0x00A = false → x.ready = p :: rest →
    (x.cqPos - x.cqCons).toNat + x.reserved + n ≤ queueSize x.cqSize →
      (quota = 0 ∨ (s.tagsOf f).length + n ≤ quota →
        (s.sq.tags.length + n ≤ 16384 → s.tagsClaimed r = false →
          exec (.packetIssue ring) s = .next ((((u.issuePast f r p).startPacket f r p).fetch f r).badActs f r)) ∧
        (16384 < s.sq.tags.length + n ∨ s.tagsClaimed r = true →
          exec (.packetIssue ring) s = .next { s with sq := { s.sq with tagWait := addSet s.sq.tagWait r } })) ∧
      (quota ≠ 0 → quota < n →
        exec (.packetIssue ring) s =
          .next (((((s.issuePast f r p).journalIssue f r p).refusePacket f r p 0 p.links).fetch f r).badActs f r))

/-- The end of links (R72, R73, R90–R92, R95): a link of a chain that ends with OK frees the chain output it read and lets the next
link of its packet start; the end of the last link ends the packet; a link that ends otherwise aborts the rest of its chain and
ends the packet; the packet of a NOP waits for the packets issued before it on its ring. A NOP ends with OK where its
descriptor is as R73 asks, else with UNSUPPORTED; an opcode without a meaning ends with UNSUPPORTED. The end of a ring's work (R81,
R82, R86): records that are answered let CQ_PROD be written; a failed record stops the ring; a STOPPING ring without issued
operations publishes SQ_CONS, CQ_PROD and its new STATE, and STOP_REASON where it stopped for another reason than DISABLE (its place is the
model's choice, log 136), with a RING_STOPPED record. -/
def Obligations.LinksAndRingsEnd : Prop :=
  (∀ (s : State) (tag : BitVec 14) (e : TagEnt),
    let t := tag.toNat
    let fl := s.flight e.pkt
    let u := s.answered (fun w => decide (w = .link t))
    let v := if fl.cur = 0 then u else u.releaseOut (fl.tags.getD (fl.cur - 1) t)
    s.tag? t = some e → e.phase = .ended → fl.tags[fl.cur]? = some t → s.fc.halted = false → s.stopped 0x008 = false →
    s.stopped 0x00A = false →
      (e.status = .ok → fl.cur + 1 < fl.tags.length →
        exec (.linkEnd tag) s =
          .next ((v.setFlight e.pkt { fl with cur := fl.cur + 1 }).enqueue (fl.tags.getD (fl.cur + 1) t)).schedule) ∧
      (e.status = .ok → fl.cur + 1 = fl.tags.length → s.nopWaits e.pkt fl = false →
        exec (.linkEnd tag) s = .next (v.packetEnd e.pkt)) ∧
      (e.status ≠ .ok → s.nopWaits e.pkt fl = false → exec (.linkEnd tag) s = .next ((u.chainFails fl t).packetEnd e.pkt)) ∧
      (e.status ≠ .ok → s.nopWaits e.pkt fl = true → exec (.linkEnd tag) s = .next (s.chainFails fl t))) ∧
  (∀ (s : State) (tag : BitVec 14) (e : TagEnt), s.tag? tag.toNat = some e → s.fc.halted = false →
    (e.desc.opcode = 0 → e.phase = .queued → s.stopped 0x00A = false →
      (e.desc.slot = 0 ∧ e.desc.inLen = 0 ∧ e.desc.outLen = 0 ∧ e.desc.paramLen = 0 ∧ e.desc.inChain = false ∧
          e.desc.outChain = false →
        exec (.nop tag) s = .next (s.setTag tag.toNat { e with phase := .ended, status := .ok, outBytes := 0, result := 0 })) ∧
      (e.desc.slot ≠ 0 ∨ e.desc.inLen ≠ 0 ∨ e.desc.outLen ≠ 0 ∨ e.desc.paramLen ≠ 0 ∨ e.desc.inChain = true ∨
          e.desc.outChain = true →
        exec (.nop tag) s =
          .next (s.setTag tag.toNat { e with phase := .ended, status := .unsupported, outBytes := 0, result := 0 }))) ∧
    (∀ w, e.phase = .running w → s.opKnown e.desc.opcode.toNat = false →
      exec (.unsupportedOpcode tag) s = .next (s.finish tag.toNat .unsupported 0 0))) ∧
  (∀ (s : State) (ring : BitVec 14) (f : Nat) (upTo : Word),
    let r := ring.toNat
    let x := s.ring r
    let fin : RingState := if x.stopWith = 1 then .disabled else .stopped
    s.ringOwner r = some f → s.fc.halted = false → s.stopped 0x008 = false →
      (x.state = .enabled ∨ x.state = .stopping → x.noRecords = false → 0 < (upTo - x.cqProd).toNat →
        (upTo - x.cqProd).toNat ≤ (x.cqPos - x.cqProd).toNat →
        exec (.cqProdUpdate ring upTo) s =
          .next (((s.answeredFirst (.completion r) (upTo - x.cqProd).toNat).setRing r { x with cqProd := upTo }).writeHeader f r x.hdr
            0x0C (leBytes 4 upTo.toNat))) ∧
      (s.po.txns.any (fun q => decide (q.who = .completion r)) = true → x.state = .enabled →
        exec (.completionWriteFail ring) s =
          .next (((s.answeredFirst (.completion r) 1).stopRing r 2).modRing r (fun x => { x with noRecords := true }))) ∧
      (x.state = .stopping → (s.tagsOfRing r).isEmpty = true →
        let a := ((s.answered (fun w => decide (w = .completion r))).setRing r { x with
          state := fin, reason := x.stopWith, stopWith := 0, cqProd := x.cqPos, noRecords := false }).publishSq f r
        let b := (a.writeHeader f r x.hdr 0x0C (leBytes 4 x.cqPos.toNat)).writeHeader f r x.hdr 0x28 [BitVec.ofNat 8 fin.code]
        exec (.ringStopComplete ring) s =
          .next ((if x.stopWith = 1 then b else b.writeHeader f r x.hdr 0x29 [x.stopWith]).ringStopped f r x.issuePos
            x.stopWith.toNat)))

/-! The chain sequencer, profiles and lanes (04_chains.md, 15_power.md) -/

/-- Aging (R99): a class P or B link that has waited AGE_US rises one step. Marks and suspension (R100, R101, R161, R180, R189, R238):
where a running link of another kind than a core's reaches the end of a segment, its mark is committed and it goes on; where a
class D link waits that its unit must make way for, it gives the unit up there and goes back to its queue, a digest link at
the end of any compression, a link of the public-key engine at an impression that also keeps what it has drawn (R207); the waiting
link is scheduled. LEAN's gating (R384): an idle working lane without resident contexts is gated off with its domain, and a
gated spare is woken for its ten proofs. -/
def Obligations.SchedulingEvents : Prop :=
  (∀ (s : State) (tag : BitVec 14) (e : TagEnt), s.tag? tag.toNat = some e → (s.flight e.pkt).cls ≠ .d →
    e.phase = .queued → e.started = false → s.sq.ageUs ≠ 0 →
      exec (.ageTimer tag) s = .next (s.setTag tag.toNat { e with aged := e.aged + 1, since := s.po.tm })) ∧
  (∀ (s : State) (tag : BitVec 14) (pos : BitVec 33) (d : LinkData) (l : Link) (plan : State → Link → Plan) (sup : Link → List Byte)
      (m : Mark),
    let k := unitKind l.unit
    let p := plan s l
    let core : Prop := k = .modular ∨ k = .ntt
    let x := s.markLink l p (sup l) (if k = .modular ∨ k = .ntt then 0 else pos.toNat)
    let ends := p.segmentEnds l.n pos.toNat
    let yields := s.makesWay l.unit l.e && s.dReady k && s.entryFree l
    s.restoringFor tag.toNat = false → s.link? tag.toNat d (fun o => (planOf o).isSome) = some l → planOf l.op = some (plan, sup) →
    x.1 = true →
      (¬core → p.reached l.mark ≤ pos.toNat → (x.2.tag? tag.toNat).bind (·.mark) = some m →
        (ends = true → yields = false → exec (.suspendPoint tag pos d) s = .next x.2) ∧
        (ends = true → yields = true → exec (.suspendPoint tag pos d) s = .next (x.2.yieldUnit l p m)) ∧
        (k = .digest → yields = true → p.blockEnds s l.n pos.toNat m = true →
          exec (.suspendPoint tag pos d) s = .next (x.2.yieldUnit l p m))) ∧
      (core → p.reached l.mark = 0 → yields = true → ((x.2.drawAhead l p).tag? tag.toNat).bind (·.mark) = some m →
        exec (.suspendPoint tag pos d) s = .next ((x.2.drawAhead l p).yieldUnit l p m))) ∧
  (∀ (s : State) (unit : BitVec 12) (d : Nat),
    let u := unit.toNat
    let x := s.unit u
    unitDomain u = some d → s.fc.halted = false →
      (x.role = .working → unitKind u = .cipher ∨ unitKind u = .digest ∧ s.residents u = 0 → s.pf.current = 2 → x.busy = none →
        exec (.idleGate unit) s =
          .next ((s.setUnit u { x with role := .gated, gatedSpare := false }).domOff d .gated .gate)) ∧
      (x.role = .gated → x.gatedSpare = true →
        exec (.spareProofWake unit) s = .next ((s.setUnit u { x with need := 10 }).domWants d .wake)))

/-- The sequencer's registers and profiles (R96, R107–R110, R407): the spill area takes an address and size only with a
write that disables it, is not enabled without a size, and keeps all three while a reservation is held; a read of SC_ADMIT returns and clears the counts it covers; a REQUEST that differs from CURRENT starts a change, and
one while a change is under way is kept; GC_OVERRIDE and GC_POWER_CAP take the values that R110 and R108 allow; a completed
change makes the target CURRENT. -/
def Obligations.SequencerRegisters : Prop :=
  ∀ (s : State) (q : PortReq),
    let r := fld q.wdata 0 2
    (let x := (s.wreq 0x40018 q).x
     let held := s.sq.tags.any (fun p => !p.2.spillUnits.isEmpty)
     let fixed : Prop := held = true ∧ (bit x 0 = false ∨ fld x 8 8 ≠ s.sq.spillSize ∨ fld x 21 36 ≠ s.sq.spillAddr)
     (fixed → PortDoes s (.scSpillWrite q) 0x40018 q s) ∧
     (¬fixed → bit x 0 = true →
        PortDoes s (.scSpillWrite q) 0x40018 q (s.modSq (fun p => { p with spillEn := decide (p.spillSize ≠ 0) }))) ∧
     (¬fixed → bit x 0 = false →
        PortDoes s (.scSpillWrite q) 0x40018 q (s.modSq (fun p => { p with
          spillEn := false, spillSize := fld x 8 8, spillAddr := fld x 21 36 })))) ∧
    (q.be = 0xFF →
      PortReads s (.admitRead q) 0x40010 q (halves s.sq.admitted s.sq.refused)
        (s.modSq (fun p => { p with admitted := 0, refused := 0 }))) ∧
    (s.pf.pending = false → r ≠ s.pf.current →
      PortDoes s (.profileRequest q) 0x10000 q.lower (s.modPf (fun p => { p with request := r, target := r, pending := true }))) ∧
    (s.pf.pending = true →
      PortDoes s (.profileRequest q) 0x10000 q.lower (s.modPf (fun p => { p with request := r, kept := some r })) ∧
      ∃ t, exec .profileChangeDone s = .next t ∧ t.pf.current = s.pf.target ∧ t.pf.pending = s.pf.kept.any (fun k => k ≠ s.pf.target)) ∧
    ((fld q.wdata 0 4).toNat ≤ 8 → (fld q.wdata 4 3).toNat ≤ 4 → (fld q.wdata 8 4).toNat ≤ 10 →
      PortDoes s (.overrideWrite q) 0x10010 q.lower
        ((s.modPf (fun p => { p with
          dCipher := fld q.wdata 0 4, dDigest := fld q.wdata 4 3, dEn := bit q.wdata 7, bShare := fld q.wdata 8 4,
          auditClasses := fld q.wdata 12 3, dDemote := bit q.wdata 15 })).renewReserve.schedule)) ∧
    (4 ≤ (fld q.wdata 0 5).toNat → (fld q.wdata 0 5).toNat ≤ 16 →
      PortDoes s (.powerCapWrite q) 0x10008 q.lower (s.modPf (fun p => { p with cap := fld q.wdata 0 5 })).schedule) ∧
    ((fld q.wdata 0 5).toNat < 4 ∨ 16 < (fld q.wdata 0 5).toNat → PortDoes s (.powerCapWrite q) 0x10008 q.lower s)

/-! The stream verifier (05_stream_verifier.md) -/

/-- Stream ports (R116, R117, R119–R121, R124–R126, R143, R407): a frame at a running port takes the next number. While the
FIFO has room for its beats it is stored whole; a frame whose first beat finds FULL is dropped into the gap that is open, or opens one; at a
port that repairs it gets NOT_CHECKED_REPAIR at once. (What a frame's beats do while readers move or FULL rises meanwhile is `SPort.intake`.) The
parser takes the frame at the FIFO's head: in a repair, cut, malformed, of the wrong length or without an extension it gets its verdict at once, else its
key is looked up. A closed gap gives its range words. EN brings a port whose domain is on to RUN with numbers from 0, clearing it drains the
port, and a drained port goes OFF, or to RUN where EN is set again. A read of ST_PLOAD clears its marks. -/
def Obligations.StreamPorts : Prop :=
  ∀ (s : State) (port : Fin 4) (f : FrameIn) (q : PortReq),
    let p := port.val
    let x := s.sport p
    let ctrl := 0x50000 + p * 0x100
    let y : SPort := { x with nextSeq := x.nextSeq + 1, numbered := satAdd x.numbered 1 }
    let n := max 1 (frameBeats f.bytes.length)
    let new : Queued := {
      seq := x.nextSeq, bytes := f.bytes, truncated := f.abort || f.cutBySof, first := f.first, last := f.last, pos := x.written,
      owed := x.owed, units := (s.tagUnits p true).length, q := s.hmacCost p f.bytes }
    (x.state = .run ∨ x.state = .restart →
      (s.edgeRepairs p = false →
        exec (.frameArrival port f) s = .next ((s.modPort p (fun _ => y.intake f new)).assignUnits p) ∧
        (f.moves = [] → x.gapOpen = false → x.occ + n ≤ 255 →
          y.intake f new = ({ y with fifo := x.fifo ++ [.frame new], written := x.written + n } : SPort).mark) ∧
        (f.moves = [] → 255 ≤ x.occ → x.occ < 511 → y.intake f new = (y.drop x.nextSeq f.first f.last).mark)) ∧
      (s.edgeRepairs p = true →
        exec (.frameArrival port f) s =
          .next ((s.modPort p (fun _ => y)).emit p { seq := x.nextSeq, code := .repair, time := f.last }))) ∧
    (∀ g r, x.fifo = .frame g :: r →
      let u := s.modPort p (fun y => { y with fifo := r })
      let head := (layer2Appid g.bytes).map (fun a => ({ appid := a } : Parsed))
      let gives (code : Verdict) (z : Option Parsed) : Prop :=
        exec (.frameParse port) s = .next (u.early p g.seq code z (u.firstEntry p g.bytes) g.last)
      (s.edgeRepairs p = true → gives .repair head) ∧
      (s.edgeRepairs p = false → g.truncated = true → gives .truncated head) ∧
      (s.edgeRepairs p = false → g.truncated = false →
        (readFrame x.udp.toNat g.bytes = .malformed → gives .malformed head) ∧
        (∀ z, readFrame x.udp.toNat g.bytes = .lenMismatch z → s.wrapBad p z = false → gives .lenMismatch (some z)) ∧
        (∀ z, readFrame x.udp.toNat g.bytes = .bare z → s.wrapBad p z = false → gives .unprotected (some z)) ∧
        (∀ z, readFrame x.udp.toNat g.bytes = .secured z →
          (s.wrapBad p z = true → gives .malformed (some z)) ∧
          (s.wrapBad p z = false → exec (.frameParse port) s = .next (u.lookup p g z (u.firstEntry p g.bytes)))))) ∧
    (∀ g r, x.fifo = .gap g :: r → g.isOpen = false →
      exec (.parserGapMarker port) s =
        .next ((s.modPort p (fun y => { y with fifo := r })).emitRange p .overload g.first g.count.toNat g.tLast)) ∧
    (x.en = false → x.state = .off → (s.dom (46 + p)).holdOff = false → (s.dom (46 + p)).state = .on →
      s.Accepts ctrl (q.lower.force 0 1 1) →
      ∃ t, exec (.portEnable port q) s = .next (s.carried t ctrl (q.lower.force 0 1 1)) ∧
        t.sport p = { x with
          en := true, recUnmatched := bit q.wdata 1, udp := fld q.wdata 16 16, state := .run, nextSeq := 0 }) ∧
    (x.en = true → x.state = .run ∨ x.state = .restart → s.Accepts ctrl (q.lower.force 0 1 0) →
      ∃ t, exec (.portDisable port q) s = .next (s.carried t ctrl (q.lower.force 0 1 0)) ∧
        t.sport p = { x with
          en := false, recUnmatched := bit q.wdata 1, udp := fld q.wdata 16 16, state := .draining }) ∧
    (x.state = .draining → x.fifo = [] → x.jobs = [] →
      (x.en = false → exec (.portDrained port) s = .next (s.modPort p (fun y => { y with state := .off }))) ∧
      (x.en = true → (s.dom (46 + p)).state = .on →
        exec (.portDrained port) s = .next (s.modPort p (fun y => { y with state := .run, nextSeq := 0 })))) ∧
    (q.be = 0xFF →
      PortReads s (.ploadRead port q) (ctrl + 0x10) q
        (pk [(0, x.owed), (16, x.occ), (32, x.occHwm.toNat), (48, x.owedHwm.toNat)])
        (s.modPort p (fun x => { x with occHwm := 0, owedHwm := 0 })))

/-- A tag unit's verdict (R119, R133–R137): a tag that differs is FAIL_TAG and counts toward FAIL_LIMIT; one that matches, of a
publisher without a stream entry, is PASS, or NO_KEY where the key map entry asks for replay checks; of a publisher with one, PASS or
REPLAY as its window says; at a port that repairs the frame gets NOT_CHECKED_REPAIR. The verdict word leaves, the unit falls free, and the
next frames get the units that are free. -/
def Obligations.FrameVerdicts : Prop :=
  ∀ (s : State) (port : Fin 4) (seq : Word) (j : Job),
    let p := port.val
    let u := s.modPort p (fun y =>
      let z : SPort := { y with jobs := y.jobs.filter (fun i => decide (i.seq ≠ seq)) }
      match j.unit with
      | some w => z.frees w
      | none => z)
    let word (code : Verdict) : VWord := {
      seq := seq, code := code, overcap := j.overcap, replayed := j.replayed, rolled := j.rolled, slot := j.km.slot.toNat,
      appid := j.parsed.appid.toNat, km := some j.km, time := j.last }
    let gives (v : State) (code : Verdict) : Prop := exec (.tagComplete port seq) s = .next ((v.emit p (word code)).assignUnits p)
    (s.sport p).jobs.find? (fun j => decide (j.seq = seq) && (j.unit.isSome || j.done)) = some j →
      (s.edgeRepairs p = true → gives u .repair) ∧
      (s.edgeRepairs p = false → j.key.isEmpty = false →
        (frameTag j.km.form.toNat j.key j.parsed ≠ j.parsed.value → gives (u.tagFailed j) .failTag) ∧
        (frameTag j.km.form.toNat j.key j.parsed = j.parsed.value →
          (s.stream? p j.parsed = none → gives u (if j.km.replayReq then .noKey else .pass)) ∧
          (∀ i e, s.stream? p j.parsed = some (i, e) →
            let r := e.accept (BitVec.ofNat 64 (e.freshValue j.parsed))
            (freshFits e.fresh j.parsed.kind = false → gives u .noKey) ∧
            (freshFits e.fresh j.parsed.kind = true → r.1 = true →
              gives (u.modSt (fun t => { t with ss := t.ss.set {} i r.2 })) .pass) ∧
            (freshFits e.fresh j.parsed.kind = true → r.1 = false → gives u .replay))))

/-- Freshness (R135, R136): the first frame is accepted and starts the window; a newer value is accepted and moves it; one
within the last 64 values is accepted once; an older one, or one seen, is a replay and leaves the entry. -/
def Obligations.FreshnessWindow : Prop :=
  ∀ (e : SsEnt) (f : DWord), e.fresh ≠ 0 →
    (e.seeded = false → e.accept f = (true, { e with hi := f, win := 1, seeded := true })) ∧
    (e.seeded = true → e.hi.toNat < f.toNat →
      (e.accept f).1 = true ∧ (e.accept f).2.hi = f ∧ (e.accept f).2.win.getLsbD 0 = true ∧
      (∀ d, f.toNat - e.hi.toNat + d < 64 →
        (e.accept f).2.win.getLsbD (f.toNat - e.hi.toNat + d) = e.win.getLsbD d) ∧
      (e.accept f).2.accept f = (false, (e.accept f).2)) ∧
    (e.seeded = true → f.toNat ≤ e.hi.toNat → e.hi.toNat - f.toNat < 64 → e.win.getLsbD (e.hi.toNat - f.toNat) = false →
      (e.accept f).1 = true ∧ (e.accept f).2.hi = e.hi ∧ (e.accept f).2.accept f = (false, (e.accept f).2)) ∧
    (e.seeded = true → f.toNat ≤ e.hi.toNat → (64 ≤ e.hi.toNat - f.toNat ∨ e.win.getLsbD (e.hi.toNat - f.toNat) = true) →
      e.accept f = (false, e))

/-- The key map's commands on the selected entry (R131–R133): LOAD, COMMIT of an entry whose slot is in the cache and suits,
INVALIDATE, ACTIVATE at once or at ACT_TIME, an undefined OP, and ERR 6 for
each while BUSY; the pending entry becomes active at its time; BUSY clears when no
frame uses the old contents, and the lookups that waited for a free place in the slot cache are made again. That a COMMIT leaves an active entry of the same APPID active is the model's reading (log 127). -/
def Obligations.KeyMapCommands : Prop :=
  ∀ (s : State) (q : PortReq) (entry : BitVec 12),
    let i := s.st.kmSel.toNat
    let k := s.st.kmStage
    let e := s.st.km.get {} entry.toNat
    let op (n : Nat) := q.lower.force 0 3 n
    (s.st.kmBusy = false →
      PortDoes s (.kmLoad q) 0x51008 (op 1) (s.modSt (fun t => { t with kmStage := t.km.get {} i, kmErr := 0 })) ∧
      (s.kmRange k = true → PortDoes s (.kmCommit q) 0x51008 (op 2) (s.kmErr 4)) ∧
      (s.kmRange k = false → s.kmDup i k = true → PortDoes s (.kmCommit q) 0x51008 (op 2) (s.kmErr 1)) ∧
      (∀ sl, s.kmRange k = false → s.kmDup i k = false → 256 ≤ k.slot.toNat → s.look k.slot.toNat = .hit sl →
        (s.kmSlotOk k sl = false →
          PortDoes s (.kmCommit q) 0x51008 (op 2) ((s.modSt (fun t => { t with kmBusy := false, kmWait := none })).kmErr 2)) ∧
        (s.kmSlotOk k sl = true →
          PortDoes s (.kmCommit q) 0x51008 (op 2) (s.kmPut i { k with
            valid := true, failed := false, pending := false, failCount := 0, actTime := 0, expired := false,
            active := ((s.st.km.get {} i).valid && (s.st.km.get {} i).active && decide ((s.st.km.get {} i).appid = k.appid)) ||
              !s.st.km.any (fun x => decide (x.1 ≠ i) && x.2.valid && decide (x.2.appid = k.appid)) }))) ∧
      PortDoes s (.kmInvalidate q) 0x51008 (op 3)
        (s.kmPut i { s.st.km.get {} i with valid := false, active := false, pending := false }) ∧
      ((s.st.km.get {} i).valid = true → s.st.kmAct ≠ 0 →
        PortDoes s (.activate q) 0x51008 (op 4)
          ((s.kmErr 0).modKm i (fun k => { k with pending := true, actTime := s.st.kmAct }))) ∧
      ((s.st.km.get {} i).valid = true → s.st.kmAct = 0 →
        PortDoes s (.activate q) 0x51008 (op 4) ((s.kmErr 0).kmActivate i)) ∧
      PortDoes s (.kmCmdUndefined q) 0x51008 (q.lower.undefinedOp 0 3 0 (fun n => decide (1 ≤ n ∧ n ≤ 4))) (s.kmErr 5)) ∧
    (s.st.kmBusy = true →
      PortDoes s (.kmLoad q) 0x51008 (op 1) (s.kmErr 6) ∧ PortDoes s (.kmCommit q) 0x51008 (op 2) (s.kmErr 6) ∧
      PortDoes s (.kmInvalidate q) 0x51008 (op 3) (s.kmErr 6) ∧ PortDoes s (.activate q) 0x51008 (op 4) (s.kmErr 6)) ∧
    (e.valid = true → e.pending = true → e.actTime.toNat ≤ s.po.tm.toNat →
      exec (.actTimeReached entry) s = .next (s.kmActivate entry.toNat)) ∧
    (∀ n slot, s.st.kmOld = some (n, slot) → s.kmUsed n true = false →
      exec .kmBusyClear s = .next (s.modSt (fun t => { t with kmBusy := t.kmWait.isSome, kmOld := none })).retryLookups)

/-- The stream table's commands on the selected entry (R134, R136): LOAD captures the entry and its window; COMMIT refuses a
reserved encoding or a duplicate and writes the staged entry else; INVALIDATE; OP 0 gives ERR 5. -/
def Obligations.StreamTableCommands : Prop :=
  ∀ (s : State) (q : PortReq),
    let i := s.st.ssSel.toNat
    let e := s.st.ssStage
    let dup := s.st.ss.any (fun x => decide (x.1 ≠ i) && x.2.valid && decide (x.2.ports &&& e.ports ≠ 0) &&
      decide (x.2.appid = e.appid) && decide (x.2.srcKind = e.srcKind) && decide (x.2.src = e.src))
    let bad : Prop := e.srcKind = 3 ∨ (e.fresh = 1 ∧ e.wrap = 0)
    PortDoes s (.ssLoad q) 0x52008 (q.lower.force 0 2 1)
      (s.modSt (fun t => { t with ssStage := t.ss.get {} i, ssWin := (t.ss.get {} i).win, ssErr := 0 })) ∧
    (bad → PortDoes s (.ssCommit q) 0x52008 (q.lower.force 0 2 2) (s.ssErr 4)) ∧
    (¬bad → dup = true → PortDoes s (.ssCommit q) 0x52008 (q.lower.force 0 2 2) (s.ssErr 1)) ∧
    (¬bad → dup = false →
      PortDoes s (.ssCommit q) 0x52008 (q.lower.force 0 2 2)
        ((s.modSt (fun t => { t with ss := t.ss.set {} i { e with valid := true, win := if e.seeded then 1 else 0 } })).ssErr 0)) ∧
    PortDoes s (.ssInvalidate q) 0x52008 (q.lower.force 0 2 3)
      ((s.modSt (fun t => { t with ss := t.ss.set {} i { t.ss.get {} i with valid := false } })).ssErr 0) ∧
    PortDoes s (.ssCmdUndefined q) 0x52008 (q.lower.force 0 2 0) (s.ssErr 5)

/-! Digest contexts and the random number generator (07_digest.md, 08_public_key.md) -/

/-- Spilled contexts (R181–R184, log 31): the write response frees the resident entry and counts the spill; a context that
returns and is good lets its link go on, and one that is not ends the link with CONTEXT_LOST; DL_SPILL takes an
address only with a write that disables the area, and keeps both while a context is spilled or a session open. -/
def Obligations.DigestContexts : Prop :=
  ∀ (s : State) (ref : CtxRef) (data : List Byte) (q : PortReq),
    let k := ctxKey ref
    let u := s.answered (fun w => decide (w = ctxWho k))
    (∀ c a ctr, s.fc.halted = false → s.dctx k = some c → c.place = .spilling a ctr →
      exec (.spillWriteDone ref) s = .next (u.modDg (fun d => { d with
        spills := satAdd d.spills 1,
        ctxs := d.ctxs.map (fun p => if p.1 = k then (k, { c with hash := {}, outer := none, place := .spilled ctr }) else p) }))) ∧
    (∀ t e n r, s.fc.halted = false →
      s.sq.tags.find? (fun p => decide (p.1 = k ∨ sessionOf p.2 = some k) && p.2.phase.unit?.isSome) = some (t, e) →
      e.phase.unit? = some n →
      (u.restoreCtx k n (fit 512 data) = (true, r) → exec (.contextRestore ref data) s = .next r) ∧
      (k < 16384 → u.restoreCtx k n (fit 512 data) = (false, r) →
        exec (.contextRestore ref data) s = .next (((r.freeOf n).endLink t .contextLost 0 0).schedule))) ∧
    (let x := (s.wreq 0x70018 q).x
     let held := s.dg.ctxs.any (fun p => decide (16384 ≤ p.1) || p.2.place.isSpilled)
     let fixed : Prop := held = true ∧ (bit x 0 = false ∨ fld x 21 36 ≠ s.dg.spillAddr)
     (fixed → PortDoes s (.dlSpillWrite q) 0x70018 q s) ∧
     (¬fixed → bit x 0 = true → PortDoes s (.dlSpillWrite q) 0x70018 q (s.modDg (fun d => { d with spillEn := true }))) ∧
     (¬fixed → bit x 0 = false →
        PortDoes s (.dlSpillWrite q) 0x70018 q (s.modDg (fun d => { d with spillEn := false, spillAddr := fld x 21 36 }))))

/-- The random number generator (R207, R216–R220): intervals in range are taken and others ignored; RESEED and the interval make
a READY generator owe a reseed, which takes 512 bits of the pool; a failed test discards the state, raises its source and, the
third within a second excepted, restarts D9; RESTART leaves ERROR; raw mode in TEST life takes the generator to RAW, where a
read takes samples, and back to the STATE that RAW covered; 20 µs of execution leave an impression: the link's mark, with what it has
drawn. -/
def Obligations.RandomGenerator : Prop :=
  ∀ (s : State) (q : PortReq) (unit : BitVec 12) (adaptive : Bool) (d : LinkData),
    let g := s.pk.rng
    let ms := fld q.wdata 0 10
    let lg := fld q.wdata 16 5
    let set := s.modRng (fun g => { g with intervalMs := ms, reqLog2 := lg })
    let times := (s.po.tm :: g.failTimes).take 3
    let fine : Prop := 1 ≤ ms.toNat ∧ ms.toNat ≤ 1000 ∧ 10 ≤ lg.toNat ∧ lg.toNat ≤ 20
    (¬fine → PortDoes s (.pkRngCtrlWrite q) 0x80200 q.lower s) ∧
    (fine → bit q.wdata 28 = g.rawMode →
      (bit q.wdata 24 = false → bit q.wdata 25 = false → PortDoes s (.pkRngCtrlWrite q) 0x80200 q.lower set) ∧
      (bit q.wdata 25 = false →
        PortDoes s (.reseed q) 0x80200 (q.lower.force 24 1 1)
          (set.modRng (fun g => { g with reseed := true, reseeding := decide (g.state = .ready) }))) ∧
      (bit q.wdata 24 = false → g.state = .error → (s.unit 0x00B).outOfService = false →
        PortDoes s (.rngRestart q) 0x80200 (q.lower.force 25 1 1)
          ((set.modRng (fun g => { g with restart := true, stuck := false })).domWants 9 .restart))) ∧
    (fine → s.testLife = true → bit q.wdata 24 = false → bit q.wdata 25 = false →
      (g.rawMode = false → bit q.wdata 28 = true →
        PortDoes s (.rawModeWrite q) 0x80200 q.lower
          (set.modRng (fun g => { g with rawMode := true, under := g.state, state := .raw, reseeding := false }))) ∧
      (g.rawMode = true → bit q.wdata 28 = false → g.under ≠ .ready → g.under ≠ .startup →
        PortDoes s (.rawModeWrite q) 0x80200 q.lower (set.modRng (fun g => { g with rawMode := false, state := g.under })))) ∧
    (q.be = 0xFF → g.state = .raw →
      PortReads s (.rngRawRead q) 0x80218 q (Config.rawSamples s.freeCount) s.draw.2) ∧
    (g.state = .ready → exec .reseedTimer s = .next (s.modRng (fun g => { g with reseeding := true }))) ∧
    (g.state = .ready → g.reseeding = true → 512 ≤ g.pool → exec .reseedDone s = .next s.reseedNow.schedule) ∧
    (g.state = .ready → g.rawMode = false →
      let failed (stuck : Bool) := (s.modRng (fun g => { g.zeroise with
        state := .error, lastFail := adaptive, healthFails := satAdd g.healthFails 1, failTimes := times,
        stuck := stuck })).raise 0x00B 0x25 0
      (times.length < 3 → exec (.healthTestFail adaptive) s = .next ((failed false).domWants 9 .restart)) ∧
      (∀ first, times[2]? = some first → s.po.tm.toNat < first.toNat + 1000000000 →
        exec (.healthTestFail adaptive) s = .next (failed true))) ∧
    (∀ t l plan sup u, (s.unit unit.toNat).busy = some t → s.link? t d (fun o => (planOf o).isSome) = some l →
      planOf l.op = some (plan, sup) → l.unit = unit.toNat → 0x140 ≤ unit.toNat → unit.toNat ≤ 0x147 →
      s.markLink l (plan s l) (sup l) 0 = (true, u) →
      exec (.impressionTimer unit d) s = .next ((u.drawAhead l (plan s l)).holdImpression (unitKind unit.toNat) t))

/-! The vault's own events (10_plate_vault.md) -/

/-- What happens to the vault outside its opcodes (R245, R254–R256, R269, R270): a read of a slot that misses is answered; the
batch that is formed closes and is issued; an issued batch commits with its responses, or fails, when its links, and those of
the batches that build on it, end with BUS_ERROR and recovery starts (which batches those are: log 145). The sweep reads again what failed, rewrites the
record at its position, stops where an item fails authentication while CLEAR is 0, and ends once its last batch has
committed. PV_REGION and PV_BLOB take a place once. No blob stays cached while PV_BLOB.VALID is 0 (the model's choice,
log 124). -/
def Obligations.VaultEvents : Prop :=
  ∀ (s : State) (q : PortReq) (slot : BitVec 19) (read : VaultRead),
    s.fc.halted = false → s.stopped 0x004 = false →
      (s.vt.reading.contains slot.toNat = true → s.po.txns.any (fun q => decide (q.who = .vaultRead slot.toNat)) = true →
        slot.toNat ≠ 0 → s.d0.batch = none →
        exec (.missReadReturn slot read) s =
          .next (((s.answered (fun w => decide (w = .vaultRead slot.toNat))).missReturn slot.toNat read).kmResume)) ∧
      (∀ b r, s.vt.batches = b :: r →
        (b.closed = false →
          exec .batchClose s = .next (s.modVt (fun v => { v with batches := { b with closed := true } :: r })).pumpBatches) ∧
        (b.issued = true →
          let u := s.answered (fun w => decide (w = .vaultWrite ∨ w = .blobWrite))
          let g := buildOn (b.slots.map (·.1)) b.regs.isSome r
          let v := (s.answered (fun w => decide (w = .sweep) || decide (w = .vaultWrite ∨ w = .blobWrite))).modVt (fun v => { v with
            batches := g.2.map (fun x => { x with sweptTo := none }), sweepAt := s.d0.sweepPos.toNat })
          exec .batchCommit s = .next ((u.commitBatch b r).tryOpen).kmResume ∧
          exec .batchFail s =
            .next (((((b :: g.1).map (·.waits)).flatten.foldl (fun s t => s.finish t .busError 0 0) v).startRecovery).closeStep))) ∧
      (s.d0.sweepActive = true → s.vt.state = .vopen → s.vt.closing = false → s.vt.stopped = false → s.vt.recoverDue = false →
        let u := s.answered (fun w => decide (w = .sweep))
        let at' := s.vt.sweepAt
        (2 ^ 19 ≤ at' → s.vt.batches = [] →
          exec (.sweepStep read) s = .next (u.modD0 (fun d => { d with sweepActive := false, sweepPos := 0 }))) ∧
        (at' < 2 ^ 19 → s.zeroPlace at' = none → read.failed = true → exec (.sweepStep read) s = .next u.sweepRead) ∧
        (at' < 2 ^ 19 → s.zeroPlace at' = none → read.failed = false → s.sweepReads = true → s.vt.nodeRoom = true →
          (∀ v e, State.verifyPath at' read.nodes false 6 5 (u.touchPath at') = .ok v → v.zeroPlace at' = none →
            v.current at' = some e → exec (.sweepStep read) s = .next ((v.joinBatch at' e none).sweepTo (at' + 1))) ∧
          (∀ n, State.verifyPath at' read.nodes false 6 5 (u.touchPath at') = .error n → s.vt.sweepClear = false →
            exec (.sweepStep read) s =
              .next (((u.modVt (fun v => { v with
                fails := satAdd v.fails 1, lastSlot := BitVec.ofNat 19 at', lastLevel := BitVec.ofNat 3 n })).raise 0x004 0x26
                  (formS at' n)).modVt (fun v => { v with stopped := true }))))) ∧
      (q.be = 0xFF → s.vt.lock = false → s.vt.valid = false →
        let v := s.modVt (fun v => { v with
          valid := bit q.wdata 0, addr := fld q.wdata 21 36, lock := bit q.wdata 63 })
        PortDoes s (.pvRegionWrite q) 0xA0000 q (if bit q.wdata 0 then v.tryOpen else v)) ∧
      (q.be = 0xFF → s.vt.lock = true → PortDoes s (.pvRegionWrite q) 0xA0000 q s) ∧
      (q.be = 0xFF → s.vt.blobLock = false → s.vt.blobValid = false →
        PortDoes s (.pvBlobWrite q) 0xA0008 q (s.modVt (fun v => { v with
          blobValid := bit q.wdata 0, blobAddr := fld q.wdata 21 36, blobLock := bit q.wdata 63,
          slots := if bit q.wdata 0 then v.slots else v.slots.map (fun p => (p.1, { p.2 with body := [] })) })))

/-! Etching and boot (11_burin.md) -/

/-- BU_ETCH_CTRL (R297–R300): OPEN is refused outside DEVELOPMENT with ERR 1 and when locked with ERR 2, waits for a running
etched link, and takes effect else; closing measures a valid state, and empties an invalid one with ERR 3; CLEAR empties and
measures; LOCK stays set. BU_ETCH_DATA, BU_BOOT_PTR, the boot and the routine budget (R288, R295, R297): the unit at ADDR is
written only while open and not locked, and ADDR advances by AUTOINC; a locked pointer ignores writes, and a write of one
that is not starts the boot after BOOT_FAIL; an image whose header is bad fails the boot with BOOT_ERR 1, and one whose
header, version and signature are good starts Burin, as does an unsigned one where the life-cycle state and UNSIGNED_OK
allow it; a routine over its budget traps with cause 10, which saves EPC, CAUSE and INTRAP, and ends its link with OVERLOAD (where it
stood: log 25). -/
def Obligations.EtchingAndBoot : Prop :=
  (∀ (s : State) (q : PortReq),
    let e := s.bu.etch
    let openQ := q.lower.force 0 1 1
    let closeQ := q.lower.force 0 1 0
    bit q.wdata 1 = false → bit q.wdata 2 = false →
      (s.ts.lcs ≠ 1 → PortDoes s (.etchOpen q) 0xB0100 openQ (s.etchErr 1)) ∧
      (s.ts.lcs = 1 →
        (e.lock = true → PortDoes s (.etchOpen q) 0xB0100 openQ (s.etchErr 2)) ∧
        (e.lock = false → e.isOpen = false → e.waits = false →
          (s.etchedRuns = true →
            PortDoes s (.etchOpen q) 0xB0100 openQ (s.modEtch (fun e => { e with waits := true, err := 0 }))) ∧
          (s.etchedRuns = false →
            PortDoes s (.etchOpen q) 0xB0100 openQ (s.modEtch (fun e => { e with isOpen := true, err := 0 }))))) ∧
      (e.waits = true → s.etchedRuns = false →
        exec .etchOpenDone s = .next (s.modEtch (fun e => { e with isOpen := true, waits := false }))) ∧
      (e.waits = false → e.isOpen = true →
        (e.valid = true →
          PortDoes s (.etchClose q) 0xB0100 closeQ
            ((s.modBu Burin.measured).modEtch (fun e => { e with isOpen := false, err := 0 }))) ∧
        (e.valid = false →
          PortDoes s (.etchClose q) 0xB0100 closeQ
            ((s.modBu Burin.etchClear).modEtch (fun e => { e with isOpen := false, err := 3 })))) ∧
      (e.lock = false → e.isOpen = false → e.waits = false →
        let u := (s.modBu Burin.etchClear).etchErr 0
        PortDoes s (.etchCtrlClear q) 0xB0100 (q.lower.force 1 1 1) (if bit q.wdata 0 then u.etchOpen else u)) ∧
      (e.waits = false → e.isOpen = false → bit q.wdata 0 = false →
        PortDoes s (.etchLock q) 0xB0100 (q.lower.force 2 1 1)
          ((s.etchErr 0).modEtch (fun e => { e with lock := true })))) ∧
  (∀ (s : State) (q : PortReq) (image : List Byte) (tag : BitVec 14),
    let e := s.bu.etch
    let h := fit 64 image
    let u := s.answered (· == .bootImage)
    let total := imageSigned h + 4 + imageSig image
    let full := image ++ zeros (total - image.length)
    let rest := u.fabRead .bootImage 0 (s.bu.ptrAddr.toNat * 4096 + 64) (total - 64) false
    let signed := hssVerify firmwareKeyBytes (full.take (imageSigned h))
      ((full.drop (imageSigned h + 4)).take (imageSig full))
    (q.be = 0xFF →
      (e.isOpen = true → e.lock = false →
        PortDoes s (.etchDataWrite q) 0xB0110 q (s.modBu (fun b => b.etchPut q.wdata)).etchStep) ∧
      (e.isOpen = false ∨ e.lock = true → PortDoes s (.etchDataWrite q) 0xB0110 q s.etchStep) ∧
      PortReads s (.etchDataRead q) 0xB0110 q s.bu.etchUnit s.etchStep) ∧
    (s.bu.ptrLock = true → s.bu.state = .run → PortDoes s (.bootPtrWrite q) 0xB0008 (q.force 0 1 1) s) ∧
    (s.bu.ptrLock = false → s.bu.state = .bootFail → q.be = 0xFF →
      PortDoes s (.bootPtrWrite q) 0xB0008 (q.force 0 1 1)
        (((s.modBu (fun b => { b with
          ptrValid := true, unsignedOk := bit q.wdata 1, ptrAddr := fld q.wdata 12 45,
          ptrLock := bit q.wdata 63 })).bootBegin).bootPtrPhase)) ∧
    (s.bu.state = .boot → s.po.txns.any (fun t => decide (t.who = .bootImage)) = true → s.fc.halted = false →
      (imageHeaderOk h = false →
        exec (.bootVerify image false) s =
          .next (if s.pw.phase = .firmware then (u.bootFails 1).stopStartup 4 else u.bootFails 1)) ∧
      (imageHeaderOk h = true → rest.1 = true → fieldAt h 8 4 ≤ idVersion → signed = true ∨ (s.testLife && s.bu.unsignedOk) = true →
        let v := ((rest.2.answered (· == .bootImage)).bootStart full (!signed)).burinUp
        exec (.bootVerify image false) s = .next (if v.pw.phase = .firmware then v.stepFiveBegin.progress else v))) ∧
    (∀ e, s.tag? tag.toNat = some e → e.phase = .running 0x003 → isEtched e.desc.opcode.toNat = true → s.bu.state = .run →
      s.fc.halted = false →
      exec (.routineBudget tag) s =
        .next ((s.draw.2.routineTraps (Config.routinePc s.draw.1) 10).finish tag.toNat .overload 0 0)))

/-! Mailboxes and the DMA mover (12_mailboxes_dma.md) -/

/-- The commands of the mailboxes (R303–R309): a go and a release at a function's page, by Burin at its own page, and by the
sentinel and the vault sequencer; FN_MB_STAT. A go (R303, R304, R307): one that is neither ignored nor refused moves SEQ on;
it fills an empty receive buffer with the sender's words and stamp, and leaves a full one as it is, counting an overrun; no
other path changes. A release empties the buffer (R305). -/
def Obligations.MailboxCommands : Prop :=
  (∀ (s : State) (f : BitVec 10) (q : PortReq),
    let inside (b : MailBox) : Prop := b = .senToBurin ∨ b = .vsToBurin
    ((s.fn f.toNat).state = .enabled ∨ (s.fn f.toNat).state = .halted →
      (s.adminOff 2 = false →
        PortDoes s (.mailboxGo (.fnToBurin f) q) (fnPage f.toNat 0x1038) (q.upper.force 32 1 1)
          (s.goCarried (.fnToBurin f) q.initiator q.world)) ∧
      PortDoes s (.mailboxRelease (.burinToFn f) q) (fnPage f.toNat 0x1078) (q.upper.force 32 1 1) (s.mbRelease (.burinToFn f)) ∧
      (beLo q.be = true →
        PortDoes s (.mbStatWrite f q) (fnPage f.toNat 0x1080) q
          (s.modMb (fun m => { m with stat := m.stat.set {} f.toNat {
            vecEn := bit q.wdata 1 && decide ((fld q.wdata 16 14).toNat < (s.fn f.toNat).entry.vecCount.toNat),
            vector := fld q.wdata 16 14 } })))) ∧
    (q.initiator = burinId →
      exec (.mailboxGo (.burinToFn f) q) s = .next (s.goCarried (.burinToFn f) burinId true) ∧
      exec (.mailboxGo .burinToSen q) s = .next (s.goCarried .burinToSen burinId true) ∧
      (s.adminOff 8 = false → exec (.mailboxGo .burinToVs q) s = .next (s.goCarried .burinToVs burinId true)) ∧
      exec (.mailboxRelease (.fnToBurin f) q) s = .next (s.mbRelease (.fnToBurin f)) ∧
      exec (.mailboxRelease .senToBurin q) s = .next (s.mbRelease .senToBurin) ∧
      exec (.mailboxRelease .vsToBurin q) s = .next (s.mbRelease .vsToBurin)) ∧
    (∀ b, inside b → s.adminOff 2 = false → exec (.mailboxGo b q) s = .next (s.goCarried b 0 true))) ∧
  (∀ (s : State) (b other : MailBox) (init : BitVec 16) (world : Bool),
    let t := s.goCarried b init world
    let p := s.path b
    ((s.mbRelease b).path b).rx = none ∧
    (s.goIgnored b = false →
      (∀ f, b = .burinToFn f → (s.fn f.toNat).state = .enabled ∨ (s.fn f.toNat).state = .halted) →
        (t.path b).seq = p.seq + 1 ∧ (t.path b).err = false ∧
        (p.rx = none →
          (t.path b).rx = some {
            words := p.tx, stamp := BitVec.ofNat 32 ((stampOf b init world).1 + p.seq.toNat * 65536),
            initiator := (stampOf b init world).2 } ∧ (t.path b).ovr = p.ovr) ∧
        (∀ m, p.rx = some m → (t.path b).rx = some m ∧ (t.path b).ovr = satAdd p.ovr 1) ∧
        (other ≠ b → t.path other = s.path other)))

/-- Requests to Burin (R310, Table 12.3): while firmware runs, a request whose length is right is answered in the function's
receive buffer with the request's CODE and the words that its CODE asks for, an unknown CODE with result 1 and no words, and the
request's buffer is released. -/
def Obligations.MailboxRequests : Prop :=
  ∀ (s : State) (f : BitVec 10) (m : MbMsg),
    let h := wordAt m.words 0
    let code := h.toNat % 256
    let n := h.toNat / 65536 % 16
    let answers (i : Instr) (ws : List Word) (result : Nat) : Prop :=
      ∃ t a, exec i s = .next t ∧ (t.path (.fnToBurin f)).rx = none ∧ (t.path (.burinToFn f)).rx = some a ∧
        a.words = (BitVec.ofNat 32 (h.toNat % 65536 + ws.length * 65536 + result * 2 ^ 24) :: ws) ++
          List.replicate (13 - ws.length) 0
    (s.path (.fnToBurin f)).rx = some m → (s.path (.burinToFn f)).rx = none →
    (s.fn f.toNat).state = .enabled ∨ (s.fn f.toNat).state = .halted → s.bu.state = .run → s.fc.halted = false →
      (code = 1 → n ≤ 13 → answers (.mbPing f) ((m.words.drop 1).take n) 0) ∧
      (code = 2 → n = 0 → answers (.mbVersion f) (mbVersionWords s) 0) ∧
      (code = 3 → n = 0 → answers (.mbCapacity f) (mbCapacityWords s) 0) ∧
      (code = 4 → n = 0 → answers (.mbWindow f) (mbWindowWords f.toNat s) 0) ∧
      (code = 5 → n = 0 → answers (.mbFunction f) (mbFunctionWords f.toNat s) 0) ∧
      (code = 0 ∨ 5 < code → answers (.mbUnknownCode f) [] 1)

/-- DM_CTRL (R313, R314, R317, R318): for the channels of the port, and of Burin, START of an idle or finished channel that
is well formed takes its settings, begins the CRC anew and runs; PAUSE and ABORT of a running channel let what is
outstanding end. The bursts of a running channel (R316, R318): data that was read is written on; a write's response lets the
registers move; a failed burst is tried again while RETRY allows, and then halts the channel with BUS_ERROR; a denied one halts it
at once; the wait before a retry over, the burst or the write of the CRC is issued again; the response of the stored CRC ends the channel with
DONE. -/
def Obligations.MoverChannels : Prop :=
  (∀ (s : State) (ch : BitVec 5) (q : PortReq),
    let c := ch.toNat
    let off := 0xD0000 + c * 0x40
    let x := s.ch c
    let does (i : Instr) (Q : PortReq) (u : State) : Prop :=
      (16 ≤ c → PortDoes s i off Q u) ∧
      (q.initiator = burinId → beOk q.be = true → exec i s = .next u)
    let cfg := s.modCh c (fun y => { y with
      prio := fld q.wdata 4 3, retry := fld q.wdata 8 3, crcKind := bit q.wdata 11, crcStore := bit q.wdata 12,
      srcSpace := fld q.wdata 14 2, dstSpace := fld q.wdata 16 2, byRom := s.fromRom q.initiator })
    let begin_ := cfg.modCh c (fun x => { x with
      crc := if x.crcKind then 0 else 0xFFFFFFFF, err := 0, retries := 0, bursts := [], ahead := 0, ending := 0 })
    (x.state = .idle ∨ x.state = .done → (s.unit 0x00D).outOfService = false → bit q.wdata 1 = false → bit q.wdata 2 = false →
      (begin_.ch c).configOk c = true →
      does (.dmaStart ch q) (q.lower.force 0 1 1) ((begin_.modCh c (fun x => { x with state := .run })).moveOn)) ∧
    (x.state = .run → bit q.wdata 2 = false →
      does (.dmaPause ch q) (q.lower.force 1 1 1)
        (((s.modCh c (fun x => { x with
          state := .pausing,
          retries := if x.bursts.any (fun b => decide (b.phase = .readRetry)) then 0 else x.retries })).chSettle c).moveOn)) ∧
    (x.state = .run → bit q.wdata 1 = false →
      does (.dmaAbort ch q) (q.lower.force 2 1 1)
        (((s.modCh c (fun x => { x with state := .stopping, ending := 4 })).chSettle c).moveOn))) ∧
  (∀ (s : State) (ch : BitVec 5) (n : Nat) (b : Burst) (data : List Byte),
    let c := ch.toNat
    let x := s.ch c
    (s.burst? c n = some b → x.state = .run → s.fc.halted = false →
      (b.phase = .reading →
        exec (.dmaReadReturn ch n data) s =
          .next (((s.answered (fun w => decide (w = .dmaRead c n))).burstWrite c { b with data := fit b.len data }).moveOn)) ∧
      (b.phase = .writing →
        exec (.dmaBurstDone ch n) s =
          .next ((((s.answered (fun w => decide (w = .dmaWrite c n))).modBurst c n (fun y => { y with
            phase := .written })).chSettle c).moveOn)) ∧
      (b.phase = .reading ∨ b.phase = .writing →
        let u := s.answered (fun w => decide (w = .dmaRead c n ∨ w = .dmaWrite c n))
        (b.tries < x.retry.toNat →
          exec (.dmaBurstFail ch n false) s =
            .next ((u.modBurst c n (fun y => { y with
              tries := b.tries + 1, phase := if b.phase = .reading then .readRetry else .writeRetry })).modCh c (fun x => { x with
                retries := BitVec.ofNat 3 (b.tries + 1) }))) ∧
        (x.retry.toNat ≤ b.tries →
          exec (.dmaBurstFail ch n false) s =
            .next (((((u.modBurst c n (fun y => { y with phase := .readRetry })).raiseFabric 0x00D 0x10 0
              (if b.phase = .reading then b.src else b.dst) (decide (b.phase = .writing))).chStop c 1).chSettle c).moveOn)) ∧
        exec (.dmaBurstFail ch n true) s =
          .next ((((u.modBurst c n (fun y => { y with phase := .readRetry })).chStop c 2).chSettle c).moveOn)) ∧
      (b.phase = .readRetry →
        exec (.dmaRetryTimer ch n) s =
          .next ((s.modBurst c n (fun y => { y with phase := .reading })).burstRead c { b with phase := .reading })) ∧
      (b.phase = .writeRetry → exec (.dmaRetryTimer ch n) s = .next (s.burstWrite c b))) ∧
    (s.burst? c n = none → x.crcWait = true → x.state = .run → s.fc.halted = false →
      exec (.dmaRetryTimer ch n) s = .next (s.crcWrite c)) ∧
    (x.crcOut = true → x.state ≠ .stopping →
      exec (.dmaCrcWritten ch) s =
        .next (((s.answered (fun w => decide (w = .dmaCrc c))).modCh c (fun x => { x with crc := x.crcFinal })).chEnd c .done 0)))

/-! Faults and repair (13_faults_repair.md) -/

/-- Reports (R142, R259, R320, R321, R329): a checker's report waits at its source, and one of a fencing kind fences its unit at
once; Burin's corrected memory error is counted, an uncorrectable error of the vault's caches discards an entry (which: a free value, log 147),
and a comparator's mismatch gives the frame at work NOT_CHECKED_REPAIR and frees its unit; the
collector's own correctable error waits as a message, its uncorrectable error sets the lockdown latch and is classified at L5
directly; the collector takes the message of a source and acts on its level. -/
def Obligations.FaultReports : Prop :=
  ∀ (s : State) (source : BitVec 12) (kind : Byte) (a : BitVec 44),
    let n := source.toNat
    let k := kind.toNat
    let u := s.raise n k a
    (checkerHas n k = true → s.reports n = true → s.fc.injLeft = 0 →
      (isComparator n = false →
        let v := if k = 0x32 then u.modBu (fun b => { b with memCe := satAdd b.memCe 1 })
          else if n = 0x004 ∧ k = 0x04 then u.cacheError else u
        exec (.checkerReport source kind a) s = .next (if fences k && decide (3 ≤ baseLevel k) then v.fenceSource n else v)) ∧
      (∀ j r, isComparator n = true → (s.sport ((n - 0x200) / 16)).jobs = j :: r → s.fc.halted = false →
        let p := (n - 0x200) / 16
        let v := u.loseJobs p (fun i => decide (i.seq = j.seq))
        exec (.checkerReport source kind a) s =
          .next ((match j.unit with
            | some w => v.modPort p (fun x => x.frees w)
            | none => v).assignUnits p))) ∧
    (∃ m ∈ u.fc.waiting, m.source = source) ∧
    exec (.collectorCe a) s = .next (s.raise 0x000 0x42 a) ∧
    exec (.collectorUe a) s =
      .next ((s.modFc (fun c => { c with lockdown := true })).levelAct { source := 0, kind := 0x43, addr := a } 5) ∧
    (∀ m, s.fc.waiting.find? (fun m => decide (m.source.toNat = n)) = some m →
      let v := s.modFc (fun c => { c with waiting := c.waiting.filter (fun x => decide (x.source ≠ m.source)) })
      exec (.faultClassify source) s =
        .next (((v.setSrc n (v.levelOf m).2).levelAct m (v.levelOf m).1).settleHeld))

/-- Levels (R326–R328): a fixed level stands whatever the source's history; a base level of at most L1 of a source that is not
programmable and holds no record rises by one step when the window's count reaches N, and a new count begins; a message at L4 halts the block, one at
L5 also locks it down and is kept in D0. -/
def Obligations.FaultLevels : Prop :=
  ∀ (s : State) (m : FMsg),
    let n := m.source.toNat
    let k := m.kind.toNat
    let x := s.src n
    (∀ l, fixedLevel n k = some l → s.levelOf m = (l, x)) ∧
    (fixedLevel n k = none → progSource n = false → baseLevel k ≤ 1 → x.held = 0 →
      x.count ≠ 0 → (s.po.tm - x.winStart).toNat < 2 ^ x.wcode.toNat * 1000 →
      (x.n.toNat ≤ x.count.toNat + 1 → s.levelOf m = (baseLevel k + 1, { x with count := 0 })) ∧
      (x.count.toNat + 1 < x.n.toNat → s.levelOf m = (baseLevel k, { x with count := x.count + 1 }))) ∧
    (s.levelAct m 4).fc.halted = true ∧ (s.levelAct m 5).fc.halted = true ∧ (s.levelAct m 5).fc.lockdown = true ∧
    (s.levelAct m 5).d0.l5 = some m.word

/-- The FC_ page's commands (R323, R331–R336, R342): FC_ACK acknowledges a held record; FC_CTRL and FC_SRC_CFG take values in
range; the capture is rearmed; an injection that is allowed arms its checks; RETURN of a unit that is out of service asks for its
domain, and an undefined OP gives ERR. -/
def Obligations.FaultRegisters : Prop :=
  ∀ (s : State) (q : PortReq),
    let d := q.wdata
    let sel := s.fc.sel.toNat
    let x := s.src sel
    (bit d 12 = false → 2 ≤ (s.src (fld d 0 12).toNat).held →
      PortDoes s (.fcAck q) 0xE0028 q.lower
        (s.setSrc (fld d 0 12).toNat { s.src (fld d 0 12).toNat with acked := true }).settleHeld) ∧
    ((fld d 2 3).toNat ≤ 5 → (fld d 5 3).toNat ≤ 5 → fld d 8 16 ≠ 0 → s.fc.lock = false →
      PortDoes s (.fcCtrlWrite q) 0xE0008 q.lower (s.modFc (fun c => { c with
        compatY7 := bit d 0, injUnlock := bit d 1, evtMin := fld d 2 3, captureMin := fld d 5 3, rejoinMs := fld d 8 16,
        lock := bit d 31 }))) ∧
    (knownSource sel = true → fld d 0 8 ≠ 0 → (fld d 8 5).toNat ≤ 24 → (progSource sel = true → (fld d 16 3).toNat ≤ 5) →
      x.lock = false →
      PortDoes s (.srcCfgWrite q) 0xE0018 q.lower (s.setSrc sel { x with
        n := fld d 0 8, wcode := fld d 8 5, sev := if progSource sel then fld d 16 3 else 0,
        lock := bit d 31 })) ∧
    PortDoes s (.captureRearm q) 0xE0040 (q.lower.force 0 1 1)
      (s.modFc (fun c => { c with first := { c.first with valid := false, overflow := false } })) ∧
    (s.fc.injLeft = 0 → (s.testLife || s.fc.injUnlock) = true → fld d 16 8 ≠ 0 →
      (classKind (fld d 0 12).toNat (fld d 12 4).toNat).isSome = true →
      s.Accepts 0xE0048 (q.lower.force 24 1 1) →
      ∃ t, exec (.injectionGo q) s = .next (s.carried t 0xE0048 (q.lower.force 24 1 1)) ∧
        t.fc.injLeft = fld d 16 8 ∧ t.fc.injSource = fld d 0 12 ∧ t.fc.injClass = fld d 12 4 ∧ t.fc.injDenied = false ∧
        ∃ m ∈ t.fc.waiting, m.source = 0) ∧
    (∀ dom, s.fc.unitBusy = false → returnable (fld d 0 12).toNat = true →
      (s.unit (fld d 0 12).toNat).outOfService = true → unitDomain (fld d 0 12).toNat = some dom →
      PortDoes s (.unitReturn q) 0xE0050 (q.lower.force 12 2 1)
        ((s.modFc (fun c => { c with unitSource := fld d 0 12, unitErr := false, unitBusy := true })).domWants dom .release)) ∧
    PortDoes s (.fcUnitCmdUndefined q) 0xE0050 (q.lower.undefinedOp 12 2 0 (fun n => decide (n = 1)))
      (s.modFc (fun c => { c with unitSource := fld d 0 12, unitErr := true }))

/-- A proofing cycle (R337, R338): a clean one counts toward the unit's need, and the last one lets it join its pool; one
that fails retires the unit; a spare that LEAN has gated is gated again after its ten proofs, and repaired with PROOF_FAIL when one
fails (R338, R384); a lane that takes over a link in BULK runs it after 50 clean cycles (R346). The domain handshake (R377–R380, R382): the acknowledgement of a ramp's request takes the
domain to RESTORE; a restarted domain is ON; a missing acknowledgement is reported, and after 1 ms a pool unit's domain is
given up; a domain that may be held off takes the order, and a withdrawal asks for it again. -/
def Obligations.DomainsAndProofing : Prop :=
  (∀ (s : State) (unit : BitVec 12),
    let u := unit.toNat
    let x := s.unit u
    (poolOf u).isSome = true → x.role = .proofing → s.fc.halted = false → (x.need = 1000 → s.bu.state = .run) →
      (x.clean + 1 < x.need → exec (.proofingCycle unit true) s = .next (s.setUnit u { x with clean := x.clean + 1 })) ∧
      (s.pw.phase = .ready → x.need ≤ x.clean + 1 → x.gatedSpare = false →
        exec (.proofingCycle unit true) s = .next (s.joinUnit u (decide (x.need = 1000))).settleHeld) ∧
      (∀ d, s.pw.phase = .ready → x.need = 10 → 10 ≤ x.clean + 1 → x.gatedSpare = true → s.pf.current = 2 →
        unitDomain u = some d →
        exec (.proofingCycle unit true) s =
          .next ((s.setUnit u { x with role := .gated, clean := 0 }).domOff d .gated .gate)) ∧
      (s.pw.phase = .ready → x.gatedSpare = false →
        exec (.proofingCycle unit false) s = .next (s.retireUnit u).settleHeld) ∧
      (s.pw.phase = .ready → x.gatedSpare = true →
        exec (.proofingCycle unit false) s =
          .next ((((s.setUnit u { x with role := .spare, gatedSpare := false }).raise u 0x06 0).fenceUnit u).startRepair u))) ∧
  (∀ (s : State) (unit : BitVec 12),
    let u := unit.toNat
    let x := s.unit u
    (poolOf u).isSome = true → x.role = .working → x.need = 50 → s.fc.halted = false →
      (x.clean + 1 < 50 → exec (.proofingCycle unit true) s = .next (s.setUnit u { x with clean := x.clean + 1 })) ∧
      (50 ≤ x.clean + 1 → exec (.proofingCycle unit true) s = .next (s.setUnit u { x with clean := 0, need := 1000 })) ∧
      exec (.proofingCycle unit false) s = .next (((s.raise u 0x06 0).fenceUnit u).startRepair u)) ∧
  (∀ (s : State) (dom : BitVec 6) (q : PortReq),
    let d := dom.toNat
    let x := s.dom d
    let sel := s.pw.domSel.toNat
    (2 ≤ d → d < 52 → x.ack = false → x.req = true → x.state = .ramp →
      exec (.pwrAck dom true) s =
        .next ((s.setDom d { x with ack := true, ret := x.ret || retains d, state := .restore, late := false }).pump).settleHeld) ∧
    (x.state = .restore → x.why = .none →
      exec (.domainRestartDone dom true) s = .next ((s.setDom d { x with state := .on }).pump).settleHeld) ∧
    (x.state = .restore → x.why = .restart → singleUnit d = none →
      exec (.domainRestartDone dom true) s =
        .next ((((s.setDom d { x with state := .on, why := .none, restarts := satAdd x.restarts 1 }).laneUp d .restart).pump).settleHeld)) ∧
    (x.req ≠ x.ack → x.late = false →
      exec (.domainAckTimeout dom) s =
        .next ((s.setDom d { x with state := if x.state = .ramp then .failed else x.state, late := true }).raise 0x001 0x0C
          (BitVec.ofNat 44 d))) ∧
    (∀ u, x.req ≠ x.ack → x.state = .failed → x.why ≠ .retired → x.why ≠ .startup → domainUnit d = some u → isSingle u = false →
      haltsWhenLost u = false →
      exec (.domainFail1ms dom) s =
        .next ((s.retireUnit u).setDom d { x with why := .retired }).settleHeld) ∧
    (sel < 52 → s.mayHold sel = false → PortDoes s (.holdOff q) 0x100028 q.lower (s.modPw (fun p => { p with domErr := true }))) ∧
    (sel < 52 → s.mayHold sel = true → (s.dom sel).holdOff = false → bit q.wdata 0 = true →
      PortDoes s (.holdOff q) 0x100028 q.lower ((s.modPw (fun p => { p with domErr := false })).holdDomain sel)) ∧
    (sel < 52 → s.mayHold sel = true → (s.dom sel).holdOff = true → bit q.wdata 0 = false → (s.dom sel).why ≠ .retired →
      PortDoes s (.holdOff q) 0x100028 q.lower
        (((s.modPw (fun p => { p with domErr := false })).setDom sel { s.dom sel with holdOff := false }).domWants sel .release)))

/-! Power domains and resets (15_power_startup.md) -/

/-- Resets and main power (R385, R391–R395, R419, Table 15.5): a block reset, by register or pin, and the end of `rst_por_i`
begin start-up from step 1 with everything at its reset value; D0, the lockdown latch, the first capture, the retired units and
the answers already given are kept; when main power fails, D0 runs on with the time of loss. -/
def Obligations.Resets : Prop :=
  ∀ (s : State) (q : PortReq) (ids : Identity) (level : Bool),
    let t := s.afterReset
    (s.Accepts 0x100018 (q.lower.force 0 1 1) → exec (.blockReset q) s = .next t.stepOne) ∧
    (s.d0.onCell = false →
      (s.pw.blkAsserted ≠ level →
        exec (.blockResetInput level) s = .next ((s.modPw (fun p => { p with blkAsserted := level })).afterReset).stepOne) ∧
      exec .powerOnResetAsserted s = .next (s.modPw (fun p => { p with porAsserted := true })).afterReset ∧
      (∃ u : State, exec (.powerOnReset ids) s = .next u.stepOne ∧ u.po.ident = ids ∧ u.pw.porAsserted = false ∧
        u.pw.refOk = true ∧ u.d0 = s.d0) ∧
      (s.pw.phase = .sentinel → s.po.ident.valid = false → ids.valid = true → s.pw.porAsserted = false →
        exec (.identityValid ids) s = .next (({ s with po := { s.po with ident := ids } } : State).stepOne)) ∧
      (∃ u : State, exec .mainPowerLoss s = .next u ∧ u.pw.phase = .sentinel ∧ u.po.rpUp = false ∧ u.fc = {} ∧
        (s.ts.cell ≠ .critical → u.d0 = { s.d0 with onCell := true, lossTime := s.po.tm }) ∧
        (s.ts.cell = .critical → u.d0.tamperSecret = 0 ∧ u.d0.burnished = true ∧ u.d0.onCell = true ∧ u.d0.lossTime = s.po.tm))) ∧
    (s.d0.onCell = true →
      exec .mainPowerReturn s = .next { s with d0 := { s.d0 with onCell := false }, ts := { s.ts with levels := 0 } }) ∧
    t.d0 = s.d0 ∧ t.fc.lockdown = s.fc.lockdown ∧ t.fc.first = s.fc.first ∧ t.fc.retired = s.fc.retired ∧
    t.fc.halted = false ∧ t.po.rpUp = false ∧ t.po.rpOut = s.po.rpOut ∧ t.pending = s.pending ∧ t.sq = State.reset.sq ∧
    t.rt = State.reset.rt ∧ t.vt = State.reset.vt ∧ t.pr = State.reset.pr ∧ t.jn = State.reset.jn ∧ t.mb = State.reset.mb ∧
    t.dm = State.reset.dm ∧ t.dg = State.reset.dg

/-- Step 6, the reference and the time (R14, R261, R271, R383, R388, R418): with its state in D0 good, the unique key unseals the
vault and the block becomes READY; after BACKUP_LOST or a burnish a new tamper secret is drawn and the vault starts empty, and while the
DRBG cannot serve that draw start-up stays where it is (log 143); the loss of the reference raises its source, HOLDOVER is shown while it lasts, and its return
clears both; a new time of day is taken, the random pool fills with the time that passed (log 33), trace records leave in it (R421, log 153), and 768 bits of it instantiate the
generator or fill an empty reserve seed (R217, R219). -/
def Obligations.ReadyAndTime : Prop :=
  ∀ (s : State) (uk : BitVec 256) (tm : DWord),
    (s.pw.phase = .unseal → s.pw.backupLost = false → s.d0.burnished = false →
      exec (.startupReady uk) s = .next (s.derived uk).ready) ∧
    (s.pw.phase = .unseal → s.pw.backupLost = true ∨ s.d0.burnished = true →
      (∀ b u, s.request 32 = (.got b, u) → exec (.startupReady uk) s = .next ((u.freshVault b).derived uk).ready) ∧
      (∀ u, s.request 32 = (.wait, u) ∨ s.request 32 = (.fail, u) → exec (.startupReady uk) s = .next s)) ∧
    (s.pw.refOk = true →
      exec .refLost s = .next ((s.modPw (fun p => { p with refOk := false })).raise 0x001 0x18 0)) ∧
    (s.pw.refOk = false → exec .holdover s = .next (s.modPw (fun p => { p with holdover := true }))) ∧
    exec .refReturn s = .next (s.modPw (fun p => { p with refOk := true, holdover := false })).settleHeld ∧
    (let v := (({ s with po := { s.po with tm := tm, tmTog := !s.po.tmTog } } : State).traceOut
        (tm.toNat / 20 - s.po.tm.toNat / 20)).modRng (fun g => g.fill (tm.toNat - s.po.tm.toNat))
     s.bu.state ≠ .rollback →
      ((v.pk.rng.state = .startup ∨ v.pk.rng.state = .ready → v.pk.rng.pool < 768) → exec (.timeUpdate tm) s = .next v) ∧
      (v.pk.rng.state = .startup → 768 ≤ v.pk.rng.pool →
        exec (.timeUpdate tm) s = .next (v.rngInstantiate.settleHeld.schedule.progress.rngReserve.rolledBack)) ∧
      (v.pk.rng.state = .ready → v.pk.rng.reserve = [] → v.pk.rng.reseeding = false → 768 ≤ v.pk.rng.pool →
        exec (.timeUpdate tm) s = .next ({ v with freeCount := v.freeCount + 96 }.modRng (fun g => { g with
          reserve := (List.range 96).map (fun i => Config.entropyByte (v.freeCount + i)), pool := g.pool - 768 }))))

/-! The tamper response (14_protection.md) -/

/-- Alarms, the cell and the erases by software (R361–R365, R369–R371): the lines that rise together get the strongest of
their responses, then a record each in line order, and lines that are not armed none; a critical cell burnishes while D0
runs on it; a cell that no longer holds loses D0; TS_CTRL erases with its record and event; a clear empties the tamper
records. After an erase of everything no tamper secret and no root is left. Alarm lines and their monitor tests (R362,
R366): a line that is not locked takes its configuration, and one that is locked ignores the write; a GO that may run
stimulates its line and suppresses its alarms, another reads REFUSED, and the end of the window tells whether the line was
seen and is at rest again; one not seen is a failed test and raises TAMPER. -/
def Obligations.TamperResponses : Prop :=
  (∀ (s : State) (levels : BitVec 16) (q : PortReq) (cell : Cell),
    let rises := (List.range 16).filter (fun n => levels.getLsbD n && !s.ts.levels.getLsbD n)
    let armed := rises.filter (fun n => (s.line n).en && !s.ts.supp.getLsbD n)
    let u : State := { s with ts := { s.ts with levels := levels } }
    (armed = [] → exec (.alarmEvent levels) s = .next u) ∧
    (armed ≠ [] →
      exec (.alarmEvent levels) s =
        .next (armed.foldl (fun s n => s.alarmRecords n (s.line n).response.toNat)
          (u.respond ((armed.map (fun n => (s.line n).response.toNat)).foldl min 2)))) ∧
    (s.d0.onCell = true → s.ts.cell ≠ .critical →
      exec .cellCritical s = .next (({ s with ts := { s.ts with cell := .critical } } : State).preempt)) ∧
    (cell ≠ .critical → exec (.cellLow cell) s = .next { s with ts := { s.ts with cell := cell } }) ∧
    (s.d0.onCell = true → exec .backupCellDepleted s =
      .next { s with d0 := { onCell := true }, ts := { s.ts with cell := .critical } }) ∧
    (bit q.wdata 1 = false →
      PortDoes s (.softwareBurnish q) 0xF8000 (q.lower.force 0 1 1)
        (((s.respond 0).tamperRecord 0x11 0).tamperEvent 0x11 0 s.po.tm)) ∧
    (bit q.wdata 0 = false →
      PortDoes s (.softwareSession q) 0xF8000 (q.lower.force 1 1 1)
        (((s.respond 1).tamperRecord 0x12 1).tamperEvent 0x12 1 s.po.tm)) ∧
    PortDoes s (.tamperRecordClear q) 0xF8200 (q.lower.force 16 1 1) { s with d0 := { s.d0 with records := [], recLost := 0 } } ∧
    s.eraseAll.d0.tamperSecret = 0 ∧ s.eraseAll.d0.burnished = true ∧ s.eraseAll.vt.state = .erased ∧ s.eraseAll.vt.vr = [] ∧
    s.eraseAll.vt.ur = []) ∧
  (∀ (s : State) (line : BitVec 4) (q : PortReq),
    let n := line.toNat
    let v : Word := if n % 2 = 0 then loHalf q.wdata else hiHalf q.wdata
    let off := 0xF8100 + n / 2 * 8
    let go := q.lower.force 14 1 1
    let l := (fld q.wdata 0 4).toNat
    let u : State := { s with ts := { s.ts with testLine := fld q.wdata 0 4, testWindow := fld q.wdata 4 10 } }
    let busy : Bool := s.ts.testBusy || (match s.ts.lastTest.get none l with
      | some t => decide (s.po.tm.toNat < t.toNat + 100000000)
      | none => false) || decide (fld q.wdata 4 10 = 0) || s.d0.onCell
    (s.ts.locks.getLsbD n = true → PortDoes s (.lineCfgWrite line q) off (q.half n) s) ∧
    (s.ts.locks.getLsbD n = false → v.extractLsb' 1 2 ≠ (3 : BitVec 2) →
      PortDoes s (.lineCfgWrite line q) off (q.half n) { s with
        d0 := { s.d0 with lines := s.d0.lines.set {} n { en := v.getLsbD 0, response := v.extractLsb' 1 2 } },
        ts := { s.ts with locks := if v.getLsbD 31 then s.ts.locks ||| (1#16 <<< n) else s.ts.locks } }) ∧
    (busy = false →
      PortDoes s (.monitorTest q) 0xF8010 go { u with ts := { u.ts with
        testBusy := true, testResult := 0, stim := 1#16 <<< l, supp := 1#16 <<< l,
        lastTest := s.ts.lastTest.set none l (some s.po.tm) } }) ∧
    (busy = true → PortDoes s (.monitorTest q) 0xF8010 go { u with ts := { u.ts with testResult := 3 } }) ∧
    (s.ts.testBusy = true → s.ts.supp = 1#16 <<< n →
      exec (.monitorTestEnd true false) s = .next { s with ts := { s.ts with
        testBusy := false, testResult := 1, stim := 0, supp := 0, levels := s.ts.levels &&& ~~~(1#16 <<< n) } }) ∧
    (s.ts.testBusy = true → s.ts.supp = 1#16 <<< n →
      exec (.monitorTestEnd false false) s = .next (({ s with ts := { s.ts with
        testBusy := false, testResult := 2, stim := 0, supp := 0, levels := s.ts.levels &&& ~~~(1#16 <<< n) } } : State).raise
          0x001 0x38 (BitVec.ofNat 44 (n + 48)))))

/-! Access rules, debug and the journal (14_protection.md) -/

/-- The region table and the page owners (R349–R353): LOAD stages the selected entry; COMMIT and INVALIDATE of an entry that is
not locked put it in force at once and raise the epoch, a locked one gives ERR 1 and LOCK_VIOLATION, an end before the start
ERR 2, an undefined OP ERR 3; DONE rises when nothing that was checked under the older rules waits; an owner that is not locked
is replaced. -/
def Obligations.RegionTable : Prop :=
  ∀ (s : State) (q : PortReq),
    let p := s.pr
    let sel := p.sel.toNat
    let r := p.regions.get {} sel
    let locked (Q : PortReq) := (s.modPr (fun p => { p with err := 1 })).lockViolation (s.wreq 0xF0008 Q)
    let inForce (r : Region) := s.modPr (fun p => { p with
      regions := p.regions.set {} sel r, epoch := p.epoch + 1, err := 0, done := !s.oldAccesses })
    PortDoes s (.arLoad q) 0xF0008 (q.lower.force 0 2 1) (s.modPr (fun p => { p with stage := r, err := 0 })) ∧
    (r.lock = true →
      PortDoes s (.arCommit q) 0xF0008 (q.lower.force 0 2 2) (locked (q.lower.force 0 2 2)) ∧
      PortDoes s (.arInvalidate q) 0xF0008 (q.lower.force 0 2 3) (locked (q.lower.force 0 2 3))) ∧
    (r.lock = false →
      (p.stage.last.toNat < p.stage.start.toNat →
        PortDoes s (.arCommit q) 0xF0008 (q.lower.force 0 2 2) (s.modPr (fun p => { p with err := 2 }))) ∧
      (p.stage.start.toNat ≤ p.stage.last.toNat →
        PortDoes s (.arCommit q) 0xF0008 (q.lower.force 0 2 2) (inForce { p.stage with valid := true })) ∧
      PortDoes s (.arInvalidate q) 0xF0008 (q.lower.force 0 2 3) (inForce {})) ∧
    PortDoes s (.arCmdUndefined q) 0xF0008 (q.lower.force 0 2 0) (s.modPr (fun p => { p with err := 3 })) ∧
    (s.oldAccesses = false → exec .arSyncDone s = .next (s.modPr (fun p => { p with done := true }))) ∧
    (q.be = 0xFF → p.poSel.toNat < 1044 → fld q.wdata 32 2 ≠ 3 → (s.owner p.poSel.toNat).lock = false →
      let o : PageOwner := {
        initiator := fld q.wdata 0 16, mask := fld q.wdata 16 16, world := fld q.wdata 32 2, en := bit q.wdata 34,
        lock := bit q.wdata 63 }
      s.Accepts 0xF0108 q → ∃ t, exec (.poEntryWrite q) s = .next (s.carried t 0xF0108 q) ∧
        t.pr.regions = p.regions ∧ ∀ i, t.owner i = if i = p.poSel.toNat then o else s.owner i)

/-- Debug control and the journal (R356, R359, R407): tracing is enabled only in TEST or DEVELOPMENT; JN_CTRL takes EN, a new
enable starting both indices at 0, and SIZE while EN stays 0, unless it is locked; JN_CONS makes room; each lets entries that
wait go out; a read of JN_LOST returns and clears it. -/
def Obligations.DebugAndJournal : Prop :=
  ∀ (s : State) (q : PortReq),
    let j := s.jn
    let d := q.wdata
    PortDoes s (.dgCtrlWrite q) 0x110000 q.lower (s.modPr (fun p => { p with
      dgFn := fld d 0 10, traceEn := s.testLife && bit d 16, traceWrap := bit d 17 })) ∧
    (j.lock = true → PortDoes s (.jnCtrlWrite q) 0x120008 q.lower s) ∧
    (j.lock = false → (fld d 1 4).toNat ≤ 10 →
      PortDoes s (.jnCtrlWrite q) 0x120008 q.lower (State.drainJournal 70 (s.modJn (fun j => { j with
        en := bit d 0, size := if bit d 0 then j.size else fld d 1 4, lock := bit d 31,
        prod := if bit d 0 && !j.en then 0 else j.prod, cons := if bit d 0 && !j.en then 0 else j.cons })))) ∧
    PortDoes s (.jnConsWrite q) 0x120010 q.upper (State.drainJournal 70 (s.modJn (fun j => { j with cons := hiHalf d }))) ∧
    (q.be = 0x0F →
      PortReads s (.jnLostRead q) 0x120018 q (pk [(0, j.lost.toNat)]) (s.modJn (fun j => { j with lost := 0 })))

/-! The fabric and the test access port (16_ports.md) -/

/-- Answers on the fabric (R397, R398, R403, R404): RETRY waits while retries are left; an error, or RETRY with none left, drops
the transaction, raises BUS_ERROR of its initiator and has its consequence there, which for a DMA access is its channel's own retry; the timer sends a transaction again and counts it, or meets the region table's denial (R349); one without an answer
raises RESP_TIMEOUT and keeps its TID until its late answer, which is discarded; a parity error is a DATAPATH fault of its port; GC_FABRIC takes a TIMEOUT_US other than 0; credits come back
while the port is up. -/
def Obligations.FabricAnswers : Prop :=
  ∀ (s : State) (id : Nat) (q : FabReq) (portB again : Bool) (r : PortReq) (ch : Channel) (n : BitVec 4),
    let src := pathSource portB
    (s.txn? id = some q → q.backoff = false →
      (q.who.isDma = false → q.retries < q.maxRetries.toNat →
        exec (.fabricResponseFail id true) s = .next (s.modTxn id (fun q => { q with backoff := true }))) ∧
      (q.who.isDma = true →
        exec (.fabricResponseFail id again) s = .next ((s.dropFailed q).txnFails q)) ∧
      (q.who.isDma = false → q.maxRetries.toNat ≤ q.retries →
        exec (.fabricResponseFail id true) s =
          .next (((s.dropFailed q).raiseFabric (s.initiatorSource q.who) 0x10 q.fn q.addr q.write).txnFails q)) ∧
      (q.who.isDma = false →
        exec (.fabricResponseFail id false) s =
          .next (((s.dropFailed q).raiseFabric (s.initiatorSource q.who) 0x10 q.fn q.addr q.write).txnFails q)) ∧
      exec (.fabricTimeout id) s =
        .next ((({ (s.dropFailed q).keepTid q with po := { ((s.dropFailed q).keepTid q).po with
          nTimeouts := satAdd ((s.dropFailed q).keepTid q).po.nTimeouts 1 } } : State).raiseFabric (pathSource q.portB) 0x11 q.fn
            q.addr q.write).txnFails q)) ∧
    (s.txn? id = none →
      exec (.fabricResponseFail id again) s =
        .next { s with po := { s.po with late := s.po.late.filter (fun x => x.id != id) } }) ∧
    (s.txn? id = some q → q.backoff = true → (s.fc.halted && q.write) = false → s.allowed q.fn q.addr q.len q.write = false →
      exec (.fabricRetryTimer id) s =
        .next (((s.dropFailed q).raiseFabric (secSource (s.po.portB q.addr)) 0x12 q.fn q.addr q.write).txnFails q)) ∧
    (s.txn? id = some q → q.backoff = true → (s.fc.halted && q.write) = false → s.allowed q.fn q.addr q.len q.write = true →
      let q' : FabReq := { q with retries := q.retries + 1, backoff := false, portB := s.po.portB q.addr }
      let t := (s.modTxn id (fun _ => q')).transmit q'
      exec (.fabricRetryTimer id) s = .next { t with po := { t.po with nRetries := satAdd t.po.nRetries 1 } }) ∧
    (s.reports src = true → s.fc.injLeft = 0 →
      exec (.fabricParityError portB) s =
        .next (if fences 1 && decide (3 ≤ baseLevel 1) then (s.raise src 1 0).fenceSource src else s.raise src 1 0)) ∧
    (fld r.wdata 8 16 ≠ 0 →
      PortDoes s (.gcFabricWrite r) 0x10020 r.lower
        { s with po := { s.po with retry := fld r.wdata 0 3, timeoutUs := fld r.wdata 8 16 } }) ∧
    (fld r.wdata 8 16 = 0 → PortDoes s (.gcFabricWrite r) 0x10020 r.lower s) ∧
    (s.po.fpaUp = true → s.po.fpbUp = true → s.po.rpUp = true → s.po.fiUp = true → n ≠ 0 →
      exec (.creditReturn ch n) s =
        .next { s with po := { s.po with chans := s.po.chans.modify {} (chanNo ch) (·.credit n.toNat) } })

/-- The test access port (R353–R355, R420): IDCODE, BYPASS and the TAP's own reset reach nothing but the TAP; DBG_ENABLE sets
MASTER_ACTIVE; a register read of an active master is answered in its data register with STATUS DONE, and without MASTER_ACTIVE
nothing starts. -/
def Obligations.TestAccessPort : Prop :=
  ∀ (s : State) (dr : BitVec 128) (answer : DWord) (on : Bool),
    let u : State := { s with po := { s.po with tapIr := tapAccessIr } }
    let off := dr.toNat / 2 ^ 64 % 2 ^ 57 % 2 ^ 25 / 8 * 8
    exec .tapIdcode s = .next { s with po := { s.po with tapIr := tapIdcodeIr, tapDr := idcode s.po.ident.mfr } } ∧
    exec .tapBypass s = .next { s with po := { s.po with tapIr := tapBypassIr, tapDr := 0 } } ∧
    exec .tapReset s = .next { s with po := { s.po with tapIr := tapIdcodeIr } } ∧
    (s.debugUp = true →
      exec (.dbgEnable on) s =
        .next (({ s with po := { s.po with tapIr := tapEnableIr, tapDr := BitVec.ofNat 128 (b2n on) } } : State).modPr
          (fun p => { p with master := on }))) ∧
    (s.pr.master = false → exec (.dbgAccess dr answer) s = .next u) ∧
    (s.pr.master = true → s.debugUp = true → s.po.tapStatus ≠ 3 → dr.getLsbD 121 = false → dr.getLsbD 122 = false →
      dr.getLsbD 123 = true → s.fc.lockdown = false →
      (u.ownerPasses off debugId true false = true →
        exec (.dbgAccess dr answer) s =
          .next ((u.windowRead off true true).2.dbgDone dr (u.windowRead off true true).1 1)) ∧
      (u.ownerPasses off debugId true false = false →
        exec (.dbgAccess dr answer) s = .next ((u.raiseReg 0x009 0x14 off debugId.toNat true false).dbgDone dr 0 2)))

/-! The block as a whole -/

/-- The step takes the command at the front of the queue and runs it with the rest; on an empty queue the block idles (the
model's choice, log 5). -/
def Obligations.StepRunsFront : Prop :=
  (∀ (c : Instr) (s : State), step { s with pending := c :: s.pending } = exec c s) ∧
  (∀ s : State, s.pending = [] → step s = .next s)

/-- Every command completes in every state: none ends in a fault or a refusal. A command whose condition does not hold leaves the
state as the rules say for it (the model's choice where they are silent, log 2). -/
def Obligations.EveryCommandAnswers : Prop := ∀ (i : Instr) (s : State), ∃ t, exec i s = .next t

/-- The L5 latch (R327, R330): no command but the loss of main power brings a block out of lockdown; no reset does. -/
def Obligations.LockdownStands : Prop :=
  ∀ (i : Instr) (s t : State), i ≠ .mainPowerLoss → s.fc.lockdown = true → exec i s = .next t → t.fc.lockdown = true

/-- The registers after reset, by the Reset column of each register (PW_DOM_STAT and FN_STATE of function 0's page read what R376
and R36 make of them, log 70). -/
def Obligations.ResetValues : Prop :=
  (∀ p ∈ ([(0x0, 0x90200), (0x10008, 0x710), (0x10010, 0x7000), (0x10020, 0x6403), (0x20010, 0x2), (0x20018, 0x400000),
        (0x20020, 0x400000), (0x20028, 0x100), (0x20030, 0x271000000000), (0x30020, 0x8000000000000000), (0x40000, 0x3E8),
        (0x40020, 0x200), (0x50000, 0x660000), (0x80200, 0x1403E8), (0xE0008, 0x3E844), (0xE0018, 0x101408),
        (0xF0028, 0x100000000), (0xF0108, 0x600000000), (0x100040, 0x3), (0x400010, 0x100), (0x402008, 0x80001000)] : List (Nat × DWord)), regRead State.reset p.1 = p.2) ∧
  (∀ o ∈ [0x10000, 0x10018, 0x10028, 0x20000, 0x20008, 0x20040, 0x30000, 0x30008, 0x30010, 0x30018, 0x40008, 0x40010, 0x40018,
        0x50008, 0x50010, 0x51000, 0x51008, 0x51010, 0x51020, 0x52000, 0x52008, 0x52030, 0x60000, 0x60008, 0x60010, 0x60100,
        0x70000, 0x70008, 0x70010, 0x70018, 0x70020, 0x70100, 0x80000, 0x80008, 0x80010, 0x80018, 0x80100, 0x80208, 0x80210,
        0x80218, 0x90000, 0x90008, 0x90010, 0x90018, 0xA0000, 0xA0008, 0xA0010, 0xA0018, 0xA0020, 0xA0028, 0xA0030, 0xA0038,
        0xB0000, 0xB0008, 0xB0010, 0xB0018, 0xB0100, 0xB0108, 0xB0110, 0xC0000, 0xC0008, 0xC0400, 0xD0000, 0xD0800, 0xE0000,
        0xE0010, 0xE0020, 0xE0028, 0xE0030, 0xE0038, 0xE0040, 0xE0048, 0xE0050, 0xE0400, 0xF0000, 0xF0008, 0xF0020, 0xF0100,
        0xF8000, 0xF8008, 0xF8010, 0x100000, 0x100010, 0x100018, 0x100020, 0x100028, 0x100048, 0x110000, 0x120000, 0x120008,
        0x120018, 0x400000, 0x400008, 0x401080, 0x402000, 0x402010, 0x403008, 0x403010, 0x403018, 0x403020],
    regRead State.reset o = 0)

/-- Accesses that the register port turns away (R352, R407–R409): bad parity, a page owner that does not match, byte enables that
cover no half, a block in lockdown, a halted block outside the FC_ page; each is answered with ERROR and data 0, a denied one
raises PAGE_DENIED, and a refused write changes nothing else but its journal entry. -/
def Obligations.PortRefusals : Prop :=
  ∀ (s : State) (a : BitVec 22) (q : PortReq),
    let off := a.toNat * 8
    let no (u : State) : State := u.rpAnswer 0 q.tag true
    let refused (u : State) (denied : Bool) : State := no (u.journalWrite (wlog off q) (regRead s off) true denied)
    let owner := s.ownerPasses off q.initiator q.world true
    let covers := beLo q.be || beHi q.be
    s.po.rpUp = true →
      (q.parityOk = false → exec (.registerWrite a q) s = .next (no s) ∧ exec (.registerRead a q) s = .next (no s)) ∧
      (q.parityOk = true → owner = false →
        exec (.registerWrite a q) s = .next (refused (s.pageDenied off q true) true) ∧
        exec (.registerRead a q) s = .next (no (s.pageDenied off q false))) ∧
      (q.parityOk = true → owner = true → covers = false →
        exec (.registerWrite a q) s = .next (refused s false) ∧ exec (.registerRead a q) s = .next (no s)) ∧
      (q.parityOk = true → owner = true → covers = true →
        (s.fc.lockdown = true → exec (.registerWrite a q) s = .next (refused s false)) ∧
        (s.fc.halted = true → off / 0x10000 ≠ 0x0E → exec (.registerWrite a q) s = .next (refused s false)) ∧
        (s.fc.lockdown = true → off / 0x10000 ≠ 0 → off / 0x10000 ≠ 0x0E → exec (.registerRead a q) s = .next (no s)))

/-- Plain registers (R8–R10, R407): a write of one that no other command names takes effect as its page says; registers that only
read, and offsets that hold none, ignore it; a read without side effect returns the register's word in the halves that it
covers. -/
def Obligations.PlainRegisters : Prop :=
  ∀ (s : State) (a : BitVec 22) (q : PortReq),
    let off := a.toNat * 8
    let d := q.wdata
    let writes (u : State) : Prop := PortDoes s (.registerWrite a q) off q u
    (q.be = 0xFF →
      (off = 0x20000 → writes (s.modFx (fun x => { x with sel := fld d 0 10 }))) ∧
      (off = 0x20018 →
        writes (s.modFx (fun x => { x with stage := { x.stage with ringBase := fld d 0 14, ringCount := fld d 16 15 } }))) ∧
      (off = 0x30000 → writes { s with rt := { s.rt with sel := fld d 0 14 } }) ∧
      (off = 0x30010 → writes { s with rt := { s.rt with hdr := fld d 9 48 } }) ∧
      (off = 0x40000 → writes (s.modSq (fun p => { p with ageUs := fld d 0 16 }))) ∧
      (off = 0x51000 → writes (s.modSt (fun t => { t with kmSel := fld d 0 12 }))) ∧
      (off = 0x52028 → writes (s.modSt (fun t => { t with ssStage := { t.ssStage with hi := d } }))) ∧
      (off = 0xA0018 → writes (s.modVt (fun v => { v with winSel := fld d 0 10 }))) ∧
      (off = 0xB0108 → writes (s.modEtch (fun e => { e with addr := fld d 0 14, autoInc := bit d 16 }))) ∧
      (off = 0xD0800 → writes { s with dm := { s.dm with done := s.dm.done &&& ~~~(loHalf d) } }) ∧
      (off = 0xE0010 → writes (s.modFc (fun c => { c with sel := fld d 0 12 }))) ∧
      (off = 0xF0010 → writes (s.modPr (fun p => { p with stage := { p.stage with start := fld d 6 51 } }))) ∧
      (off = 0x100020 → writes (s.modPw (fun p => { p with domSel := fld d 0 6 })))) ∧
    (off / 0x10000 = 0 ∨ off / 0x10000 = 0x06 ∨ off / 0x10000 = 0x09 ∨ 0x130000 ≤ off ∧ off < 0x400000 ∨ 0x1400000 ≤ off →
      writes s) ∧
    (off ≠ powerOff → regTake s off (beLo q.be) (beHi q.be) = s →
      PortReads s (.registerRead a q) off q (regRead s off) s)

/-- The region table's check of a request (R347, R348): one that no valid entry covers for its function and direction is not
issued and raises REGION_DENIED at its port's source; one that is covered is sent with its function's world and a TID of its own (R400), but no write leaves
after a block halt (R326). -/
def Obligations.FabricChecks : Prop :=
  ∀ (s : State) (a : Access) (addr len : Nat) (data : List Byte),
    let b := s.po.portB addr
    (s.allowed a.fn addr len a.write = false →
      s.issue1 a addr len data = (false, s.raiseFabric (secSource b) 0x12 a.fn addr a.write)) ∧
    (s.allowed a.fn addr len a.write = true → s.fc.halted = true → a.write = true → s.issue1 a addr len data = (true, s)) ∧
    (s.allowed a.fn addr len a.write = true → s.fc.halted = false ∨ a.write = false →
      ∃ t q, s.issue1 a addr len data = (true, t) ∧ t.po.txns = s.po.txns ++ [q] ∧ t.po.fabOut = q :: s.po.fabOut ∧
        q.who = a.who ∧ q.fn = a.fn ∧ q.world = decide ((s.fn a.fn).entry.world = 1) ∧ q.addr = addr ∧ q.len = len ∧
        q.write = a.write ∧ q.data = data ∧ q.portB = b ∧ (∀ r ∈ s.po.txns, q.tid.isSome = true → r.tid ≠ q.tid) ∧
        t.fx = s.fx ∧ t.fc = s.fc)

/-- Event records (R42, R43, R49–R52): a queue that is off, or whose type is off, takes no record, but for the types that are
always written; none is written in a squash, nor from reset-complete until the enable; a full queue counts the loss with its times; one with room gets the record at PROD, which moves on by one. -/
def Obligations.EventRecords : Prop :=
  ∀ (s : State) (f type about ring : Nat) (detail : List Byte),
    let e := (s.fn f).eq
    let t := s.event f type about ring detail
    (e.en = false ∨ s.fc.halted = true ∨ s.silent f = true ∨ (alwaysWritten type = false ∧ e.typeEn.getLsbD type = false) → t = s) ∧
    (e.en = true → s.fc.halted = false → s.silent f = false → (alwaysWritten type || e.typeEn.getLsbD type) = true →
      (e.full = true → t = s.modFn f (fun v => { v with eq := { e with
        lost := satAdd e.lost 1, since := satAdd e.since 1, firstLost := if e.since = 0 then s.po.tm else e.firstLost,
        lastLost := s.po.tm } })) ∧
      (e.full = false →
        (t.fn f).eq = { e with prod := e.prod + 1 } ∧
        (∀ g, g ≠ f → t.fn g = s.fn g) ∧
        (∀ v, v ≠ (s.fn f).entry.vecBase.toNat + e.vector.toNat → t.vec v = s.vec v) ∧
        (s.allowed f (e.base.toNat * 4096 + e.prod.toNat % queueSize e.size * 32) 32 true = true →
          ∃ q, t.po.txns = s.po.txns ++ [q] ∧ q.fn = f ∧
            q.addr = e.base.toNat * 4096 + e.prod.toNat % queueSize e.size * 32 ∧
            q.data = eventBytes type (phaseOf e.prod (queueSize e.size)) e.prod about ring s.po.tm detail)))
end

