-- ==== Sys2Proof/Laws/Tab.lean ====
section
/-! SUPPORT. Sparse tables: a read after a write, the rest untouched, and the canonical form kept by every operation; the
same for the addressed memories. -/

namespace Sys2Proof

variable {α : Type}

theorem Tab.get_erase (t : Tab α) (d : α) (k j : Nat) :
    (Tab.erase t k).get d j = if j = k then d else t.get d j := by
  induction t with
  | nil => simp [Tab.erase, Tab.get]
  | cons p r ih =>
    obtain ⟨i, v⟩ := p
    unfold Tab.erase
    split
    · rename_i h
      rw [ih]
      by_cases hj : j = k
      · simp [hj]
      · simp only [hj, if_false, Tab.get]
        rw [if_neg]
        omega
    · rename_i h
      simp only [Tab.get]
      by_cases hj : i = j
      · rw [if_pos hj, if_pos hj, if_neg]
        omega
      · rw [if_neg hj, if_neg hj, ih]

theorem Tab.get_insert (t : Tab α) (d v : α) (k j : Nat) :
    (Tab.insert t k v).get d j = if j = k then v else t.get d j := by
  induction t with
  | nil => simp [Tab.insert, Tab.get, eq_comm]
  | cons p r ih =>
    obtain ⟨i, u⟩ := p
    unfold Tab.insert
    split
    · simp only [Tab.get, eq_comm]
    · split
      · rename_i h
        subst h
        simp only [Tab.get]
        by_cases hj : i = j
        · simp [hj]
        · rw [if_neg hj, if_neg (Ne.symm hj), if_neg hj]
      · rename_i h
        simp only [Tab.get, ih]
        by_cases hj : i = j
        · rw [if_pos hj, if_neg, if_pos hj]
          omega
        · rw [if_neg hj, if_neg hj]

/-- What a table reads after a write: the value there, everything else as before. -/
theorem Tab.get_set [DecidableEq α] (t : Tab α) (d v : α) (k j : Nat) :
    (Tab.set t d k v).get d j = if j = k then v else t.get d j := by
  unfold Tab.set
  split
  · rename_i h
    rw [Tab.get_erase, h]
  · exact Tab.get_insert t d v k j

@[simp] theorem Tab.get_set_same [DecidableEq α] (t : Tab α) (d v : α) (k : Nat) : (Tab.set t d k v).get d k = v := by
  simp [Tab.get_set]

theorem Tab.get_set_ne [DecidableEq α] (t : Tab α) (d v : α) {k j : Nat} (h : j ≠ k) :
    (Tab.set t d k v).get d j = t.get d j := by
  simp [Tab.get_set, h]

@[simp] theorem Tab.get_modify_same [DecidableEq α] (t : Tab α) (d : α) (k : Nat) (f : α → α) :
    (Tab.modify t d k f).get d k = f (t.get d k) := by
  simp [Tab.modify]

theorem Tab.get_modify_ne [DecidableEq α] (t : Tab α) (d : α) (f : α → α) {k j : Nat} (h : j ≠ k) :
    (Tab.modify t d k f).get d j = t.get d j := by
  simp [Tab.modify, Tab.get_set_ne t d _ h]

theorem Tab.risesFrom_mono (t : Tab α) {lo lo' : Nat} (h : lo' ≤ lo) (ht : Tab.risesFrom lo t = true) :
    Tab.risesFrom lo' t = true := by
  cases t with
  | nil => rfl
  | cons p r =>
    obtain ⟨i, v⟩ := p
    simp only [Tab.risesFrom, Bool.and_eq_true, decide_eq_true_eq] at ht ⊢
    exact ⟨by omega, ht.2⟩

theorem Tab.risesFrom_erase (t : Tab α) (k lo : Nat) (ht : Tab.risesFrom lo t = true) :
    Tab.risesFrom lo (Tab.erase t k) = true := by
  induction t generalizing lo with
  | nil => rfl
  | cons p r ih =>
    obtain ⟨i, v⟩ := p
    simp only [Tab.risesFrom, Bool.and_eq_true, decide_eq_true_eq] at ht
    unfold Tab.erase
    split
    · exact Tab.risesFrom_mono _ (by omega) (ih _ ht.2)
    · simp only [Tab.risesFrom, Bool.and_eq_true, decide_eq_true_eq]
      exact ⟨ht.1, ih _ ht.2⟩

theorem Tab.risesFrom_insert (t : Tab α) (k lo : Nat) (v : α) (hk : lo ≤ k) (ht : Tab.risesFrom lo t = true) :
    Tab.risesFrom lo (Tab.insert t k v) = true := by
  induction t generalizing lo with
  | nil => simp [Tab.insert, Tab.risesFrom, hk]
  | cons p r ih =>
    obtain ⟨i, u⟩ := p
    simp only [Tab.risesFrom, Bool.and_eq_true, decide_eq_true_eq] at ht
    unfold Tab.insert
    split
    · simp only [Tab.risesFrom, Bool.and_eq_true, decide_eq_true_eq]
      exact ⟨hk, by omega, ht.2⟩
    · split
      · rename_i h
        subst h
        simp only [Tab.risesFrom, Bool.and_eq_true, decide_eq_true_eq]
        exact ⟨hk, ht.2⟩
      · simp only [Tab.risesFrom, Bool.and_eq_true, decide_eq_true_eq]
        exact ⟨ht.1, ih _ (by omega) ht.2⟩

theorem Tab.noDefault_erase [DecidableEq α] (d : Nat → α) (t : Tab α) (k : Nat) (ht : Tab.noDefault d t = true) :
    Tab.noDefault d (Tab.erase t k) = true := by
  induction t with
  | nil => rfl
  | cons p r ih =>
    obtain ⟨i, v⟩ := p
    simp only [Tab.noDefault, Bool.and_eq_true] at ht
    unfold Tab.erase
    split
    · exact ih ht.2
    · simp only [Tab.noDefault, Bool.and_eq_true]
      exact ⟨ht.1, ih ht.2⟩

theorem Tab.noDefault_insert [DecidableEq α] (d : Nat → α) (t : Tab α) (k : Nat) (v : α) (hv : v ≠ d k)
    (ht : Tab.noDefault d t = true) : Tab.noDefault d (Tab.insert t k v) = true := by
  induction t with
  | nil => simp [Tab.insert, Tab.noDefault, hv]
  | cons p r ih =>
    obtain ⟨i, u⟩ := p
    have hs := ht
    simp only [Tab.noDefault, Bool.and_eq_true] at ht
    unfold Tab.insert
    split
    · simp only [Tab.noDefault, Bool.and_eq_true, decide_eq_true_eq]
      exact ⟨hv, by simpa using ht.1, ht.2⟩
    · split
      · rename_i h
        subst h
        simp only [Tab.noDefault, Bool.and_eq_true, decide_eq_true_eq]
        exact ⟨hv, ht.2⟩
      · simp only [Tab.noDefault, Bool.and_eq_true]
        exact ⟨ht.1, ih ht.2⟩

/-- A write keeps the canonical form. -/
theorem Tab.wf_set [DecidableEq α] (d : α) (t : Tab α) (k : Nat) (v : α) (ht : Tab.wf (fun _ => d) t = true) :
    Tab.wf (fun _ => d) (Tab.set t d k v) = true := by
  simp only [Tab.wf, Bool.and_eq_true] at ht ⊢
  unfold Tab.set
  split
  · exact ⟨Tab.risesFrom_erase t k 0 ht.1, Tab.noDefault_erase _ t k ht.2⟩
  · rename_i h
    exact ⟨Tab.risesFrom_insert t k 0 v (by omega) ht.1, Tab.noDefault_insert _ t k v h ht.2⟩

/-- A change of one entry keeps the canonical form. -/
theorem Tab.wf_modify [DecidableEq α] (d : α) (t : Tab α) (k : Nat) (f : α → α) (ht : Tab.wf (fun _ => d) t = true) :
    Tab.wf (fun _ => d) (Tab.modify t d k f) = true :=
  Tab.wf_set d t k _ ht

end Sys2Proof

namespace Sys2Proof.Machine

/-! Memories -/

/-- One byte read after one byte written. -/
theorem Memory.read_write (m : Memory) (a b : Nat) (v : Byte) :
    (m.write a v).read b = if b = a then v else m.read b :=
  Tab.get_set m 0 v a b

theorem Memory.wf_write (m : Memory) (a : Nat) (v : Byte) (h : m.wf = true) : (m.write a v).wf = true :=
  Tab.wf_set 0 m a v h

/-- Writing bytes keeps the canonical form. -/
theorem Memory.wf_writeBytes (m : Memory) (a : Nat) (l : List Byte) (h : m.wf = true) : (m.writeBytes a l).wf = true := by
  induction l generalizing m a with
  | nil => exact h
  | cons b r ih => exact ih _ _ (Memory.wf_write m a b h)

/-- A byte outside the written range reads as before. -/
theorem Memory.read_writeBytes_outside (m : Memory) (a b : Nat) (l : List Byte) (h : b < a ∨ a + l.length ≤ b) :
    (m.writeBytes a l).read b = m.read b := by
  induction l generalizing m a with
  | nil => rfl
  | cons v r ih =>
    simp only [List.length_cons] at h
    have h1 : (m.write a v).read b = m.read b := by
      rw [Memory.read_write, if_neg]
      omega
    unfold Memory.writeBytes
    rw [ih _ _ (by omega), h1]

/-- A byte inside the written range reads as written. -/
theorem Memory.read_writeBytes_inside (m : Memory) (a i : Nat) (l : List Byte) (h : i < l.length) :
    (m.writeBytes a l).read (a + i) = l[i] := by
  induction l generalizing m a i with
  | nil => simp at h
  | cons v r ih =>
    unfold Memory.writeBytes
    cases i with
    | zero =>
      rw [Nat.add_zero, Memory.read_writeBytes_outside _ _ _ _ (by omega), Memory.read_write]
      simp
    | succ j =>
      have := ih (m.write a v) (a + 1) j (by simpa using h)
      simpa [Nat.add_assoc, Nat.add_comm 1 j] using this

end Sys2Proof.Machine
end

