-- ==== Sys2Proof/Laws/State.lean ====
section
/-! SUPPORT. The named updates of the state: which field each changes, and that it changes no other. No later proof unfolds
a record update. -/

namespace Sys2Proof.Machine

variable (s : State)

/-! `State.modFx` -/

@[simp] theorem State.modFx_fx (f : FnTable → FnTable) : (s.modFx f).fx = f s.fx := rfl
@[simp] theorem State.modFx_pending (f : FnTable → FnTable) : (s.modFx f).pending = s.pending := rfl
@[simp] theorem State.modFx_freeCount (f : FnTable → FnTable) : (s.modFx f).freeCount = s.freeCount := rfl
@[simp] theorem State.modFx_rt (f : FnTable → FnTable) : (s.modFx f).rt = s.rt := rfl
@[simp] theorem State.modFx_sq (f : FnTable → FnTable) : (s.modFx f).sq = s.sq := rfl
@[simp] theorem State.modFx_pf (f : FnTable → FnTable) : (s.modFx f).pf = s.pf := rfl
@[simp] theorem State.modFx_vecs (f : FnTable → FnTable) : (s.modFx f).vecs = s.vecs := rfl
@[simp] theorem State.modFx_units (f : FnTable → FnTable) : (s.modFx f).units = s.units := rfl
@[simp] theorem State.modFx_fc (f : FnTable → FnTable) : (s.modFx f).fc = s.fc := rfl
@[simp] theorem State.modFx_pr (f : FnTable → FnTable) : (s.modFx f).pr = s.pr := rfl
@[simp] theorem State.modFx_jn (f : FnTable → FnTable) : (s.modFx f).jn = s.jn := rfl
@[simp] theorem State.modFx_d0 (f : FnTable → FnTable) : (s.modFx f).d0 = s.d0 := rfl
@[simp] theorem State.modFx_ts (f : FnTable → FnTable) : (s.modFx f).ts = s.ts := rfl
@[simp] theorem State.modFx_pw (f : FnTable → FnTable) : (s.modFx f).pw = s.pw := rfl
@[simp] theorem State.modFx_po (f : FnTable → FnTable) : (s.modFx f).po = s.po := rfl
@[simp] theorem State.modFx_cl (f : FnTable → FnTable) : (s.modFx f).cl = s.cl := rfl
@[simp] theorem State.modFx_dg (f : FnTable → FnTable) : (s.modFx f).dg = s.dg := rfl
@[simp] theorem State.modFx_pk (f : FnTable → FnTable) : (s.modFx f).pk = s.pk := rfl
@[simp] theorem State.modFx_sp (f : FnTable → FnTable) : (s.modFx f).sp = s.sp := rfl
@[simp] theorem State.modFx_st (f : FnTable → FnTable) : (s.modFx f).st = s.st := rfl
@[simp] theorem State.modFx_vt (f : FnTable → FnTable) : (s.modFx f).vt = s.vt := rfl
@[simp] theorem State.modFx_bu (f : FnTable → FnTable) : (s.modFx f).bu = s.bu := rfl
@[simp] theorem State.modFx_mb (f : FnTable → FnTable) : (s.modFx f).mb = s.mb := rfl
@[simp] theorem State.modFx_dm (f : FnTable → FnTable) : (s.modFx f).dm = s.dm := rfl

/-! `State.modPf` -/

@[simp] theorem State.modPf_pf (f : Profile → Profile) : (s.modPf f).pf = f s.pf := rfl
@[simp] theorem State.modPf_pending (f : Profile → Profile) : (s.modPf f).pending = s.pending := rfl
@[simp] theorem State.modPf_freeCount (f : Profile → Profile) : (s.modPf f).freeCount = s.freeCount := rfl
@[simp] theorem State.modPf_fx (f : Profile → Profile) : (s.modPf f).fx = s.fx := rfl
@[simp] theorem State.modPf_rt (f : Profile → Profile) : (s.modPf f).rt = s.rt := rfl
@[simp] theorem State.modPf_sq (f : Profile → Profile) : (s.modPf f).sq = s.sq := rfl
@[simp] theorem State.modPf_vecs (f : Profile → Profile) : (s.modPf f).vecs = s.vecs := rfl
@[simp] theorem State.modPf_units (f : Profile → Profile) : (s.modPf f).units = s.units := rfl
@[simp] theorem State.modPf_fc (f : Profile → Profile) : (s.modPf f).fc = s.fc := rfl
@[simp] theorem State.modPf_pr (f : Profile → Profile) : (s.modPf f).pr = s.pr := rfl
@[simp] theorem State.modPf_jn (f : Profile → Profile) : (s.modPf f).jn = s.jn := rfl
@[simp] theorem State.modPf_d0 (f : Profile → Profile) : (s.modPf f).d0 = s.d0 := rfl
@[simp] theorem State.modPf_ts (f : Profile → Profile) : (s.modPf f).ts = s.ts := rfl
@[simp] theorem State.modPf_pw (f : Profile → Profile) : (s.modPf f).pw = s.pw := rfl
@[simp] theorem State.modPf_po (f : Profile → Profile) : (s.modPf f).po = s.po := rfl
@[simp] theorem State.modPf_cl (f : Profile → Profile) : (s.modPf f).cl = s.cl := rfl
@[simp] theorem State.modPf_dg (f : Profile → Profile) : (s.modPf f).dg = s.dg := rfl
@[simp] theorem State.modPf_pk (f : Profile → Profile) : (s.modPf f).pk = s.pk := rfl
@[simp] theorem State.modPf_sp (f : Profile → Profile) : (s.modPf f).sp = s.sp := rfl
@[simp] theorem State.modPf_st (f : Profile → Profile) : (s.modPf f).st = s.st := rfl
@[simp] theorem State.modPf_vt (f : Profile → Profile) : (s.modPf f).vt = s.vt := rfl
@[simp] theorem State.modPf_bu (f : Profile → Profile) : (s.modPf f).bu = s.bu := rfl
@[simp] theorem State.modPf_mb (f : Profile → Profile) : (s.modPf f).mb = s.mb := rfl
@[simp] theorem State.modPf_dm (f : Profile → Profile) : (s.modPf f).dm = s.dm := rfl

/-! `State.modSq` -/

@[simp] theorem State.modSq_sq (f : Seq → Seq) : (s.modSq f).sq = f s.sq := rfl
@[simp] theorem State.modSq_pending (f : Seq → Seq) : (s.modSq f).pending = s.pending := rfl
@[simp] theorem State.modSq_freeCount (f : Seq → Seq) : (s.modSq f).freeCount = s.freeCount := rfl
@[simp] theorem State.modSq_fx (f : Seq → Seq) : (s.modSq f).fx = s.fx := rfl
@[simp] theorem State.modSq_rt (f : Seq → Seq) : (s.modSq f).rt = s.rt := rfl
@[simp] theorem State.modSq_pf (f : Seq → Seq) : (s.modSq f).pf = s.pf := rfl
@[simp] theorem State.modSq_vecs (f : Seq → Seq) : (s.modSq f).vecs = s.vecs := rfl
@[simp] theorem State.modSq_units (f : Seq → Seq) : (s.modSq f).units = s.units := rfl
@[simp] theorem State.modSq_fc (f : Seq → Seq) : (s.modSq f).fc = s.fc := rfl
@[simp] theorem State.modSq_pr (f : Seq → Seq) : (s.modSq f).pr = s.pr := rfl
@[simp] theorem State.modSq_jn (f : Seq → Seq) : (s.modSq f).jn = s.jn := rfl
@[simp] theorem State.modSq_d0 (f : Seq → Seq) : (s.modSq f).d0 = s.d0 := rfl
@[simp] theorem State.modSq_ts (f : Seq → Seq) : (s.modSq f).ts = s.ts := rfl
@[simp] theorem State.modSq_pw (f : Seq → Seq) : (s.modSq f).pw = s.pw := rfl
@[simp] theorem State.modSq_po (f : Seq → Seq) : (s.modSq f).po = s.po := rfl
@[simp] theorem State.modSq_cl (f : Seq → Seq) : (s.modSq f).cl = s.cl := rfl
@[simp] theorem State.modSq_dg (f : Seq → Seq) : (s.modSq f).dg = s.dg := rfl
@[simp] theorem State.modSq_pk (f : Seq → Seq) : (s.modSq f).pk = s.pk := rfl
@[simp] theorem State.modSq_sp (f : Seq → Seq) : (s.modSq f).sp = s.sp := rfl
@[simp] theorem State.modSq_st (f : Seq → Seq) : (s.modSq f).st = s.st := rfl
@[simp] theorem State.modSq_vt (f : Seq → Seq) : (s.modSq f).vt = s.vt := rfl
@[simp] theorem State.modSq_bu (f : Seq → Seq) : (s.modSq f).bu = s.bu := rfl
@[simp] theorem State.modSq_mb (f : Seq → Seq) : (s.modSq f).mb = s.mb := rfl
@[simp] theorem State.modSq_dm (f : Seq → Seq) : (s.modSq f).dm = s.dm := rfl

/-! `State.modFc` -/

@[simp] theorem State.modFc_fc (f : Collector → Collector) : (s.modFc f).fc = f s.fc := rfl
@[simp] theorem State.modFc_pending (f : Collector → Collector) : (s.modFc f).pending = s.pending := rfl
@[simp] theorem State.modFc_freeCount (f : Collector → Collector) : (s.modFc f).freeCount = s.freeCount := rfl
@[simp] theorem State.modFc_fx (f : Collector → Collector) : (s.modFc f).fx = s.fx := rfl
@[simp] theorem State.modFc_rt (f : Collector → Collector) : (s.modFc f).rt = s.rt := rfl
@[simp] theorem State.modFc_sq (f : Collector → Collector) : (s.modFc f).sq = s.sq := rfl
@[simp] theorem State.modFc_pf (f : Collector → Collector) : (s.modFc f).pf = s.pf := rfl
@[simp] theorem State.modFc_vecs (f : Collector → Collector) : (s.modFc f).vecs = s.vecs := rfl
@[simp] theorem State.modFc_units (f : Collector → Collector) : (s.modFc f).units = s.units := rfl
@[simp] theorem State.modFc_pr (f : Collector → Collector) : (s.modFc f).pr = s.pr := rfl
@[simp] theorem State.modFc_jn (f : Collector → Collector) : (s.modFc f).jn = s.jn := rfl
@[simp] theorem State.modFc_d0 (f : Collector → Collector) : (s.modFc f).d0 = s.d0 := rfl
@[simp] theorem State.modFc_ts (f : Collector → Collector) : (s.modFc f).ts = s.ts := rfl
@[simp] theorem State.modFc_pw (f : Collector → Collector) : (s.modFc f).pw = s.pw := rfl
@[simp] theorem State.modFc_po (f : Collector → Collector) : (s.modFc f).po = s.po := rfl
@[simp] theorem State.modFc_cl (f : Collector → Collector) : (s.modFc f).cl = s.cl := rfl
@[simp] theorem State.modFc_dg (f : Collector → Collector) : (s.modFc f).dg = s.dg := rfl
@[simp] theorem State.modFc_pk (f : Collector → Collector) : (s.modFc f).pk = s.pk := rfl
@[simp] theorem State.modFc_sp (f : Collector → Collector) : (s.modFc f).sp = s.sp := rfl
@[simp] theorem State.modFc_st (f : Collector → Collector) : (s.modFc f).st = s.st := rfl
@[simp] theorem State.modFc_vt (f : Collector → Collector) : (s.modFc f).vt = s.vt := rfl
@[simp] theorem State.modFc_bu (f : Collector → Collector) : (s.modFc f).bu = s.bu := rfl
@[simp] theorem State.modFc_mb (f : Collector → Collector) : (s.modFc f).mb = s.mb := rfl
@[simp] theorem State.modFc_dm (f : Collector → Collector) : (s.modFc f).dm = s.dm := rfl

/-! `State.modPr` -/

@[simp] theorem State.modPr_pr (f : Prot → Prot) : (s.modPr f).pr = f s.pr := rfl
@[simp] theorem State.modPr_pending (f : Prot → Prot) : (s.modPr f).pending = s.pending := rfl
@[simp] theorem State.modPr_freeCount (f : Prot → Prot) : (s.modPr f).freeCount = s.freeCount := rfl
@[simp] theorem State.modPr_fx (f : Prot → Prot) : (s.modPr f).fx = s.fx := rfl
@[simp] theorem State.modPr_rt (f : Prot → Prot) : (s.modPr f).rt = s.rt := rfl
@[simp] theorem State.modPr_sq (f : Prot → Prot) : (s.modPr f).sq = s.sq := rfl
@[simp] theorem State.modPr_pf (f : Prot → Prot) : (s.modPr f).pf = s.pf := rfl
@[simp] theorem State.modPr_vecs (f : Prot → Prot) : (s.modPr f).vecs = s.vecs := rfl
@[simp] theorem State.modPr_units (f : Prot → Prot) : (s.modPr f).units = s.units := rfl
@[simp] theorem State.modPr_fc (f : Prot → Prot) : (s.modPr f).fc = s.fc := rfl
@[simp] theorem State.modPr_jn (f : Prot → Prot) : (s.modPr f).jn = s.jn := rfl
@[simp] theorem State.modPr_d0 (f : Prot → Prot) : (s.modPr f).d0 = s.d0 := rfl
@[simp] theorem State.modPr_ts (f : Prot → Prot) : (s.modPr f).ts = s.ts := rfl
@[simp] theorem State.modPr_pw (f : Prot → Prot) : (s.modPr f).pw = s.pw := rfl
@[simp] theorem State.modPr_po (f : Prot → Prot) : (s.modPr f).po = s.po := rfl
@[simp] theorem State.modPr_cl (f : Prot → Prot) : (s.modPr f).cl = s.cl := rfl
@[simp] theorem State.modPr_dg (f : Prot → Prot) : (s.modPr f).dg = s.dg := rfl
@[simp] theorem State.modPr_pk (f : Prot → Prot) : (s.modPr f).pk = s.pk := rfl
@[simp] theorem State.modPr_sp (f : Prot → Prot) : (s.modPr f).sp = s.sp := rfl
@[simp] theorem State.modPr_st (f : Prot → Prot) : (s.modPr f).st = s.st := rfl
@[simp] theorem State.modPr_vt (f : Prot → Prot) : (s.modPr f).vt = s.vt := rfl
@[simp] theorem State.modPr_bu (f : Prot → Prot) : (s.modPr f).bu = s.bu := rfl
@[simp] theorem State.modPr_mb (f : Prot → Prot) : (s.modPr f).mb = s.mb := rfl
@[simp] theorem State.modPr_dm (f : Prot → Prot) : (s.modPr f).dm = s.dm := rfl

/-! `State.modJn` -/

@[simp] theorem State.modJn_jn (f : Journal → Journal) : (s.modJn f).jn = f s.jn := rfl
@[simp] theorem State.modJn_pending (f : Journal → Journal) : (s.modJn f).pending = s.pending := rfl
@[simp] theorem State.modJn_freeCount (f : Journal → Journal) : (s.modJn f).freeCount = s.freeCount := rfl
@[simp] theorem State.modJn_fx (f : Journal → Journal) : (s.modJn f).fx = s.fx := rfl
@[simp] theorem State.modJn_rt (f : Journal → Journal) : (s.modJn f).rt = s.rt := rfl
@[simp] theorem State.modJn_sq (f : Journal → Journal) : (s.modJn f).sq = s.sq := rfl
@[simp] theorem State.modJn_pf (f : Journal → Journal) : (s.modJn f).pf = s.pf := rfl
@[simp] theorem State.modJn_vecs (f : Journal → Journal) : (s.modJn f).vecs = s.vecs := rfl
@[simp] theorem State.modJn_units (f : Journal → Journal) : (s.modJn f).units = s.units := rfl
@[simp] theorem State.modJn_fc (f : Journal → Journal) : (s.modJn f).fc = s.fc := rfl
@[simp] theorem State.modJn_pr (f : Journal → Journal) : (s.modJn f).pr = s.pr := rfl
@[simp] theorem State.modJn_d0 (f : Journal → Journal) : (s.modJn f).d0 = s.d0 := rfl
@[simp] theorem State.modJn_ts (f : Journal → Journal) : (s.modJn f).ts = s.ts := rfl
@[simp] theorem State.modJn_pw (f : Journal → Journal) : (s.modJn f).pw = s.pw := rfl
@[simp] theorem State.modJn_po (f : Journal → Journal) : (s.modJn f).po = s.po := rfl
@[simp] theorem State.modJn_cl (f : Journal → Journal) : (s.modJn f).cl = s.cl := rfl
@[simp] theorem State.modJn_dg (f : Journal → Journal) : (s.modJn f).dg = s.dg := rfl
@[simp] theorem State.modJn_pk (f : Journal → Journal) : (s.modJn f).pk = s.pk := rfl
@[simp] theorem State.modJn_sp (f : Journal → Journal) : (s.modJn f).sp = s.sp := rfl
@[simp] theorem State.modJn_st (f : Journal → Journal) : (s.modJn f).st = s.st := rfl
@[simp] theorem State.modJn_vt (f : Journal → Journal) : (s.modJn f).vt = s.vt := rfl
@[simp] theorem State.modJn_bu (f : Journal → Journal) : (s.modJn f).bu = s.bu := rfl
@[simp] theorem State.modJn_mb (f : Journal → Journal) : (s.modJn f).mb = s.mb := rfl
@[simp] theorem State.modJn_dm (f : Journal → Journal) : (s.modJn f).dm = s.dm := rfl

/-! `State.modPw` -/

@[simp] theorem State.modPw_pw (f : Power → Power) : (s.modPw f).pw = f s.pw := rfl
@[simp] theorem State.modPw_pending (f : Power → Power) : (s.modPw f).pending = s.pending := rfl
@[simp] theorem State.modPw_freeCount (f : Power → Power) : (s.modPw f).freeCount = s.freeCount := rfl
@[simp] theorem State.modPw_fx (f : Power → Power) : (s.modPw f).fx = s.fx := rfl
@[simp] theorem State.modPw_rt (f : Power → Power) : (s.modPw f).rt = s.rt := rfl
@[simp] theorem State.modPw_sq (f : Power → Power) : (s.modPw f).sq = s.sq := rfl
@[simp] theorem State.modPw_pf (f : Power → Power) : (s.modPw f).pf = s.pf := rfl
@[simp] theorem State.modPw_vecs (f : Power → Power) : (s.modPw f).vecs = s.vecs := rfl
@[simp] theorem State.modPw_units (f : Power → Power) : (s.modPw f).units = s.units := rfl
@[simp] theorem State.modPw_fc (f : Power → Power) : (s.modPw f).fc = s.fc := rfl
@[simp] theorem State.modPw_pr (f : Power → Power) : (s.modPw f).pr = s.pr := rfl
@[simp] theorem State.modPw_jn (f : Power → Power) : (s.modPw f).jn = s.jn := rfl
@[simp] theorem State.modPw_d0 (f : Power → Power) : (s.modPw f).d0 = s.d0 := rfl
@[simp] theorem State.modPw_ts (f : Power → Power) : (s.modPw f).ts = s.ts := rfl
@[simp] theorem State.modPw_po (f : Power → Power) : (s.modPw f).po = s.po := rfl
@[simp] theorem State.modPw_cl (f : Power → Power) : (s.modPw f).cl = s.cl := rfl
@[simp] theorem State.modPw_dg (f : Power → Power) : (s.modPw f).dg = s.dg := rfl
@[simp] theorem State.modPw_pk (f : Power → Power) : (s.modPw f).pk = s.pk := rfl
@[simp] theorem State.modPw_sp (f : Power → Power) : (s.modPw f).sp = s.sp := rfl
@[simp] theorem State.modPw_st (f : Power → Power) : (s.modPw f).st = s.st := rfl
@[simp] theorem State.modPw_vt (f : Power → Power) : (s.modPw f).vt = s.vt := rfl
@[simp] theorem State.modPw_bu (f : Power → Power) : (s.modPw f).bu = s.bu := rfl
@[simp] theorem State.modPw_mb (f : Power → Power) : (s.modPw f).mb = s.mb := rfl
@[simp] theorem State.modPw_dm (f : Power → Power) : (s.modPw f).dm = s.dm := rfl

/-! `State.modDg` -/

@[simp] theorem State.modDg_dg (f : DigestSt → DigestSt) : (s.modDg f).dg = f s.dg := rfl
@[simp] theorem State.modDg_pending (f : DigestSt → DigestSt) : (s.modDg f).pending = s.pending := rfl
@[simp] theorem State.modDg_freeCount (f : DigestSt → DigestSt) : (s.modDg f).freeCount = s.freeCount := rfl
@[simp] theorem State.modDg_fx (f : DigestSt → DigestSt) : (s.modDg f).fx = s.fx := rfl
@[simp] theorem State.modDg_rt (f : DigestSt → DigestSt) : (s.modDg f).rt = s.rt := rfl
@[simp] theorem State.modDg_sq (f : DigestSt → DigestSt) : (s.modDg f).sq = s.sq := rfl
@[simp] theorem State.modDg_pf (f : DigestSt → DigestSt) : (s.modDg f).pf = s.pf := rfl
@[simp] theorem State.modDg_vecs (f : DigestSt → DigestSt) : (s.modDg f).vecs = s.vecs := rfl
@[simp] theorem State.modDg_units (f : DigestSt → DigestSt) : (s.modDg f).units = s.units := rfl
@[simp] theorem State.modDg_fc (f : DigestSt → DigestSt) : (s.modDg f).fc = s.fc := rfl
@[simp] theorem State.modDg_pr (f : DigestSt → DigestSt) : (s.modDg f).pr = s.pr := rfl
@[simp] theorem State.modDg_jn (f : DigestSt → DigestSt) : (s.modDg f).jn = s.jn := rfl
@[simp] theorem State.modDg_d0 (f : DigestSt → DigestSt) : (s.modDg f).d0 = s.d0 := rfl
@[simp] theorem State.modDg_ts (f : DigestSt → DigestSt) : (s.modDg f).ts = s.ts := rfl
@[simp] theorem State.modDg_pw (f : DigestSt → DigestSt) : (s.modDg f).pw = s.pw := rfl
@[simp] theorem State.modDg_po (f : DigestSt → DigestSt) : (s.modDg f).po = s.po := rfl
@[simp] theorem State.modDg_cl (f : DigestSt → DigestSt) : (s.modDg f).cl = s.cl := rfl
@[simp] theorem State.modDg_pk (f : DigestSt → DigestSt) : (s.modDg f).pk = s.pk := rfl
@[simp] theorem State.modDg_sp (f : DigestSt → DigestSt) : (s.modDg f).sp = s.sp := rfl
@[simp] theorem State.modDg_st (f : DigestSt → DigestSt) : (s.modDg f).st = s.st := rfl
@[simp] theorem State.modDg_vt (f : DigestSt → DigestSt) : (s.modDg f).vt = s.vt := rfl
@[simp] theorem State.modDg_bu (f : DigestSt → DigestSt) : (s.modDg f).bu = s.bu := rfl
@[simp] theorem State.modDg_mb (f : DigestSt → DigestSt) : (s.modDg f).mb = s.mb := rfl
@[simp] theorem State.modDg_dm (f : DigestSt → DigestSt) : (s.modDg f).dm = s.dm := rfl

/-! `State.modRng` -/

@[simp] theorem State.modRng_pk (f : Rng → Rng) : (s.modRng f).pk = { s.pk with rng := f s.pk.rng } := rfl
@[simp] theorem State.modRng_pending (f : Rng → Rng) : (s.modRng f).pending = s.pending := rfl
@[simp] theorem State.modRng_freeCount (f : Rng → Rng) : (s.modRng f).freeCount = s.freeCount := rfl
@[simp] theorem State.modRng_fx (f : Rng → Rng) : (s.modRng f).fx = s.fx := rfl
@[simp] theorem State.modRng_rt (f : Rng → Rng) : (s.modRng f).rt = s.rt := rfl
@[simp] theorem State.modRng_sq (f : Rng → Rng) : (s.modRng f).sq = s.sq := rfl
@[simp] theorem State.modRng_pf (f : Rng → Rng) : (s.modRng f).pf = s.pf := rfl
@[simp] theorem State.modRng_vecs (f : Rng → Rng) : (s.modRng f).vecs = s.vecs := rfl
@[simp] theorem State.modRng_units (f : Rng → Rng) : (s.modRng f).units = s.units := rfl
@[simp] theorem State.modRng_fc (f : Rng → Rng) : (s.modRng f).fc = s.fc := rfl
@[simp] theorem State.modRng_pr (f : Rng → Rng) : (s.modRng f).pr = s.pr := rfl
@[simp] theorem State.modRng_jn (f : Rng → Rng) : (s.modRng f).jn = s.jn := rfl
@[simp] theorem State.modRng_d0 (f : Rng → Rng) : (s.modRng f).d0 = s.d0 := rfl
@[simp] theorem State.modRng_ts (f : Rng → Rng) : (s.modRng f).ts = s.ts := rfl
@[simp] theorem State.modRng_pw (f : Rng → Rng) : (s.modRng f).pw = s.pw := rfl
@[simp] theorem State.modRng_po (f : Rng → Rng) : (s.modRng f).po = s.po := rfl
@[simp] theorem State.modRng_cl (f : Rng → Rng) : (s.modRng f).cl = s.cl := rfl
@[simp] theorem State.modRng_dg (f : Rng → Rng) : (s.modRng f).dg = s.dg := rfl
@[simp] theorem State.modRng_sp (f : Rng → Rng) : (s.modRng f).sp = s.sp := rfl
@[simp] theorem State.modRng_st (f : Rng → Rng) : (s.modRng f).st = s.st := rfl
@[simp] theorem State.modRng_vt (f : Rng → Rng) : (s.modRng f).vt = s.vt := rfl
@[simp] theorem State.modRng_bu (f : Rng → Rng) : (s.modRng f).bu = s.bu := rfl
@[simp] theorem State.modRng_mb (f : Rng → Rng) : (s.modRng f).mb = s.mb := rfl
@[simp] theorem State.modRng_dm (f : Rng → Rng) : (s.modRng f).dm = s.dm := rfl

/-! `State.modSt` -/

@[simp] theorem State.modSt_st (f : StreamSt → StreamSt) : (s.modSt f).st = f s.st := rfl
@[simp] theorem State.modSt_pending (f : StreamSt → StreamSt) : (s.modSt f).pending = s.pending := rfl
@[simp] theorem State.modSt_freeCount (f : StreamSt → StreamSt) : (s.modSt f).freeCount = s.freeCount := rfl
@[simp] theorem State.modSt_fx (f : StreamSt → StreamSt) : (s.modSt f).fx = s.fx := rfl
@[simp] theorem State.modSt_rt (f : StreamSt → StreamSt) : (s.modSt f).rt = s.rt := rfl
@[simp] theorem State.modSt_sq (f : StreamSt → StreamSt) : (s.modSt f).sq = s.sq := rfl
@[simp] theorem State.modSt_pf (f : StreamSt → StreamSt) : (s.modSt f).pf = s.pf := rfl
@[simp] theorem State.modSt_vecs (f : StreamSt → StreamSt) : (s.modSt f).vecs = s.vecs := rfl
@[simp] theorem State.modSt_units (f : StreamSt → StreamSt) : (s.modSt f).units = s.units := rfl
@[simp] theorem State.modSt_fc (f : StreamSt → StreamSt) : (s.modSt f).fc = s.fc := rfl
@[simp] theorem State.modSt_pr (f : StreamSt → StreamSt) : (s.modSt f).pr = s.pr := rfl
@[simp] theorem State.modSt_jn (f : StreamSt → StreamSt) : (s.modSt f).jn = s.jn := rfl
@[simp] theorem State.modSt_d0 (f : StreamSt → StreamSt) : (s.modSt f).d0 = s.d0 := rfl
@[simp] theorem State.modSt_ts (f : StreamSt → StreamSt) : (s.modSt f).ts = s.ts := rfl
@[simp] theorem State.modSt_pw (f : StreamSt → StreamSt) : (s.modSt f).pw = s.pw := rfl
@[simp] theorem State.modSt_po (f : StreamSt → StreamSt) : (s.modSt f).po = s.po := rfl
@[simp] theorem State.modSt_cl (f : StreamSt → StreamSt) : (s.modSt f).cl = s.cl := rfl
@[simp] theorem State.modSt_dg (f : StreamSt → StreamSt) : (s.modSt f).dg = s.dg := rfl
@[simp] theorem State.modSt_pk (f : StreamSt → StreamSt) : (s.modSt f).pk = s.pk := rfl
@[simp] theorem State.modSt_sp (f : StreamSt → StreamSt) : (s.modSt f).sp = s.sp := rfl
@[simp] theorem State.modSt_vt (f : StreamSt → StreamSt) : (s.modSt f).vt = s.vt := rfl
@[simp] theorem State.modSt_bu (f : StreamSt → StreamSt) : (s.modSt f).bu = s.bu := rfl
@[simp] theorem State.modSt_mb (f : StreamSt → StreamSt) : (s.modSt f).mb = s.mb := rfl
@[simp] theorem State.modSt_dm (f : StreamSt → StreamSt) : (s.modSt f).dm = s.dm := rfl

/-! `State.modVt` -/

@[simp] theorem State.modVt_vt (f : VaultSt → VaultSt) : (s.modVt f).vt = f s.vt := rfl
@[simp] theorem State.modVt_pending (f : VaultSt → VaultSt) : (s.modVt f).pending = s.pending := rfl
@[simp] theorem State.modVt_freeCount (f : VaultSt → VaultSt) : (s.modVt f).freeCount = s.freeCount := rfl
@[simp] theorem State.modVt_fx (f : VaultSt → VaultSt) : (s.modVt f).fx = s.fx := rfl
@[simp] theorem State.modVt_rt (f : VaultSt → VaultSt) : (s.modVt f).rt = s.rt := rfl
@[simp] theorem State.modVt_sq (f : VaultSt → VaultSt) : (s.modVt f).sq = s.sq := rfl
@[simp] theorem State.modVt_pf (f : VaultSt → VaultSt) : (s.modVt f).pf = s.pf := rfl
@[simp] theorem State.modVt_vecs (f : VaultSt → VaultSt) : (s.modVt f).vecs = s.vecs := rfl
@[simp] theorem State.modVt_units (f : VaultSt → VaultSt) : (s.modVt f).units = s.units := rfl
@[simp] theorem State.modVt_fc (f : VaultSt → VaultSt) : (s.modVt f).fc = s.fc := rfl
@[simp] theorem State.modVt_pr (f : VaultSt → VaultSt) : (s.modVt f).pr = s.pr := rfl
@[simp] theorem State.modVt_jn (f : VaultSt → VaultSt) : (s.modVt f).jn = s.jn := rfl
@[simp] theorem State.modVt_d0 (f : VaultSt → VaultSt) : (s.modVt f).d0 = s.d0 := rfl
@[simp] theorem State.modVt_ts (f : VaultSt → VaultSt) : (s.modVt f).ts = s.ts := rfl
@[simp] theorem State.modVt_pw (f : VaultSt → VaultSt) : (s.modVt f).pw = s.pw := rfl
@[simp] theorem State.modVt_po (f : VaultSt → VaultSt) : (s.modVt f).po = s.po := rfl
@[simp] theorem State.modVt_cl (f : VaultSt → VaultSt) : (s.modVt f).cl = s.cl := rfl
@[simp] theorem State.modVt_dg (f : VaultSt → VaultSt) : (s.modVt f).dg = s.dg := rfl
@[simp] theorem State.modVt_pk (f : VaultSt → VaultSt) : (s.modVt f).pk = s.pk := rfl
@[simp] theorem State.modVt_sp (f : VaultSt → VaultSt) : (s.modVt f).sp = s.sp := rfl
@[simp] theorem State.modVt_st (f : VaultSt → VaultSt) : (s.modVt f).st = s.st := rfl
@[simp] theorem State.modVt_bu (f : VaultSt → VaultSt) : (s.modVt f).bu = s.bu := rfl
@[simp] theorem State.modVt_mb (f : VaultSt → VaultSt) : (s.modVt f).mb = s.mb := rfl
@[simp] theorem State.modVt_dm (f : VaultSt → VaultSt) : (s.modVt f).dm = s.dm := rfl

/-! `State.modBu` -/

@[simp] theorem State.modBu_bu (f : Burin → Burin) : (s.modBu f).bu = f s.bu := rfl
@[simp] theorem State.modBu_pending (f : Burin → Burin) : (s.modBu f).pending = s.pending := rfl
@[simp] theorem State.modBu_freeCount (f : Burin → Burin) : (s.modBu f).freeCount = s.freeCount := rfl
@[simp] theorem State.modBu_fx (f : Burin → Burin) : (s.modBu f).fx = s.fx := rfl
@[simp] theorem State.modBu_rt (f : Burin → Burin) : (s.modBu f).rt = s.rt := rfl
@[simp] theorem State.modBu_sq (f : Burin → Burin) : (s.modBu f).sq = s.sq := rfl
@[simp] theorem State.modBu_pf (f : Burin → Burin) : (s.modBu f).pf = s.pf := rfl
@[simp] theorem State.modBu_vecs (f : Burin → Burin) : (s.modBu f).vecs = s.vecs := rfl
@[simp] theorem State.modBu_units (f : Burin → Burin) : (s.modBu f).units = s.units := rfl
@[simp] theorem State.modBu_fc (f : Burin → Burin) : (s.modBu f).fc = s.fc := rfl
@[simp] theorem State.modBu_pr (f : Burin → Burin) : (s.modBu f).pr = s.pr := rfl
@[simp] theorem State.modBu_jn (f : Burin → Burin) : (s.modBu f).jn = s.jn := rfl
@[simp] theorem State.modBu_d0 (f : Burin → Burin) : (s.modBu f).d0 = s.d0 := rfl
@[simp] theorem State.modBu_ts (f : Burin → Burin) : (s.modBu f).ts = s.ts := rfl
@[simp] theorem State.modBu_pw (f : Burin → Burin) : (s.modBu f).pw = s.pw := rfl
@[simp] theorem State.modBu_po (f : Burin → Burin) : (s.modBu f).po = s.po := rfl
@[simp] theorem State.modBu_cl (f : Burin → Burin) : (s.modBu f).cl = s.cl := rfl
@[simp] theorem State.modBu_dg (f : Burin → Burin) : (s.modBu f).dg = s.dg := rfl
@[simp] theorem State.modBu_pk (f : Burin → Burin) : (s.modBu f).pk = s.pk := rfl
@[simp] theorem State.modBu_sp (f : Burin → Burin) : (s.modBu f).sp = s.sp := rfl
@[simp] theorem State.modBu_st (f : Burin → Burin) : (s.modBu f).st = s.st := rfl
@[simp] theorem State.modBu_vt (f : Burin → Burin) : (s.modBu f).vt = s.vt := rfl
@[simp] theorem State.modBu_mb (f : Burin → Burin) : (s.modBu f).mb = s.mb := rfl
@[simp] theorem State.modBu_dm (f : Burin → Burin) : (s.modBu f).dm = s.dm := rfl

/-! `State.modMb` -/

@[simp] theorem State.modMb_mb (f : Mailboxes → Mailboxes) : (s.modMb f).mb = f s.mb := rfl
@[simp] theorem State.modMb_pending (f : Mailboxes → Mailboxes) : (s.modMb f).pending = s.pending := rfl
@[simp] theorem State.modMb_freeCount (f : Mailboxes → Mailboxes) : (s.modMb f).freeCount = s.freeCount := rfl
@[simp] theorem State.modMb_fx (f : Mailboxes → Mailboxes) : (s.modMb f).fx = s.fx := rfl
@[simp] theorem State.modMb_rt (f : Mailboxes → Mailboxes) : (s.modMb f).rt = s.rt := rfl
@[simp] theorem State.modMb_sq (f : Mailboxes → Mailboxes) : (s.modMb f).sq = s.sq := rfl
@[simp] theorem State.modMb_pf (f : Mailboxes → Mailboxes) : (s.modMb f).pf = s.pf := rfl
@[simp] theorem State.modMb_vecs (f : Mailboxes → Mailboxes) : (s.modMb f).vecs = s.vecs := rfl
@[simp] theorem State.modMb_units (f : Mailboxes → Mailboxes) : (s.modMb f).units = s.units := rfl
@[simp] theorem State.modMb_fc (f : Mailboxes → Mailboxes) : (s.modMb f).fc = s.fc := rfl
@[simp] theorem State.modMb_pr (f : Mailboxes → Mailboxes) : (s.modMb f).pr = s.pr := rfl
@[simp] theorem State.modMb_jn (f : Mailboxes → Mailboxes) : (s.modMb f).jn = s.jn := rfl
@[simp] theorem State.modMb_d0 (f : Mailboxes → Mailboxes) : (s.modMb f).d0 = s.d0 := rfl
@[simp] theorem State.modMb_ts (f : Mailboxes → Mailboxes) : (s.modMb f).ts = s.ts := rfl
@[simp] theorem State.modMb_pw (f : Mailboxes → Mailboxes) : (s.modMb f).pw = s.pw := rfl
@[simp] theorem State.modMb_po (f : Mailboxes → Mailboxes) : (s.modMb f).po = s.po := rfl
@[simp] theorem State.modMb_cl (f : Mailboxes → Mailboxes) : (s.modMb f).cl = s.cl := rfl
@[simp] theorem State.modMb_dg (f : Mailboxes → Mailboxes) : (s.modMb f).dg = s.dg := rfl
@[simp] theorem State.modMb_pk (f : Mailboxes → Mailboxes) : (s.modMb f).pk = s.pk := rfl
@[simp] theorem State.modMb_sp (f : Mailboxes → Mailboxes) : (s.modMb f).sp = s.sp := rfl
@[simp] theorem State.modMb_st (f : Mailboxes → Mailboxes) : (s.modMb f).st = s.st := rfl
@[simp] theorem State.modMb_vt (f : Mailboxes → Mailboxes) : (s.modMb f).vt = s.vt := rfl
@[simp] theorem State.modMb_bu (f : Mailboxes → Mailboxes) : (s.modMb f).bu = s.bu := rfl
@[simp] theorem State.modMb_dm (f : Mailboxes → Mailboxes) : (s.modMb f).dm = s.dm := rfl

/-! `State.setFn` -/

@[simp] theorem State.setFn_fx (n : Nat) (x : Fn) : (s.setFn n x).fx = { s.fx with fns := s.fx.fns.set {} n x } := rfl
@[simp] theorem State.setFn_pending (n : Nat) (x : Fn) : (s.setFn n x).pending = s.pending := rfl
@[simp] theorem State.setFn_freeCount (n : Nat) (x : Fn) : (s.setFn n x).freeCount = s.freeCount := rfl
@[simp] theorem State.setFn_rt (n : Nat) (x : Fn) : (s.setFn n x).rt = s.rt := rfl
@[simp] theorem State.setFn_sq (n : Nat) (x : Fn) : (s.setFn n x).sq = s.sq := rfl
@[simp] theorem State.setFn_pf (n : Nat) (x : Fn) : (s.setFn n x).pf = s.pf := rfl
@[simp] theorem State.setFn_vecs (n : Nat) (x : Fn) : (s.setFn n x).vecs = s.vecs := rfl
@[simp] theorem State.setFn_units (n : Nat) (x : Fn) : (s.setFn n x).units = s.units := rfl
@[simp] theorem State.setFn_fc (n : Nat) (x : Fn) : (s.setFn n x).fc = s.fc := rfl
@[simp] theorem State.setFn_pr (n : Nat) (x : Fn) : (s.setFn n x).pr = s.pr := rfl
@[simp] theorem State.setFn_jn (n : Nat) (x : Fn) : (s.setFn n x).jn = s.jn := rfl
@[simp] theorem State.setFn_d0 (n : Nat) (x : Fn) : (s.setFn n x).d0 = s.d0 := rfl
@[simp] theorem State.setFn_ts (n : Nat) (x : Fn) : (s.setFn n x).ts = s.ts := rfl
@[simp] theorem State.setFn_pw (n : Nat) (x : Fn) : (s.setFn n x).pw = s.pw := rfl
@[simp] theorem State.setFn_po (n : Nat) (x : Fn) : (s.setFn n x).po = s.po := rfl
@[simp] theorem State.setFn_cl (n : Nat) (x : Fn) : (s.setFn n x).cl = s.cl := rfl
@[simp] theorem State.setFn_dg (n : Nat) (x : Fn) : (s.setFn n x).dg = s.dg := rfl
@[simp] theorem State.setFn_pk (n : Nat) (x : Fn) : (s.setFn n x).pk = s.pk := rfl
@[simp] theorem State.setFn_sp (n : Nat) (x : Fn) : (s.setFn n x).sp = s.sp := rfl
@[simp] theorem State.setFn_st (n : Nat) (x : Fn) : (s.setFn n x).st = s.st := rfl
@[simp] theorem State.setFn_vt (n : Nat) (x : Fn) : (s.setFn n x).vt = s.vt := rfl
@[simp] theorem State.setFn_bu (n : Nat) (x : Fn) : (s.setFn n x).bu = s.bu := rfl
@[simp] theorem State.setFn_mb (n : Nat) (x : Fn) : (s.setFn n x).mb = s.mb := rfl
@[simp] theorem State.setFn_dm (n : Nat) (x : Fn) : (s.setFn n x).dm = s.dm := rfl

/-! `State.setRing` -/

@[simp] theorem State.setRing_rt (n : Nat) (x : Ring) : (s.setRing n x).rt = { s.rt with rings := s.rt.rings.set {} n x } := rfl
@[simp] theorem State.setRing_pending (n : Nat) (x : Ring) : (s.setRing n x).pending = s.pending := rfl
@[simp] theorem State.setRing_freeCount (n : Nat) (x : Ring) : (s.setRing n x).freeCount = s.freeCount := rfl
@[simp] theorem State.setRing_fx (n : Nat) (x : Ring) : (s.setRing n x).fx = s.fx := rfl
@[simp] theorem State.setRing_sq (n : Nat) (x : Ring) : (s.setRing n x).sq = s.sq := rfl
@[simp] theorem State.setRing_pf (n : Nat) (x : Ring) : (s.setRing n x).pf = s.pf := rfl
@[simp] theorem State.setRing_vecs (n : Nat) (x : Ring) : (s.setRing n x).vecs = s.vecs := rfl
@[simp] theorem State.setRing_units (n : Nat) (x : Ring) : (s.setRing n x).units = s.units := rfl
@[simp] theorem State.setRing_fc (n : Nat) (x : Ring) : (s.setRing n x).fc = s.fc := rfl
@[simp] theorem State.setRing_pr (n : Nat) (x : Ring) : (s.setRing n x).pr = s.pr := rfl
@[simp] theorem State.setRing_jn (n : Nat) (x : Ring) : (s.setRing n x).jn = s.jn := rfl
@[simp] theorem State.setRing_d0 (n : Nat) (x : Ring) : (s.setRing n x).d0 = s.d0 := rfl
@[simp] theorem State.setRing_ts (n : Nat) (x : Ring) : (s.setRing n x).ts = s.ts := rfl
@[simp] theorem State.setRing_pw (n : Nat) (x : Ring) : (s.setRing n x).pw = s.pw := rfl
@[simp] theorem State.setRing_po (n : Nat) (x : Ring) : (s.setRing n x).po = s.po := rfl
@[simp] theorem State.setRing_cl (n : Nat) (x : Ring) : (s.setRing n x).cl = s.cl := rfl
@[simp] theorem State.setRing_dg (n : Nat) (x : Ring) : (s.setRing n x).dg = s.dg := rfl
@[simp] theorem State.setRing_pk (n : Nat) (x : Ring) : (s.setRing n x).pk = s.pk := rfl
@[simp] theorem State.setRing_sp (n : Nat) (x : Ring) : (s.setRing n x).sp = s.sp := rfl
@[simp] theorem State.setRing_st (n : Nat) (x : Ring) : (s.setRing n x).st = s.st := rfl
@[simp] theorem State.setRing_vt (n : Nat) (x : Ring) : (s.setRing n x).vt = s.vt := rfl
@[simp] theorem State.setRing_bu (n : Nat) (x : Ring) : (s.setRing n x).bu = s.bu := rfl
@[simp] theorem State.setRing_mb (n : Nat) (x : Ring) : (s.setRing n x).mb = s.mb := rfl
@[simp] theorem State.setRing_dm (n : Nat) (x : Ring) : (s.setRing n x).dm = s.dm := rfl

/-! `State.setVec` -/

@[simp] theorem State.setVec_vecs (n : Nat) (x : Vec) : (s.setVec n x).vecs = s.vecs.set {} n x := rfl
@[simp] theorem State.setVec_pending (n : Nat) (x : Vec) : (s.setVec n x).pending = s.pending := rfl
@[simp] theorem State.setVec_freeCount (n : Nat) (x : Vec) : (s.setVec n x).freeCount = s.freeCount := rfl
@[simp] theorem State.setVec_fx (n : Nat) (x : Vec) : (s.setVec n x).fx = s.fx := rfl
@[simp] theorem State.setVec_rt (n : Nat) (x : Vec) : (s.setVec n x).rt = s.rt := rfl
@[simp] theorem State.setVec_sq (n : Nat) (x : Vec) : (s.setVec n x).sq = s.sq := rfl
@[simp] theorem State.setVec_pf (n : Nat) (x : Vec) : (s.setVec n x).pf = s.pf := rfl
@[simp] theorem State.setVec_units (n : Nat) (x : Vec) : (s.setVec n x).units = s.units := rfl
@[simp] theorem State.setVec_fc (n : Nat) (x : Vec) : (s.setVec n x).fc = s.fc := rfl
@[simp] theorem State.setVec_pr (n : Nat) (x : Vec) : (s.setVec n x).pr = s.pr := rfl
@[simp] theorem State.setVec_jn (n : Nat) (x : Vec) : (s.setVec n x).jn = s.jn := rfl
@[simp] theorem State.setVec_d0 (n : Nat) (x : Vec) : (s.setVec n x).d0 = s.d0 := rfl
@[simp] theorem State.setVec_ts (n : Nat) (x : Vec) : (s.setVec n x).ts = s.ts := rfl
@[simp] theorem State.setVec_pw (n : Nat) (x : Vec) : (s.setVec n x).pw = s.pw := rfl
@[simp] theorem State.setVec_po (n : Nat) (x : Vec) : (s.setVec n x).po = s.po := rfl
@[simp] theorem State.setVec_cl (n : Nat) (x : Vec) : (s.setVec n x).cl = s.cl := rfl
@[simp] theorem State.setVec_dg (n : Nat) (x : Vec) : (s.setVec n x).dg = s.dg := rfl
@[simp] theorem State.setVec_pk (n : Nat) (x : Vec) : (s.setVec n x).pk = s.pk := rfl
@[simp] theorem State.setVec_sp (n : Nat) (x : Vec) : (s.setVec n x).sp = s.sp := rfl
@[simp] theorem State.setVec_st (n : Nat) (x : Vec) : (s.setVec n x).st = s.st := rfl
@[simp] theorem State.setVec_vt (n : Nat) (x : Vec) : (s.setVec n x).vt = s.vt := rfl
@[simp] theorem State.setVec_bu (n : Nat) (x : Vec) : (s.setVec n x).bu = s.bu := rfl
@[simp] theorem State.setVec_mb (n : Nat) (x : Vec) : (s.setVec n x).mb = s.mb := rfl
@[simp] theorem State.setVec_dm (n : Nat) (x : Vec) : (s.setVec n x).dm = s.dm := rfl

/-! `State.setUnit` -/

@[simp] theorem State.setUnit_units (n : Nat) (x : Lane) : (s.setUnit n x).units = s.units.set {} n x := rfl
@[simp] theorem State.setUnit_pending (n : Nat) (x : Lane) : (s.setUnit n x).pending = s.pending := rfl
@[simp] theorem State.setUnit_freeCount (n : Nat) (x : Lane) : (s.setUnit n x).freeCount = s.freeCount := rfl
@[simp] theorem State.setUnit_fx (n : Nat) (x : Lane) : (s.setUnit n x).fx = s.fx := rfl
@[simp] theorem State.setUnit_rt (n : Nat) (x : Lane) : (s.setUnit n x).rt = s.rt := rfl
@[simp] theorem State.setUnit_sq (n : Nat) (x : Lane) : (s.setUnit n x).sq = s.sq := rfl
@[simp] theorem State.setUnit_pf (n : Nat) (x : Lane) : (s.setUnit n x).pf = s.pf := rfl
@[simp] theorem State.setUnit_vecs (n : Nat) (x : Lane) : (s.setUnit n x).vecs = s.vecs := rfl
@[simp] theorem State.setUnit_fc (n : Nat) (x : Lane) : (s.setUnit n x).fc = s.fc := rfl
@[simp] theorem State.setUnit_pr (n : Nat) (x : Lane) : (s.setUnit n x).pr = s.pr := rfl
@[simp] theorem State.setUnit_jn (n : Nat) (x : Lane) : (s.setUnit n x).jn = s.jn := rfl
@[simp] theorem State.setUnit_d0 (n : Nat) (x : Lane) : (s.setUnit n x).d0 = s.d0 := rfl
@[simp] theorem State.setUnit_ts (n : Nat) (x : Lane) : (s.setUnit n x).ts = s.ts := rfl
@[simp] theorem State.setUnit_pw (n : Nat) (x : Lane) : (s.setUnit n x).pw = s.pw := rfl
@[simp] theorem State.setUnit_po (n : Nat) (x : Lane) : (s.setUnit n x).po = s.po := rfl
@[simp] theorem State.setUnit_cl (n : Nat) (x : Lane) : (s.setUnit n x).cl = s.cl := rfl
@[simp] theorem State.setUnit_dg (n : Nat) (x : Lane) : (s.setUnit n x).dg = s.dg := rfl
@[simp] theorem State.setUnit_pk (n : Nat) (x : Lane) : (s.setUnit n x).pk = s.pk := rfl
@[simp] theorem State.setUnit_sp (n : Nat) (x : Lane) : (s.setUnit n x).sp = s.sp := rfl
@[simp] theorem State.setUnit_st (n : Nat) (x : Lane) : (s.setUnit n x).st = s.st := rfl
@[simp] theorem State.setUnit_vt (n : Nat) (x : Lane) : (s.setUnit n x).vt = s.vt := rfl
@[simp] theorem State.setUnit_bu (n : Nat) (x : Lane) : (s.setUnit n x).bu = s.bu := rfl
@[simp] theorem State.setUnit_mb (n : Nat) (x : Lane) : (s.setUnit n x).mb = s.mb := rfl
@[simp] theorem State.setUnit_dm (n : Nat) (x : Lane) : (s.setUnit n x).dm = s.dm := rfl

/-! `State.setSrc` -/

@[simp] theorem State.setSrc_fc (n : Nat) (x : Src) : (s.setSrc n x).fc = { s.fc with srcs := s.fc.srcs.set {} n x } := rfl
@[simp] theorem State.setSrc_pending (n : Nat) (x : Src) : (s.setSrc n x).pending = s.pending := rfl
@[simp] theorem State.setSrc_freeCount (n : Nat) (x : Src) : (s.setSrc n x).freeCount = s.freeCount := rfl
@[simp] theorem State.setSrc_fx (n : Nat) (x : Src) : (s.setSrc n x).fx = s.fx := rfl
@[simp] theorem State.setSrc_rt (n : Nat) (x : Src) : (s.setSrc n x).rt = s.rt := rfl
@[simp] theorem State.setSrc_sq (n : Nat) (x : Src) : (s.setSrc n x).sq = s.sq := rfl
@[simp] theorem State.setSrc_pf (n : Nat) (x : Src) : (s.setSrc n x).pf = s.pf := rfl
@[simp] theorem State.setSrc_vecs (n : Nat) (x : Src) : (s.setSrc n x).vecs = s.vecs := rfl
@[simp] theorem State.setSrc_units (n : Nat) (x : Src) : (s.setSrc n x).units = s.units := rfl
@[simp] theorem State.setSrc_pr (n : Nat) (x : Src) : (s.setSrc n x).pr = s.pr := rfl
@[simp] theorem State.setSrc_jn (n : Nat) (x : Src) : (s.setSrc n x).jn = s.jn := rfl
@[simp] theorem State.setSrc_d0 (n : Nat) (x : Src) : (s.setSrc n x).d0 = s.d0 := rfl
@[simp] theorem State.setSrc_ts (n : Nat) (x : Src) : (s.setSrc n x).ts = s.ts := rfl
@[simp] theorem State.setSrc_pw (n : Nat) (x : Src) : (s.setSrc n x).pw = s.pw := rfl
@[simp] theorem State.setSrc_po (n : Nat) (x : Src) : (s.setSrc n x).po = s.po := rfl
@[simp] theorem State.setSrc_cl (n : Nat) (x : Src) : (s.setSrc n x).cl = s.cl := rfl
@[simp] theorem State.setSrc_dg (n : Nat) (x : Src) : (s.setSrc n x).dg = s.dg := rfl
@[simp] theorem State.setSrc_pk (n : Nat) (x : Src) : (s.setSrc n x).pk = s.pk := rfl
@[simp] theorem State.setSrc_sp (n : Nat) (x : Src) : (s.setSrc n x).sp = s.sp := rfl
@[simp] theorem State.setSrc_st (n : Nat) (x : Src) : (s.setSrc n x).st = s.st := rfl
@[simp] theorem State.setSrc_vt (n : Nat) (x : Src) : (s.setSrc n x).vt = s.vt := rfl
@[simp] theorem State.setSrc_bu (n : Nat) (x : Src) : (s.setSrc n x).bu = s.bu := rfl
@[simp] theorem State.setSrc_mb (n : Nat) (x : Src) : (s.setSrc n x).mb = s.mb := rfl
@[simp] theorem State.setSrc_dm (n : Nat) (x : Src) : (s.setSrc n x).dm = s.dm := rfl

/-! `State.setDom` -/

@[simp] theorem State.setDom_pw (n : Nat) (x : Dom) : (s.setDom n x).pw = { s.pw with doms := s.pw.doms.set {} n x } := rfl
@[simp] theorem State.setDom_pending (n : Nat) (x : Dom) : (s.setDom n x).pending = s.pending := rfl
@[simp] theorem State.setDom_freeCount (n : Nat) (x : Dom) : (s.setDom n x).freeCount = s.freeCount := rfl
@[simp] theorem State.setDom_fx (n : Nat) (x : Dom) : (s.setDom n x).fx = s.fx := rfl
@[simp] theorem State.setDom_rt (n : Nat) (x : Dom) : (s.setDom n x).rt = s.rt := rfl
@[simp] theorem State.setDom_sq (n : Nat) (x : Dom) : (s.setDom n x).sq = s.sq := rfl
@[simp] theorem State.setDom_pf (n : Nat) (x : Dom) : (s.setDom n x).pf = s.pf := rfl
@[simp] theorem State.setDom_vecs (n : Nat) (x : Dom) : (s.setDom n x).vecs = s.vecs := rfl
@[simp] theorem State.setDom_units (n : Nat) (x : Dom) : (s.setDom n x).units = s.units := rfl
@[simp] theorem State.setDom_fc (n : Nat) (x : Dom) : (s.setDom n x).fc = s.fc := rfl
@[simp] theorem State.setDom_pr (n : Nat) (x : Dom) : (s.setDom n x).pr = s.pr := rfl
@[simp] theorem State.setDom_jn (n : Nat) (x : Dom) : (s.setDom n x).jn = s.jn := rfl
@[simp] theorem State.setDom_d0 (n : Nat) (x : Dom) : (s.setDom n x).d0 = s.d0 := rfl
@[simp] theorem State.setDom_ts (n : Nat) (x : Dom) : (s.setDom n x).ts = s.ts := rfl
@[simp] theorem State.setDom_po (n : Nat) (x : Dom) : (s.setDom n x).po = s.po := rfl
@[simp] theorem State.setDom_cl (n : Nat) (x : Dom) : (s.setDom n x).cl = s.cl := rfl
@[simp] theorem State.setDom_dg (n : Nat) (x : Dom) : (s.setDom n x).dg = s.dg := rfl
@[simp] theorem State.setDom_pk (n : Nat) (x : Dom) : (s.setDom n x).pk = s.pk := rfl
@[simp] theorem State.setDom_sp (n : Nat) (x : Dom) : (s.setDom n x).sp = s.sp := rfl
@[simp] theorem State.setDom_st (n : Nat) (x : Dom) : (s.setDom n x).st = s.st := rfl
@[simp] theorem State.setDom_vt (n : Nat) (x : Dom) : (s.setDom n x).vt = s.vt := rfl
@[simp] theorem State.setDom_bu (n : Nat) (x : Dom) : (s.setDom n x).bu = s.bu := rfl
@[simp] theorem State.setDom_mb (n : Nat) (x : Dom) : (s.setDom n x).mb = s.mb := rfl
@[simp] theorem State.setDom_dm (n : Nat) (x : Dom) : (s.setDom n x).dm = s.dm := rfl

/-! `State.setTag` -/

@[simp] theorem State.setTag_sq (n : Nat) (x : TagEnt) : (s.setTag n x).sq = { s.sq with tags := s.sq.tags.insert n x } := rfl
@[simp] theorem State.setTag_pending (n : Nat) (x : TagEnt) : (s.setTag n x).pending = s.pending := rfl
@[simp] theorem State.setTag_freeCount (n : Nat) (x : TagEnt) : (s.setTag n x).freeCount = s.freeCount := rfl
@[simp] theorem State.setTag_fx (n : Nat) (x : TagEnt) : (s.setTag n x).fx = s.fx := rfl
@[simp] theorem State.setTag_rt (n : Nat) (x : TagEnt) : (s.setTag n x).rt = s.rt := rfl
@[simp] theorem State.setTag_pf (n : Nat) (x : TagEnt) : (s.setTag n x).pf = s.pf := rfl
@[simp] theorem State.setTag_vecs (n : Nat) (x : TagEnt) : (s.setTag n x).vecs = s.vecs := rfl
@[simp] theorem State.setTag_units (n : Nat) (x : TagEnt) : (s.setTag n x).units = s.units := rfl
@[simp] theorem State.setTag_fc (n : Nat) (x : TagEnt) : (s.setTag n x).fc = s.fc := rfl
@[simp] theorem State.setTag_pr (n : Nat) (x : TagEnt) : (s.setTag n x).pr = s.pr := rfl
@[simp] theorem State.setTag_jn (n : Nat) (x : TagEnt) : (s.setTag n x).jn = s.jn := rfl
@[simp] theorem State.setTag_d0 (n : Nat) (x : TagEnt) : (s.setTag n x).d0 = s.d0 := rfl
@[simp] theorem State.setTag_ts (n : Nat) (x : TagEnt) : (s.setTag n x).ts = s.ts := rfl
@[simp] theorem State.setTag_pw (n : Nat) (x : TagEnt) : (s.setTag n x).pw = s.pw := rfl
@[simp] theorem State.setTag_po (n : Nat) (x : TagEnt) : (s.setTag n x).po = s.po := rfl
@[simp] theorem State.setTag_cl (n : Nat) (x : TagEnt) : (s.setTag n x).cl = s.cl := rfl
@[simp] theorem State.setTag_dg (n : Nat) (x : TagEnt) : (s.setTag n x).dg = s.dg := rfl
@[simp] theorem State.setTag_pk (n : Nat) (x : TagEnt) : (s.setTag n x).pk = s.pk := rfl
@[simp] theorem State.setTag_sp (n : Nat) (x : TagEnt) : (s.setTag n x).sp = s.sp := rfl
@[simp] theorem State.setTag_st (n : Nat) (x : TagEnt) : (s.setTag n x).st = s.st := rfl
@[simp] theorem State.setTag_vt (n : Nat) (x : TagEnt) : (s.setTag n x).vt = s.vt := rfl
@[simp] theorem State.setTag_bu (n : Nat) (x : TagEnt) : (s.setTag n x).bu = s.bu := rfl
@[simp] theorem State.setTag_mb (n : Nat) (x : TagEnt) : (s.setTag n x).mb = s.mb := rfl
@[simp] theorem State.setTag_dm (n : Nat) (x : TagEnt) : (s.setTag n x).dm = s.dm := rfl

/-! `State.setFlight` -/

@[simp] theorem State.setFlight_sq (n : Nat) (x : Flight) : (s.setFlight n x).sq = { s.sq with flights := s.sq.flights.set {} n x } := rfl
@[simp] theorem State.setFlight_pending (n : Nat) (x : Flight) : (s.setFlight n x).pending = s.pending := rfl
@[simp] theorem State.setFlight_freeCount (n : Nat) (x : Flight) : (s.setFlight n x).freeCount = s.freeCount := rfl
@[simp] theorem State.setFlight_fx (n : Nat) (x : Flight) : (s.setFlight n x).fx = s.fx := rfl
@[simp] theorem State.setFlight_rt (n : Nat) (x : Flight) : (s.setFlight n x).rt = s.rt := rfl
@[simp] theorem State.setFlight_pf (n : Nat) (x : Flight) : (s.setFlight n x).pf = s.pf := rfl
@[simp] theorem State.setFlight_vecs (n : Nat) (x : Flight) : (s.setFlight n x).vecs = s.vecs := rfl
@[simp] theorem State.setFlight_units (n : Nat) (x : Flight) : (s.setFlight n x).units = s.units := rfl
@[simp] theorem State.setFlight_fc (n : Nat) (x : Flight) : (s.setFlight n x).fc = s.fc := rfl
@[simp] theorem State.setFlight_pr (n : Nat) (x : Flight) : (s.setFlight n x).pr = s.pr := rfl
@[simp] theorem State.setFlight_jn (n : Nat) (x : Flight) : (s.setFlight n x).jn = s.jn := rfl
@[simp] theorem State.setFlight_d0 (n : Nat) (x : Flight) : (s.setFlight n x).d0 = s.d0 := rfl
@[simp] theorem State.setFlight_ts (n : Nat) (x : Flight) : (s.setFlight n x).ts = s.ts := rfl
@[simp] theorem State.setFlight_pw (n : Nat) (x : Flight) : (s.setFlight n x).pw = s.pw := rfl
@[simp] theorem State.setFlight_po (n : Nat) (x : Flight) : (s.setFlight n x).po = s.po := rfl
@[simp] theorem State.setFlight_cl (n : Nat) (x : Flight) : (s.setFlight n x).cl = s.cl := rfl
@[simp] theorem State.setFlight_dg (n : Nat) (x : Flight) : (s.setFlight n x).dg = s.dg := rfl
@[simp] theorem State.setFlight_pk (n : Nat) (x : Flight) : (s.setFlight n x).pk = s.pk := rfl
@[simp] theorem State.setFlight_sp (n : Nat) (x : Flight) : (s.setFlight n x).sp = s.sp := rfl
@[simp] theorem State.setFlight_st (n : Nat) (x : Flight) : (s.setFlight n x).st = s.st := rfl
@[simp] theorem State.setFlight_vt (n : Nat) (x : Flight) : (s.setFlight n x).vt = s.vt := rfl
@[simp] theorem State.setFlight_bu (n : Nat) (x : Flight) : (s.setFlight n x).bu = s.bu := rfl
@[simp] theorem State.setFlight_mb (n : Nat) (x : Flight) : (s.setFlight n x).mb = s.mb := rfl
@[simp] theorem State.setFlight_dm (n : Nat) (x : Flight) : (s.setFlight n x).dm = s.dm := rfl

/-! `State.raiseMsg` -/

@[simp] theorem State.raiseMsg_fc (m : FMsg) : (s.raiseMsg m).fc = { s.fc with waiting := enqueueMsg s.fc.waiting m } := rfl
@[simp] theorem State.raiseMsg_pending (m : FMsg) : (s.raiseMsg m).pending = s.pending := rfl
@[simp] theorem State.raiseMsg_freeCount (m : FMsg) : (s.raiseMsg m).freeCount = s.freeCount := rfl
@[simp] theorem State.raiseMsg_fx (m : FMsg) : (s.raiseMsg m).fx = s.fx := rfl
@[simp] theorem State.raiseMsg_rt (m : FMsg) : (s.raiseMsg m).rt = s.rt := rfl
@[simp] theorem State.raiseMsg_sq (m : FMsg) : (s.raiseMsg m).sq = s.sq := rfl
@[simp] theorem State.raiseMsg_pf (m : FMsg) : (s.raiseMsg m).pf = s.pf := rfl
@[simp] theorem State.raiseMsg_vecs (m : FMsg) : (s.raiseMsg m).vecs = s.vecs := rfl
@[simp] theorem State.raiseMsg_units (m : FMsg) : (s.raiseMsg m).units = s.units := rfl
@[simp] theorem State.raiseMsg_pr (m : FMsg) : (s.raiseMsg m).pr = s.pr := rfl
@[simp] theorem State.raiseMsg_jn (m : FMsg) : (s.raiseMsg m).jn = s.jn := rfl
@[simp] theorem State.raiseMsg_d0 (m : FMsg) : (s.raiseMsg m).d0 = s.d0 := rfl
@[simp] theorem State.raiseMsg_ts (m : FMsg) : (s.raiseMsg m).ts = s.ts := rfl
@[simp] theorem State.raiseMsg_pw (m : FMsg) : (s.raiseMsg m).pw = s.pw := rfl
@[simp] theorem State.raiseMsg_po (m : FMsg) : (s.raiseMsg m).po = s.po := rfl
@[simp] theorem State.raiseMsg_cl (m : FMsg) : (s.raiseMsg m).cl = s.cl := rfl
@[simp] theorem State.raiseMsg_dg (m : FMsg) : (s.raiseMsg m).dg = s.dg := rfl
@[simp] theorem State.raiseMsg_pk (m : FMsg) : (s.raiseMsg m).pk = s.pk := rfl
@[simp] theorem State.raiseMsg_sp (m : FMsg) : (s.raiseMsg m).sp = s.sp := rfl
@[simp] theorem State.raiseMsg_st (m : FMsg) : (s.raiseMsg m).st = s.st := rfl
@[simp] theorem State.raiseMsg_vt (m : FMsg) : (s.raiseMsg m).vt = s.vt := rfl
@[simp] theorem State.raiseMsg_bu (m : FMsg) : (s.raiseMsg m).bu = s.bu := rfl
@[simp] theorem State.raiseMsg_mb (m : FMsg) : (s.raiseMsg m).mb = s.mb := rfl
@[simp] theorem State.raiseMsg_dm (m : FMsg) : (s.raiseMsg m).dm = s.dm := rfl

/-! `State.raise` -/

@[simp] theorem State.raise_pending (src k : Nat) (a : BitVec 44) : (s.raise src k a).pending = s.pending := rfl
@[simp] theorem State.raise_freeCount (src k : Nat) (a : BitVec 44) : (s.raise src k a).freeCount = s.freeCount := rfl
@[simp] theorem State.raise_fx (src k : Nat) (a : BitVec 44) : (s.raise src k a).fx = s.fx := rfl
@[simp] theorem State.raise_rt (src k : Nat) (a : BitVec 44) : (s.raise src k a).rt = s.rt := rfl
@[simp] theorem State.raise_sq (src k : Nat) (a : BitVec 44) : (s.raise src k a).sq = s.sq := rfl
@[simp] theorem State.raise_pf (src k : Nat) (a : BitVec 44) : (s.raise src k a).pf = s.pf := rfl
@[simp] theorem State.raise_vecs (src k : Nat) (a : BitVec 44) : (s.raise src k a).vecs = s.vecs := rfl
@[simp] theorem State.raise_units (src k : Nat) (a : BitVec 44) : (s.raise src k a).units = s.units := rfl
@[simp] theorem State.raise_pr (src k : Nat) (a : BitVec 44) : (s.raise src k a).pr = s.pr := rfl
@[simp] theorem State.raise_jn (src k : Nat) (a : BitVec 44) : (s.raise src k a).jn = s.jn := rfl
@[simp] theorem State.raise_d0 (src k : Nat) (a : BitVec 44) : (s.raise src k a).d0 = s.d0 := rfl
@[simp] theorem State.raise_ts (src k : Nat) (a : BitVec 44) : (s.raise src k a).ts = s.ts := rfl
@[simp] theorem State.raise_pw (src k : Nat) (a : BitVec 44) : (s.raise src k a).pw = s.pw := rfl
@[simp] theorem State.raise_po (src k : Nat) (a : BitVec 44) : (s.raise src k a).po = s.po := rfl
@[simp] theorem State.raise_cl (src k : Nat) (a : BitVec 44) : (s.raise src k a).cl = s.cl := rfl
@[simp] theorem State.raise_dg (src k : Nat) (a : BitVec 44) : (s.raise src k a).dg = s.dg := rfl
@[simp] theorem State.raise_pk (src k : Nat) (a : BitVec 44) : (s.raise src k a).pk = s.pk := rfl
@[simp] theorem State.raise_sp (src k : Nat) (a : BitVec 44) : (s.raise src k a).sp = s.sp := rfl
@[simp] theorem State.raise_st (src k : Nat) (a : BitVec 44) : (s.raise src k a).st = s.st := rfl
@[simp] theorem State.raise_vt (src k : Nat) (a : BitVec 44) : (s.raise src k a).vt = s.vt := rfl
@[simp] theorem State.raise_bu (src k : Nat) (a : BitVec 44) : (s.raise src k a).bu = s.bu := rfl
@[simp] theorem State.raise_mb (src k : Nat) (a : BitVec 44) : (s.raise src k a).mb = s.mb := rfl
@[simp] theorem State.raise_dm (src k : Nat) (a : BitVec 44) : (s.raise src k a).dm = s.dm := rfl

/-! `State.raiseFabric` -/

@[simp] theorem State.raiseFabric_pending (src k fn a : Nat) (w : Bool) : (s.raiseFabric src k fn a w).pending = s.pending := rfl
@[simp] theorem State.raiseFabric_freeCount (src k fn a : Nat) (w : Bool) : (s.raiseFabric src k fn a w).freeCount = s.freeCount := rfl
@[simp] theorem State.raiseFabric_fx (src k fn a : Nat) (w : Bool) : (s.raiseFabric src k fn a w).fx = s.fx := rfl
@[simp] theorem State.raiseFabric_rt (src k fn a : Nat) (w : Bool) : (s.raiseFabric src k fn a w).rt = s.rt := rfl
@[simp] theorem State.raiseFabric_sq (src k fn a : Nat) (w : Bool) : (s.raiseFabric src k fn a w).sq = s.sq := rfl
@[simp] theorem State.raiseFabric_pf (src k fn a : Nat) (w : Bool) : (s.raiseFabric src k fn a w).pf = s.pf := rfl
@[simp] theorem State.raiseFabric_vecs (src k fn a : Nat) (w : Bool) : (s.raiseFabric src k fn a w).vecs = s.vecs := rfl
@[simp] theorem State.raiseFabric_units (src k fn a : Nat) (w : Bool) : (s.raiseFabric src k fn a w).units = s.units := rfl
@[simp] theorem State.raiseFabric_pr (src k fn a : Nat) (w : Bool) : (s.raiseFabric src k fn a w).pr = s.pr := rfl
@[simp] theorem State.raiseFabric_jn (src k fn a : Nat) (w : Bool) : (s.raiseFabric src k fn a w).jn = s.jn := rfl
@[simp] theorem State.raiseFabric_d0 (src k fn a : Nat) (w : Bool) : (s.raiseFabric src k fn a w).d0 = s.d0 := rfl
@[simp] theorem State.raiseFabric_ts (src k fn a : Nat) (w : Bool) : (s.raiseFabric src k fn a w).ts = s.ts := rfl
@[simp] theorem State.raiseFabric_pw (src k fn a : Nat) (w : Bool) : (s.raiseFabric src k fn a w).pw = s.pw := rfl
@[simp] theorem State.raiseFabric_po (src k fn a : Nat) (w : Bool) : (s.raiseFabric src k fn a w).po = s.po := rfl
@[simp] theorem State.raiseFabric_cl (src k fn a : Nat) (w : Bool) : (s.raiseFabric src k fn a w).cl = s.cl := rfl
@[simp] theorem State.raiseFabric_dg (src k fn a : Nat) (w : Bool) : (s.raiseFabric src k fn a w).dg = s.dg := rfl
@[simp] theorem State.raiseFabric_pk (src k fn a : Nat) (w : Bool) : (s.raiseFabric src k fn a w).pk = s.pk := rfl
@[simp] theorem State.raiseFabric_sp (src k fn a : Nat) (w : Bool) : (s.raiseFabric src k fn a w).sp = s.sp := rfl
@[simp] theorem State.raiseFabric_st (src k fn a : Nat) (w : Bool) : (s.raiseFabric src k fn a w).st = s.st := rfl
@[simp] theorem State.raiseFabric_vt (src k fn a : Nat) (w : Bool) : (s.raiseFabric src k fn a w).vt = s.vt := rfl
@[simp] theorem State.raiseFabric_bu (src k fn a : Nat) (w : Bool) : (s.raiseFabric src k fn a w).bu = s.bu := rfl
@[simp] theorem State.raiseFabric_mb (src k fn a : Nat) (w : Bool) : (s.raiseFabric src k fn a w).mb = s.mb := rfl
@[simp] theorem State.raiseFabric_dm (src k fn a : Nat) (w : Bool) : (s.raiseFabric src k fn a w).dm = s.dm := rfl

/-! `State.raiseReg` -/

@[simp] theorem State.raiseReg_pending (src k o i : Nat) (g w : Bool) : (s.raiseReg src k o i g w).pending = s.pending := rfl
@[simp] theorem State.raiseReg_freeCount (src k o i : Nat) (g w : Bool) : (s.raiseReg src k o i g w).freeCount = s.freeCount := rfl
@[simp] theorem State.raiseReg_fx (src k o i : Nat) (g w : Bool) : (s.raiseReg src k o i g w).fx = s.fx := rfl
@[simp] theorem State.raiseReg_rt (src k o i : Nat) (g w : Bool) : (s.raiseReg src k o i g w).rt = s.rt := rfl
@[simp] theorem State.raiseReg_sq (src k o i : Nat) (g w : Bool) : (s.raiseReg src k o i g w).sq = s.sq := rfl
@[simp] theorem State.raiseReg_pf (src k o i : Nat) (g w : Bool) : (s.raiseReg src k o i g w).pf = s.pf := rfl
@[simp] theorem State.raiseReg_vecs (src k o i : Nat) (g w : Bool) : (s.raiseReg src k o i g w).vecs = s.vecs := rfl
@[simp] theorem State.raiseReg_units (src k o i : Nat) (g w : Bool) : (s.raiseReg src k o i g w).units = s.units := rfl
@[simp] theorem State.raiseReg_pr (src k o i : Nat) (g w : Bool) : (s.raiseReg src k o i g w).pr = s.pr := rfl
@[simp] theorem State.raiseReg_jn (src k o i : Nat) (g w : Bool) : (s.raiseReg src k o i g w).jn = s.jn := rfl
@[simp] theorem State.raiseReg_d0 (src k o i : Nat) (g w : Bool) : (s.raiseReg src k o i g w).d0 = s.d0 := rfl
@[simp] theorem State.raiseReg_ts (src k o i : Nat) (g w : Bool) : (s.raiseReg src k o i g w).ts = s.ts := rfl
@[simp] theorem State.raiseReg_pw (src k o i : Nat) (g w : Bool) : (s.raiseReg src k o i g w).pw = s.pw := rfl
@[simp] theorem State.raiseReg_po (src k o i : Nat) (g w : Bool) : (s.raiseReg src k o i g w).po = s.po := rfl
@[simp] theorem State.raiseReg_cl (src k o i : Nat) (g w : Bool) : (s.raiseReg src k o i g w).cl = s.cl := rfl
@[simp] theorem State.raiseReg_dg (src k o i : Nat) (g w : Bool) : (s.raiseReg src k o i g w).dg = s.dg := rfl
@[simp] theorem State.raiseReg_pk (src k o i : Nat) (g w : Bool) : (s.raiseReg src k o i g w).pk = s.pk := rfl
@[simp] theorem State.raiseReg_sp (src k o i : Nat) (g w : Bool) : (s.raiseReg src k o i g w).sp = s.sp := rfl
@[simp] theorem State.raiseReg_st (src k o i : Nat) (g w : Bool) : (s.raiseReg src k o i g w).st = s.st := rfl
@[simp] theorem State.raiseReg_vt (src k o i : Nat) (g w : Bool) : (s.raiseReg src k o i g w).vt = s.vt := rfl
@[simp] theorem State.raiseReg_bu (src k o i : Nat) (g w : Bool) : (s.raiseReg src k o i g w).bu = s.bu := rfl
@[simp] theorem State.raiseReg_mb (src k o i : Nat) (g w : Bool) : (s.raiseReg src k o i g w).mb = s.mb := rfl
@[simp] theorem State.raiseReg_dm (src k o i : Nat) (g w : Bool) : (s.raiseReg src k o i g w).dm = s.dm := rfl

/-! `State.pushChan` -/

@[simp] theorem State.pushChan_po (c : Channel) (n : Nat) (x : Xfer) (b : Bool) : (s.pushChan c n x b).po = { s.po with chans := s.po.chans.modify {} (chanNo c) (·.push n x b) } := rfl
@[simp] theorem State.pushChan_pending (c : Channel) (n : Nat) (x : Xfer) (b : Bool) : (s.pushChan c n x b).pending = s.pending := rfl
@[simp] theorem State.pushChan_freeCount (c : Channel) (n : Nat) (x : Xfer) (b : Bool) : (s.pushChan c n x b).freeCount = s.freeCount := rfl
@[simp] theorem State.pushChan_fx (c : Channel) (n : Nat) (x : Xfer) (b : Bool) : (s.pushChan c n x b).fx = s.fx := rfl
@[simp] theorem State.pushChan_rt (c : Channel) (n : Nat) (x : Xfer) (b : Bool) : (s.pushChan c n x b).rt = s.rt := rfl
@[simp] theorem State.pushChan_sq (c : Channel) (n : Nat) (x : Xfer) (b : Bool) : (s.pushChan c n x b).sq = s.sq := rfl
@[simp] theorem State.pushChan_pf (c : Channel) (n : Nat) (x : Xfer) (b : Bool) : (s.pushChan c n x b).pf = s.pf := rfl
@[simp] theorem State.pushChan_vecs (c : Channel) (n : Nat) (x : Xfer) (b : Bool) : (s.pushChan c n x b).vecs = s.vecs := rfl
@[simp] theorem State.pushChan_units (c : Channel) (n : Nat) (x : Xfer) (b : Bool) : (s.pushChan c n x b).units = s.units := rfl
@[simp] theorem State.pushChan_fc (c : Channel) (n : Nat) (x : Xfer) (b : Bool) : (s.pushChan c n x b).fc = s.fc := rfl
@[simp] theorem State.pushChan_pr (c : Channel) (n : Nat) (x : Xfer) (b : Bool) : (s.pushChan c n x b).pr = s.pr := rfl
@[simp] theorem State.pushChan_jn (c : Channel) (n : Nat) (x : Xfer) (b : Bool) : (s.pushChan c n x b).jn = s.jn := rfl
@[simp] theorem State.pushChan_d0 (c : Channel) (n : Nat) (x : Xfer) (b : Bool) : (s.pushChan c n x b).d0 = s.d0 := rfl
@[simp] theorem State.pushChan_ts (c : Channel) (n : Nat) (x : Xfer) (b : Bool) : (s.pushChan c n x b).ts = s.ts := rfl
@[simp] theorem State.pushChan_pw (c : Channel) (n : Nat) (x : Xfer) (b : Bool) : (s.pushChan c n x b).pw = s.pw := rfl
@[simp] theorem State.pushChan_cl (c : Channel) (n : Nat) (x : Xfer) (b : Bool) : (s.pushChan c n x b).cl = s.cl := rfl
@[simp] theorem State.pushChan_dg (c : Channel) (n : Nat) (x : Xfer) (b : Bool) : (s.pushChan c n x b).dg = s.dg := rfl
@[simp] theorem State.pushChan_pk (c : Channel) (n : Nat) (x : Xfer) (b : Bool) : (s.pushChan c n x b).pk = s.pk := rfl
@[simp] theorem State.pushChan_sp (c : Channel) (n : Nat) (x : Xfer) (b : Bool) : (s.pushChan c n x b).sp = s.sp := rfl
@[simp] theorem State.pushChan_st (c : Channel) (n : Nat) (x : Xfer) (b : Bool) : (s.pushChan c n x b).st = s.st := rfl
@[simp] theorem State.pushChan_vt (c : Channel) (n : Nat) (x : Xfer) (b : Bool) : (s.pushChan c n x b).vt = s.vt := rfl
@[simp] theorem State.pushChan_bu (c : Channel) (n : Nat) (x : Xfer) (b : Bool) : (s.pushChan c n x b).bu = s.bu := rfl
@[simp] theorem State.pushChan_mb (c : Channel) (n : Nat) (x : Xfer) (b : Bool) : (s.pushChan c n x b).mb = s.mb := rfl
@[simp] theorem State.pushChan_dm (c : Channel) (n : Nat) (x : Xfer) (b : Bool) : (s.pushChan c n x b).dm = s.dm := rfl

/-! `State.answered` -/

@[simp] theorem State.answered_po (p : Who → Bool) : (s.answered p).po = { s.po with txns := s.po.txns.filter (fun q => !p q.who) } := rfl
@[simp] theorem State.answered_pending (p : Who → Bool) : (s.answered p).pending = s.pending := rfl
@[simp] theorem State.answered_freeCount (p : Who → Bool) : (s.answered p).freeCount = s.freeCount := rfl
@[simp] theorem State.answered_fx (p : Who → Bool) : (s.answered p).fx = s.fx := rfl
@[simp] theorem State.answered_rt (p : Who → Bool) : (s.answered p).rt = s.rt := rfl
@[simp] theorem State.answered_sq (p : Who → Bool) : (s.answered p).sq = s.sq := rfl
@[simp] theorem State.answered_pf (p : Who → Bool) : (s.answered p).pf = s.pf := rfl
@[simp] theorem State.answered_vecs (p : Who → Bool) : (s.answered p).vecs = s.vecs := rfl
@[simp] theorem State.answered_units (p : Who → Bool) : (s.answered p).units = s.units := rfl
@[simp] theorem State.answered_fc (p : Who → Bool) : (s.answered p).fc = s.fc := rfl
@[simp] theorem State.answered_pr (p : Who → Bool) : (s.answered p).pr = s.pr := rfl
@[simp] theorem State.answered_jn (p : Who → Bool) : (s.answered p).jn = s.jn := rfl
@[simp] theorem State.answered_d0 (p : Who → Bool) : (s.answered p).d0 = s.d0 := rfl
@[simp] theorem State.answered_ts (p : Who → Bool) : (s.answered p).ts = s.ts := rfl
@[simp] theorem State.answered_pw (p : Who → Bool) : (s.answered p).pw = s.pw := rfl
@[simp] theorem State.answered_cl (p : Who → Bool) : (s.answered p).cl = s.cl := rfl
@[simp] theorem State.answered_dg (p : Who → Bool) : (s.answered p).dg = s.dg := rfl
@[simp] theorem State.answered_pk (p : Who → Bool) : (s.answered p).pk = s.pk := rfl
@[simp] theorem State.answered_sp (p : Who → Bool) : (s.answered p).sp = s.sp := rfl
@[simp] theorem State.answered_st (p : Who → Bool) : (s.answered p).st = s.st := rfl
@[simp] theorem State.answered_vt (p : Who → Bool) : (s.answered p).vt = s.vt := rfl
@[simp] theorem State.answered_bu (p : Who → Bool) : (s.answered p).bu = s.bu := rfl
@[simp] theorem State.answered_mb (p : Who → Bool) : (s.answered p).mb = s.mb := rfl
@[simp] theorem State.answered_dm (p : Who → Bool) : (s.answered p).dm = s.dm := rfl

/-! `State.modD0` -/

@[simp] theorem State.modD0_pending (f : D0 → D0) : (s.modD0 f).pending = s.pending := rfl
@[simp] theorem State.modD0_freeCount (f : D0 → D0) : (s.modD0 f).freeCount = s.freeCount := rfl
@[simp] theorem State.modD0_fx (f : D0 → D0) : (s.modD0 f).fx = s.fx := rfl
@[simp] theorem State.modD0_rt (f : D0 → D0) : (s.modD0 f).rt = s.rt := rfl
@[simp] theorem State.modD0_sq (f : D0 → D0) : (s.modD0 f).sq = s.sq := rfl
@[simp] theorem State.modD0_pf (f : D0 → D0) : (s.modD0 f).pf = s.pf := rfl
@[simp] theorem State.modD0_vecs (f : D0 → D0) : (s.modD0 f).vecs = s.vecs := rfl
@[simp] theorem State.modD0_units (f : D0 → D0) : (s.modD0 f).units = s.units := rfl
@[simp] theorem State.modD0_fc (f : D0 → D0) : (s.modD0 f).fc = s.fc := rfl
@[simp] theorem State.modD0_pr (f : D0 → D0) : (s.modD0 f).pr = s.pr := rfl
@[simp] theorem State.modD0_jn (f : D0 → D0) : (s.modD0 f).jn = s.jn := rfl
@[simp] theorem State.modD0_ts (f : D0 → D0) : (s.modD0 f).ts = s.ts := rfl
@[simp] theorem State.modD0_pw (f : D0 → D0) : (s.modD0 f).pw = s.pw := rfl
@[simp] theorem State.modD0_po (f : D0 → D0) : (s.modD0 f).po = s.po := rfl
@[simp] theorem State.modD0_cl (f : D0 → D0) : (s.modD0 f).cl = s.cl := rfl
@[simp] theorem State.modD0_dg (f : D0 → D0) : (s.modD0 f).dg = s.dg := rfl
@[simp] theorem State.modD0_pk (f : D0 → D0) : (s.modD0 f).pk = s.pk := rfl
@[simp] theorem State.modD0_sp (f : D0 → D0) : (s.modD0 f).sp = s.sp := rfl
@[simp] theorem State.modD0_st (f : D0 → D0) : (s.modD0 f).st = s.st := rfl
@[simp] theorem State.modD0_vt (f : D0 → D0) : (s.modD0 f).vt = s.vt := rfl
@[simp] theorem State.modD0_bu (f : D0 → D0) : (s.modD0 f).bu = s.bu := rfl
@[simp] theorem State.modD0_mb (f : D0 → D0) : (s.modD0 f).mb = s.mb := rfl
@[simp] theorem State.modD0_dm (f : D0 → D0) : (s.modD0 f).dm = s.dm := rfl
@[simp] theorem State.modD0_crc (f : D0 → D0) : (s.modD0 f).d0.crc = crc32c (f s.d0).items := rfl
@[simp] theorem State.modD0_tamperSecret (f : D0 → D0) : (s.modD0 f).d0.tamperSecret = (f s.d0).tamperSecret := rfl
@[simp] theorem State.modD0_burnished (f : D0 → D0) : (s.modD0 f).d0.burnished = (f s.d0).burnished := rfl
@[simp] theorem State.modD0_root (f : D0 → D0) : (s.modD0 f).d0.root = (f s.d0).root := rfl
@[simp] theorem State.modD0_epoch (f : D0 → D0) : (s.modD0 f).d0.epoch = (f s.d0).epoch := rfl
@[simp] theorem State.modD0_sweepPos (f : D0 → D0) : (s.modD0 f).d0.sweepPos = (f s.d0).sweepPos := rfl
@[simp] theorem State.modD0_sweepActive (f : D0 → D0) : (s.modD0 f).d0.sweepActive = (f s.d0).sweepActive := rfl
@[simp] theorem State.modD0_batch (f : D0 → D0) : (s.modD0 f).d0.batch = (f s.d0).batch := rfl

/-- A write of the vault engine leaves D0 valid (R257). -/
theorem State.modD0_valid (f : D0 → D0) : (s.modD0 f).d0.valid = true := by
  simp [State.modD0, D0.valid, D0.items, D0.rootCtr]

/-! Entries after a write of one -/

theorem State.fn_setFn (n m : Nat) (x : Fn) : (s.setFn n x).fn m = if m = n then x else s.fn m :=
  Tab.get_set _ _ _ _ _

@[simp] theorem State.fn_setFn_same (n : Nat) (x : Fn) : (s.setFn n x).fn n = x :=
  Tab.get_set_same _ _ _ _

theorem State.ring_setRing (n m : Nat) (x : Ring) : (s.setRing n x).ring m = if m = n then x else s.ring m :=
  Tab.get_set _ _ _ _ _

@[simp] theorem State.ring_setRing_same (n : Nat) (x : Ring) : (s.setRing n x).ring n = x :=
  Tab.get_set_same _ _ _ _

theorem State.vec_setVec (n m : Nat) (x : Vec) : (s.setVec n x).vec m = if m = n then x else s.vec m :=
  Tab.get_set _ _ _ _ _

@[simp] theorem State.vec_setVec_same (n : Nat) (x : Vec) : (s.setVec n x).vec n = x :=
  Tab.get_set_same _ _ _ _

theorem State.unit_setUnit (n m : Nat) (x : Lane) : (s.setUnit n x).unit m = if m = n then x else s.unit m :=
  Tab.get_set _ _ _ _ _

@[simp] theorem State.unit_setUnit_same (n : Nat) (x : Lane) : (s.setUnit n x).unit n = x :=
  Tab.get_set_same _ _ _ _

theorem State.src_setSrc (n m : Nat) (x : Src) : (s.setSrc n x).src m = if m = n then x else s.src m :=
  Tab.get_set _ _ _ _ _

@[simp] theorem State.src_setSrc_same (n : Nat) (x : Src) : (s.setSrc n x).src n = x :=
  Tab.get_set_same _ _ _ _

theorem State.dom_setDom (n m : Nat) (x : Dom) : (s.setDom n x).dom m = if m = n then x else s.dom m :=
  Tab.get_set _ _ _ _ _

@[simp] theorem State.dom_setDom_same (n : Nat) (x : Dom) : (s.setDom n x).dom n = x :=
  Tab.get_set_same _ _ _ _

theorem State.flight_setFlight (n m : Nat) (x : Flight) : (s.setFlight n x).flight m = if m = n then x else s.flight m :=
  Tab.get_set _ _ _ _ _

@[simp] theorem State.flight_setFlight_same (n : Nat) (x : Flight) : (s.setFlight n x).flight n = x :=
  Tab.get_set_same _ _ _ _

end Sys2Proof.Machine
end

