-- ==== Sys2Proof/Laws/Burin.lean ====
section
/-! SUPPORT. Burin: what one instruction leaves, whatever it computes; registers after a write; where loads and stores go. -/

namespace Sys2Proof.Machine

variable (s : State)

/-! Registers -/

theorem BuCtx.get_set (c : BuCtx) (r q : BitVec 5) (v : Word) :
    (c.set r v).get q = if q = 0 then 0 else if q = r then v else c.get q := by
  unfold BuCtx.get
  by_cases hq : q = 0
  · rw [if_pos hq, if_pos hq]
  · rw [if_neg hq, if_neg hq, if_neg hq]
    unfold BuCtx.set
    by_cases hr : r = 0
    · rw [if_pos hr, if_neg (fun h => hq (h.trans hr))]
    · rw [if_neg hr]
      by_cases h : q = r
      · rw [if_pos h, h]
        exact Tab.get_set_same _ _ _ _
      · rw [if_neg h]
        exact Tab.get_set_ne _ _ _ (fun e => h (BitVec.eq_of_toNat_eq e))

theorem BuCtx.set_frame (c : BuCtx) (r : BitVec 5) (v : Word) : c.set r v = { c with regs := (c.set r v).regs } := by
  unfold BuCtx.set
  split <;> rfl

/-! One instruction -/

theorem State.rolledBack_eq : s.rolledBack = { s with bu := s.rolledBack.bu } := by
  unfold State.rolledBack
  split <;> rfl

theorem State.burinNow_eq : s.rolledBack.evtSync.modBu Burin.settle = { s with bu := s.burinNow } := by
  unfold State.burinNow
  rw [State.rolledBack_eq]
  rfl

theorem State.withBurin_eq (b : Burin) :
    s.withBurin b = { s with bu := { b with evt := (b.evt &&& 0x38) ||| s.mbEvents } } := rfl

/-- An operation's length as a word. -/
theorem BuOp.len_word (op : BuOp) : (BitVec.ofNat 32 op.len).toNat = op.len := by
  unfold BuOp.len
  split <;> rfl

/-- An instruction that neither traps nor reaches the register window, nor asks for a commit point, leaves Burin retired and
everything else as it was. -/
theorem State.burinStep_plain {s : State} {op : BuOp} (h : s.Executes) (hf : fetches s.burinNow.ctx.pc op.len = true) (win : (s.burinNow.op op).win = none)
    (seq : (s.burinNow.op op).nxt = .seq) (wfe : (s.burinNow.op op).isWfe = false)
    (due : (s.burinNow.retire op.len (s.burinNow.op op)).due (s.burinNow.op op).isCommit = false) :
    s.burinStep op = s.withBurin (s.burinNow.retire op.len (s.burinNow.op op)) := by
  have h' : s.rolledBack.burinRuns = true := h
  unfold State.burinStep
  simp only [h', Bool.not_true, Bool.false_eq_true, if_false, State.burinNow_eq, hf, win]
  unfold State.retireOut
  simp only [seq, wfe, Bool.false_eq_true, if_false]
  unfold State.boundary
  rw [if_pos]
  · rfl
  · rw [Bool.not_eq_true']
    exact due

/-- Retiring an instruction that only leaves a context. -/
theorem Burin.retire_plain (b : Burin) (c : BuCtx) (len : Nat) :
    b.retire len { ctx := c } = b.next c (b.ctx.pc + BitVec.ofNat 32 len) 1 := by
  have all : ∀ x : BitVec 6, x &&& ~~~(0 : BitVec 6) = x := by decide
  have := all b.evt
  unfold Burin.retire Burin.next
  simp only [List.foldl_nil, List.append_nil, this]

theorem Burin.due_next {b : Burin} (q : b.Quiet) (c : BuCtx) (pc : Word) (n : Nat) : (b.next c pc n).due false = false := by
  obtain ⟨h1, h2, h3, h4⟩ := q
  have : ¬ 2048 ≤ b.undo.length ∧ ¬ 256 ≤ b.outb.length ∧ ¬ 256 ≤ b.readLog.length := by omega
  simp [Burin.due, Burin.next, h1, this]

/-- A command whose meaning is an instruction that only leaves a context. -/
theorem exec_plain {s : State} {i : Instr} {op : BuOp} (h : s.Executes) (q : s.burinNow.Quiet)
    (hi : exec i s = .next (s.burinStep op)) {c : BuCtx} (ho : s.burinNow.op op = { ctx := c }) (l : Word)
    (hl : BitVec.ofNat 32 op.len = l) :
    s.Fetches l → exec i s = .next (s.withBurin (s.burinNow.next c (s.burinNow.ctx.pc + l) 1)) := by
  intro hf
  subst hl
  unfold State.Fetches at hf
  rw [BuOp.len_word] at hf
  rw [hi, State.burinStep_plain h hf (by rw [ho]) (by rw [ho]) (by rw [ho])]
  · rw [ho, Burin.retire_plain]
  · rw [ho, Burin.retire_plain]
    exact Burin.due_next q _ _ _

/-- The same where the context is a register written. -/
theorem exec_sets {s : State} {i : Instr} {op : BuOp} (h : s.Executes) (q : s.burinNow.Quiet)
    (hi : exec i s = .next (s.burinStep op)) {rd : BitVec 5} {v w : Word} (ho : s.burinNow.op op = s.burinNow.ctx.result rd v)
    (l : Word) (hl : BitVec.ofNat 32 op.len = l) (hv : v = w) : BurinSets s i rd w l := by
  subst hv
  exact exec_plain h q hi ho l hl

/-- A command whose meaning is an instruction that a retiring step ends, the boundary asking for no commit point. -/
theorem exec_retires {s : State} {i : Instr} {op : BuOp} {o : BuOut} (h : s.Executes)
    (hi : exec i s = .next (s.burinStep op)) (ho : s.burinNow.op op = o) (win : o.win = none) (seq : o.nxt = .seq)
    (wfe : o.isWfe = false) (due : (s.burinNow.retire op.len o).due o.isCommit = false) :
    s.Fetches (BitVec.ofNat 32 op.len) → exec i s = .next (s.withBurin (s.burinNow.retire op.len o)) := by
  intro hf
  unfold State.Fetches at hf
  rw [BuOp.len_word] at hf
  subst ho
  rw [hi, State.burinStep_plain h hf win seq wfe due]

/-- A command whose meaning is a taken branch. -/
theorem exec_goes {s : State} {i : Instr} {op : BuOp} {c : BuCtx} {t : Word} (h : s.Executes) (q : s.burinNow.Quiet)
    (hi : exec i s = .next (s.burinStep op)) (ho : s.burinNow.op op = { ctx := c, nxt := .goto t, cost := 2 })
    (l : Word) (hl : BitVec.ofNat 32 op.len = l) : BurinGoes s i c t l := by
  intro hf
  subst hl
  unfold State.Fetches at hf
  rw [BuOp.len_word] at hf
  have h' : s.rolledBack.burinRuns = true := h
  have all : ∀ x : BitVec 6, x &&& ~~~(0 : BitVec 6) = x := by decide
  have hr : s.burinNow.retire op.len { ctx := c, nxt := .goto t, cost := 2 } = s.burinNow.next c t 2 := by
    unfold Burin.retire Burin.next
    simp only [List.foldl_nil, List.append_nil, all]
  have ht : ∀ (x : State) (ty : BitVec 4) (p : DWord), (x.traceRec ty p).bu = x.bu := by
    intro x ty p
    unfold State.traceRec
    dsimp only
    repeat' split
    all_goals rfl
  have hd : ((s.withBurin (s.burinNow.next c t 2)).bu).due false = false := Burin.due_next q c t 2
  rw [hi]
  unfold State.burinStep
  simp only [h', Bool.not_true, Bool.false_eq_true, if_false, State.burinNow_eq, hf, ho]
  unfold State.retireOut
  dsimp only
  rw [if_neg (by simp)]
  unfold State.boundary
  have hs : (({ s with bu := s.burinNow } : State).modBu
      (fun b => b.retire op.len { ctx := c, nxt := .goto t, cost := 2 })).evtSync = s.withBurin (s.burinNow.next c t 2) := by
    rw [← hr]
    rfl
  rw [hs, ht, hd]
  rfl

/-- Where a branch that may go arrives. -/
theorem BuCtx.goto_eq {c : BuCtx} {t : Word} (h : c.mayGo t = true) (r : Bool) :
    c.goto t r = { ctx := c.arriving t, nxt := .goto t, cost := 2 } := by
  unfold BuCtx.mayGo at h
  simp only [Bool.and_eq_true, decide_eq_true_eq] at h
  unfold BuCtx.goto
  rw [if_neg (by omega), if_neg (by simp only [Bool.and_eq_true]; rcases Bool.or_eq_true _ _ |>.mp h.2 with x | x <;> simp_all)]
  rfl

end Sys2Proof.Machine
end

