-- ==== Sys2Proof/Laws/Link.lean ====
section
/-! SUPPORT. Links: what a command that runs one leaves, in terms of the stages of its plan. -/

namespace Sys2Proof.Machine

/-- Every row that runs a link does so through its plan, and then takes the row's own last step. -/
theorem exec_linkRow {i : Instr} {t : BitVec 14} {d : LinkData} {ops : Nat → Bool} {plan : State → Link → Plan}
    {sup : Link → List Byte} {s : State} {l : Link} (h : linkRow i = some (t, d, ops, plan, sup))
    (hl : s.link? t.toNat d ops = some l) (hr : notRestoring i s = true) :
    exec i s = .next (rowEnd i l.n (s.runPlan l (plan s l) (sup l))) := by
  cases i <;> simp only [linkRow, Option.some.injEq, Prod.mk.injEq, reduceCtorEq] at h
  all_goals
    obtain ⟨rfl, rfl, rfl, rfl, rfl⟩ := h
    simp only [notRestoring, Bool.not_eq_true'] at hr
    first
    | (show Host.Outcome.next (State.runOp _ _ _ _ _ _) = _
       unfold State.runOp
       rw [hl]
       rfl)
    | (show Host.Outcome.next (State.runDigest _ _ _ _ _) = _
       unfold State.runDigest State.runOp
       rw [hl, hr]
       rfl)
    | (show Host.Outcome.next (State.runStipple _ _ _ _ _ _) = _
       unfold State.runStipple State.runOp
       rw [hl]
       rfl)

/-- No access of a link fails while the host answers them all. -/
theorem Link.paramFailure_ok {l : Link} (h : l.data.access = .ok) (z : Bool) : l.paramFailure z = none := by
  cases z <;> simp [Link.paramFailure, h]

/-- No input read of a link fails while the host answers them all. -/
theorem Link.inFailure_ok {l : Link} (h : l.data.access = .ok) : l.inFailure = none := by
  simp [Link.inFailure, h]

/-- A link that comes through its start runs with its slots and its IV. -/
theorem State.beginLink_starts {s u : State} {l : Link} {p : Plan} {sup : List Byte} {e w : SlotEnt} {iv : Iv} {x : List Byte}
    (h : s.Starts l p sup e w iv x u) :
    ∃ z y, s.beginLink l p sup = .runs z e w iv ∧ z.inputOf l = (some x, y) ∧ u = y.drbgOpen l := by
  obtain ⟨h0, h1, h2, h3, h4, r, i, y, h5, h6, h7, h8, h9⟩ := h
  refine ⟨i.drbgClose l.tag false, y, ?_, h8, h9⟩
  unfold State.beginLink
  simp only [h0, h1, Link.paramFailure_ok h2, h3, h4, h5, h6, h7, Bool.true_eq_false, if_false]
  rfl

/-- A link whose work begins does its plan's work. -/
theorem State.runPlan_works {s u v : State} {l : Link} {p : Plan} {sup : List Byte} {e w : SlotEnt} {iv : Iv} {x : List Byte}
    {r : Ended} (h : s.Works l p sup e w iv x u) (hb : p.body u e w iv x = (r, v)) (hr : r ≠ .later)
    (hc : l.checkFails p e x r = false) :
    s.runPlan l p sup = ((v.drbgClose l.tag false).conclude l r).readsDone l.tag := by
  have main : ∃ z y, s.beginLink l p sup = .runs z e w iv ∧ z.inputOf l = (some x, y) ∧ u = y.drbgOpen l ∧
      l.data.access = .ok := by
    rcases h with h | ⟨⟨m, hm, rfl, rfl, rfl⟩, ha, y, hi, rfl⟩
    · obtain ⟨z, y, h1, h2, h3⟩ := State.beginLink_starts h
      exact ⟨z, y, h1, h2, h3, h.answered⟩
    · exact ⟨s, y, by simp [State.beginLink, hm], hi, rfl, ha⟩
  obtain ⟨z, y, h1, h2, rfl, ha⟩ := main
  unfold State.runPlan
  simp only [h1, h2, Link.inFailure_ok ha, hb]
  cases r <;> first | exact absurd rfl hr | simp only [hc]; rfl

end Sys2Proof.Machine
end

