-- ==== Sys2Proof/Laws/Port.lean ====
section
/-! SUPPORT. The register port: what a write that is accepted leaves, what one that is refused leaves, and that neither an
event record nor a journal entry moves the port's up signal. -/

namespace Sys2Proof.Machine

variable (s : State)

theorem State.transmit_rpUp (q : FabReq) (again : Bool) : (s.transmit q again).po.rpUp = s.po.rpUp := by
  unfold State.transmit
  dsimp only
  split <;> simp

theorem State.send_rpUp (q : FabReq) : (s.send q).po.rpUp = s.po.rpUp := by
  unfold State.send
  rw [State.transmit_rpUp]

theorem State.issue1_rpUp (a : Access) (addr len : Nat) (d : List Byte) : (s.issue1 a addr len d).2.po.rpUp = s.po.rpUp := by
  unfold State.issue1
  dsimp only
  split
  · split
    · rfl
    · rw [State.send_rpUp]
  · simp

theorem State.issueAll_rpUp (a : Access) (ps : List (Nat × Nat)) (d : List Byte) :
    (s.issueAll a ps d).2.po.rpUp = s.po.rpUp := by
  induction ps generalizing s d with
  | nil => rfl
  | cons p r ih =>
    obtain ⟨addr, len⟩ := p
    unfold State.issueAll
    dsimp only
    rw [ih, State.issue1_rpUp]

theorem State.fabWrite_rpUp (w : Who) (fn addr : Nat) (d : List Byte) (c du : Bool) :
    (s.fabWrite w fn addr d c du).2.po.rpUp = s.po.rpUp :=
  State.issueAll_rpUp _ _ _ _

theorem State.event_rpUp (q t a r : Nat) (d : List Byte) : (s.event q t a r d).po.rpUp = s.po.rpUp := by
  unfold State.event
  dsimp only
  split
  · rfl
  · split
    · simp [State.modFn]
    · unfold State.putEvent
      dsimp only
      split <;> simp [State.signal, State.modFn, State.fabWrite_rpUp]

theorem State.journalOut_rpUp (e : JEntry) (r : List JEntry) : (s.journalOut e r).po.rpUp = s.po.rpUp := by
  unfold State.journalOut
  dsimp only
  split <;> simp only [State.event_rpUp, State.fabWrite_rpUp]

theorem State.drainJournal_rpUp (n : Nat) : (State.drainJournal n s).po.rpUp = s.po.rpUp := by
  induction n generalizing s with
  | zero => rfl
  | succ n ih =>
    unfold State.drainJournal
    split
    · rfl
    · split
      · rw [ih, State.journalOut_rpUp]
      · rfl

theorem State.journal_rpUp (t f : Nat) (i : BitVec 16) (d : List Byte) : (s.journal t f i d).po.rpUp = s.po.rpUp := by
  unfold State.journal
  dsimp only
  rw [State.drainJournal_rpUp]
  split
  · rfl
  · split <;> rfl

theorem State.journalWrite_rpUp (w : WLog) (old : DWord) (i d : Bool) : (s.journalWrite w old i d).po.rpUp = s.po.rpUp := by
  unfold State.journalWrite
  split
  · exact State.journal_rpUp _ _ _ _ _
  · rfl

/-- A command's next state, by the operation it is a call of. -/
theorem exec_next {i : Instr} {s u t : State} (h : exec i s = .next u) (e : u = t) : exec i s = .next t := by rw [h, e]

/-- A write that the port accepts, and that leaves the port up, is carried out, journalled and answered. -/
theorem State.portWrite_accepted {s u : State} {off : Nat} {q : PortReq} (h : s.Accepts off q)
    (hu : regWrite s off (s.wreq off q) = u) (up : u.po.rpUp = true) (go : goOf off (beHi q.be) q.wdata = none) :
    s.portWrite off q = s.carried u off q := by
  obtain ⟨h1, h2, h3, h4, h5, h6⟩ := h
  have hc : (!beLo q.be && !beHi q.be) = false := by
    cases hl : beLo q.be <;> cases hh : beHi q.be <;> simp_all
  have hd : s.doWrite (wlog off q) = u.journalWrite (wlog off q) (regRead s off)
      (sameBut s u || s.setsHeldPort off (beLo q.be) q.wdata) false := by
    have : s.doWrite (wlog off q) =
        (if (regWrite s off (s.wreq off q)).po.rpUp = s.po.rpUp then
          (regWrite s off (s.wreq off q)).journalWrite (wlog off q) (regRead s off)
            (sameBut s (regWrite s off (s.wreq off q)) || s.setsHeldPort off (beLo q.be) q.wdata) false
         else regWrite s off (s.wreq off q)) := rfl
    rw [this, hu, up, h1, if_pos rfl]
  have h7 : (s.fc.halted && decide (off / 0x10000 ≠ 0x0E)) = false := by
    rcases h6 with h | h <;> simp [h]
  unfold State.portWrite
  simp only [wlog] at hd
  simp only [h1, h2, h3, hc, h5, h7, go, hd, Bool.not_true, Bool.false_or, Bool.false_eq_true, if_false]
  rw [State.journalWrite_rpUp, up]
  rfl

/-- The same for a named register: its command code stands in the word. -/
theorem State.command_accepted {s u : State} {off lo n v : Nat} {q : PortReq} (h : s.Accepts off (q.lower.force lo n v))
    (hu : regWrite s off (s.wreq off (q.lower.force lo n v)) = u) (up : u.po.rpUp = true)
    (go : goOf off (beHi (q.lower.force lo n v).be) (q.lower.force lo n v).wdata = none) :
    s.command off lo n v q = s.carried u off (q.lower.force lo n v) :=
  State.portWrite_accepted h hu up go

/-! What a page reads of a request -/

theorem loHalf_halves (a b : Word) : loHalf (halves a b) = a := by
  unfold loHalf halves; exact BitVec.extractLsb'_append_eq_right

theorem hiHalf_halves (a b : Word) : hiHalf (halves a b) = b := by
  unfold hiHalf halves; exact BitVec.extractLsb'_append_eq_left

theorem halves_loHalf_hiHalf (x : DWord) : halves (loHalf x) (hiHalf x) = x := by
  apply BitVec.eq_of_getLsbD_eq; intro i hi
  simp only [halves, loHalf, hiHalf, BitVec.getLsbD_append, BitVec.getLsbD_extractLsb']
  by_cases h : i < 32
  · simp [h]
  · simp only [h, decide_false, if_false]
    rw [show 32 + (i - 32) = i by omega]; simp; omega

/-- A field of the low half is that of the half's source. -/
theorem fld_halves_lo (x : DWord) (b : Word) {lo n : Nat} (h : lo + n ≤ 32) : fld (halves (loHalf x) b) lo n = fld x lo n := by
  apply BitVec.eq_of_getLsbD_eq; intro i hi
  have h1 : lo + i < 32 := by omega
  simp only [fld, halves, loHalf, BitVec.getLsbD_append, BitVec.getLsbD_extractLsb', hi, h1, decide_true, Bool.true_and, if_true]
  simp

/-- A forced field reads as what it was forced to. -/
theorem fld_force (q : PortReq) {lo n v : Nat} (h : lo + n ≤ 64) :
    fld (q.force lo n v).wdata lo n = BitVec.ofNat n v := by
  apply BitVec.eq_of_getLsbD_eq; intro i hi
  have h1 : lo + i < 64 := by omega
  simp only [fld, PortReq.force, BitVec.getLsbD_extractLsb', hi, BitVec.getLsbD_or, BitVec.getLsbD_and, BitVec.getLsbD_not,
    BitVec.getLsbD_ofNat, h1, decide_true, Bool.true_and, Nat.testBit_mul_two_pow]
  simp [Nat.testBit_two_pow_sub_one, hi]

/-- A field apart from the forced one is the request's. -/
theorem fld_force_apart (q : PortReq) {lo n v l m : Nat} (hv : v < 2 ^ n) (h : l + m ≤ lo ∨ lo + n ≤ l) :
    fld (q.force lo n v).wdata l m = fld q.wdata l m := by
  apply BitVec.eq_of_getLsbD_eq; intro i hi
  have h2 : v * 2 ^ lo < 2 ^ (lo + n) := by
    rw [Nat.pow_add, Nat.mul_comm]; exact Nat.mul_lt_mul_of_pos_left hv (Nat.two_pow_pos lo)
  have h3 : (v * 2 ^ lo).testBit (l + i) = false := by
    rw [Nat.testBit_mul_two_pow]
    rcases h with h | h
    · simp; omega
    · have : v.testBit (l + i - lo) = false :=
        Nat.testBit_lt_two_pow (Nat.lt_of_lt_of_le hv (Nat.pow_le_pow_right (by decide) (by omega)))
      simp [this]
  have h4 : ((2 ^ n - 1) * 2 ^ lo).testBit (l + i) = false := by
    rw [Nat.testBit_mul_two_pow, Nat.testBit_two_pow_sub_one]
    rcases h with h | h <;> simp <;> omega
  simp only [fld, PortReq.force, BitVec.getLsbD_extractLsb', hi, BitVec.getLsbD_or, BitVec.getLsbD_and, BitVec.getLsbD_not,
    BitVec.getLsbD_ofNat, decide_true, Bool.true_and, h3, h4, Bool.and_false, Bool.or_false, Bool.not_false, Bool.and_true]
  by_cases hb : l + i < 64
  · simp [hb]
  · simp [hb, BitVec.getLsbD_of_ge q.wdata _ (by omega : 64 ≤ l + i)]

/-- A bit is a field of one bit. -/
theorem bit_of_fld {x y : DWord} {i : Nat} (h : fld x i 1 = fld y i 1) : bit x i = bit y i := by
  have := congrArg (fun b => b.getLsbD 0) h
  simpa [fld, bit, BitVec.getLsbD_extractLsb'] using this

theorem bit_force (q : PortReq) {lo v : Nat} (h : lo < 64) (hv : v < 2) : bit (q.force lo 1 v).wdata lo = decide (v = 1) := by
  have := congrArg (fun b => b.getLsbD 0) (fld_force q (lo := lo) (n := 1) (v := v) (by omega))
  have e : bit (q.force lo 1 v).wdata lo = (BitVec.ofNat 1 v).getLsbD 0 := by
    simpa [fld, bit, BitVec.getLsbD_extractLsb'] using this
  rw [e]
  rcases (by omega : v = 0 ∨ v = 1) with rfl | rfl <;> rfl

theorem bit_force_apart (q : PortReq) {lo n v i : Nat} (hv : v < 2 ^ n) (h : i < lo ∨ lo + n ≤ i) :
    bit (q.force lo n v).wdata i = bit q.wdata i :=
  bit_of_fld (fld_force_apart q hv (by omega))

@[simp] theorem PortReq.force_be (q : PortReq) (lo n v : Nat) : (q.force lo n v).be = q.be := rfl
@[simp] theorem PortReq.force_initiator (q : PortReq) (lo n v : Nat) : (q.force lo n v).initiator = q.initiator := rfl
@[simp] theorem PortReq.lower_wdata (q : PortReq) : q.lower.wdata = q.wdata := by unfold PortReq.lower; split <;> rfl
@[simp] theorem PortReq.upper_wdata (q : PortReq) : q.upper.wdata = q.wdata := by unfold PortReq.upper; split <;> rfl
@[simp] theorem PortReq.whole_wdata (q : PortReq) : q.whole.wdata = q.wdata := by unfold PortReq.whole; split <;> rfl

theorem PortReq.lower_be {q : PortReq} (h : (beLo (q.lower).be || beHi (q.lower).be) = true) : q.lower.be = 0x0F := by
  unfold PortReq.lower at *
  split
  · rfl
  · next hn => rw [if_neg hn] at h; exact absurd h hn

theorem PortReq.upper_be {q : PortReq} (h : (beLo (q.upper).be || beHi (q.upper).be) = true) : q.upper.be = 0xF0 := by
  unfold PortReq.upper at *
  split
  · rfl
  · next hn => rw [if_neg hn] at h; exact absurd h hn

theorem PortReq.whole_be {q : PortReq} (h : (beLo (q.whole).be || beHi (q.whole).be) = true) : q.whole.be = 0xFF := by
  unfold PortReq.whole at *
  split
  · rfl
  · next hn => rw [if_neg hn] at h; exact absurd h hn

/-- A request for a lower 32-bit register: the page sees its half, and a field of that half is the request's. -/
theorem State.wreq_lower {s : State} {off : Nat} {q : PortReq} (h : q.be = 0x0F) :
    (s.wreq off q).lo = true ∧ (s.wreq off q).hi = false ∧
    ∀ lo n, lo + n ≤ 32 → fld (s.wreq off q).x lo n = fld q.wdata lo n := by
  have h1 : beLo q.be = true := by rw [h]; decide
  have h2 : beHi q.be = false := by rw [h]; decide
  refine ⟨h1, h2, fun lo n hn => ?_⟩
  show fld (halves (loHalf (if beLo q.be then q.wdata else regRead s off)) _) lo n = _
  rw [fld_halves_lo _ _ hn, if_pos h1]

/-- A bit of the low half is the request's. -/
theorem State.wreq_lower_bit {s : State} {off : Nat} {q : PortReq} (h : q.be = 0x0F) {i : Nat} (hi : i < 32) :
    bit (s.wreq off q).x i = bit q.wdata i :=
  bit_of_fld ((State.wreq_lower h).2.2 i 1 (by omega))

/-- A request for an upper 32-bit register. -/
theorem State.wreq_upper {s : State} {off : Nat} {q : PortReq} (h : q.be = 0xF0) :
    (s.wreq off q).lo = false ∧ (s.wreq off q).hi = true ∧ hiHalf (s.wreq off q).x = hiHalf q.wdata := by
  have h1 : beLo q.be = false := by rw [h]; decide
  have h2 : beHi q.be = true := by rw [h]; decide
  refine ⟨h1, h2, ?_⟩
  show hiHalf (halves _ (hiHalf (if beHi q.be then q.wdata else regRead s off))) = _
  rw [hiHalf_halves, if_pos h2]

/-- A request for a whole register: the page sees the request's word. -/
theorem State.wreq_whole {s : State} {off : Nat} {q : PortReq} (h : q.be = 0xFF) :
    s.wreq off q = { x := q.wdata, lo := true, hi := true, init := q.initiator, world := q.world, off := off } := by
  have h1 : beLo q.be = true := by rw [h]; decide
  have h2 : beHi q.be = true := by rw [h]; decide
  unfold State.wreq
  rw [h1, h2]
  simp only [if_true, halves_loHalf_hiHalf]

/-! Function pages -/

theorem fnPage_bounds {f o : Nat} (hf : f < 1024) (ho : o < 0x4000) :
    (0x400000 ≤ fnPage f o ∧ fnPage f o < 0x1400000) ∧ (fnPage f o - 0x400000) / 0x4000 = f ∧
    (fnPage f o - 0x400000) % 0x4000 = o := by
  unfold fnPage; omega

/-- A write to a function's page. -/
theorem regWrite_fnPage (s : State) {f o : Nat} (q : WReq) (hf : f < 1024) (ho : o < 0x4000) :
    regWrite s (fnPage f o) q = pageWrite s f o q := by
  obtain ⟨h1, h2, h3⟩ := fnPage_bounds hf ho
  unfold regWrite
  simp only [h1, h2, h3, and_self, if_true]

/-- A word of a function's page. -/
theorem regRead_fnPage (s : State) {f o : Nat} (hf : f < 1024) (ho : o < 0x4000) :
    regRead s (fnPage f o) = pageRead s f o := by
  obtain ⟨h1, h2, h3⟩ := fnPage_bounds hf ho
  unfold regRead
  simp only [h1, h2, h3, and_self, if_true]

/-- Only the send block's GO is a go (R303). -/
theorem goOf_fnPage {f o : Nat} (hi : Bool) (x : DWord) (hf : f < 1024) (ho : o < 0x4000) (h : o ≠ 0x1038) :
    goOf (fnPage f o) hi x = none := by
  obtain ⟨h1, h2, h3⟩ := fnPage_bounds hf ho
  unfold goOf
  rw [if_neg]
  rintro ⟨_, _, h4, _⟩
  exact h (h3 ▸ h4)

theorem goOf_below {off : Nat} (hi : Bool) (x : DWord) (h : off < 0x400000) : goOf off hi x = none := by
  unfold goOf
  rw [if_neg]
  rintro ⟨h1, _⟩
  omega

/-! A named register's command, from its page's effect -/

/-- A write to a page below the function pages does what the page does, when the port is up after it. -/
theorem PortDoes.of_page {s u : State} {off : Nat} {q : PortReq} {i : Instr} (hi : exec i s = .next (s.portWrite off q))
    (ho : off < 0x400000) (hw : s.Accepts off q → regWrite s off (s.wreq off q) = u)
    (up : s.Accepts off q → u.po.rpUp = true) : PortDoes s i off q u := by
  intro acc
  rw [hi, State.portWrite_accepted acc (hw acc) (up acc) (goOf_below _ _ ho)]

/-- The same on a function's page. -/
theorem PortDoes.of_fnPage {s u : State} {f o : Nat} {q : PortReq} {i : Instr}
    (hi : exec i s = .next (s.portWrite (fnPage f o) q)) (hf : f < 1024) (ho : o < 0x4000) (hg : o ≠ 0x1038)
    (hw : s.Accepts (fnPage f o) q → pageWrite s f o (s.wreq (fnPage f o) q) = u)
    (up : s.Accepts (fnPage f o) q → u.po.rpUp = true) : PortDoes s i (fnPage f o) q u := by
  intro acc
  rw [hi, State.portWrite_accepted acc ((regWrite_fnPage s _ hf ho).trans (hw acc)) (up acc) (goOf_fnPage _ _ hf ho hg)]

/-- A page other than FC_ is written only while the block is not halted (R326). -/
theorem State.Accepts.notHalted {s : State} {off : Nat} {q : PortReq} (h : s.Accepts off q) (hp : off / 0x10000 ≠ 0x0E) :
    s.fc.halted = false := by
  rcases h.running with h' | h'
  · exact h'
  · exact absurd h' hp

/-- The reserved identifiers do not pass the port (R353). -/
theorem State.Accepts.notDebug {s : State} {off : Nat} {q : PortReq} (h : s.Accepts off q) : q.initiator ≠ debugId := by
  intro e
  have := h.owner
  rw [e] at this
  simp [State.ownerPasses] at this

theorem State.Accepts.notBurin {s : State} {off : Nat} {q : PortReq} (h : s.Accepts off q) : q.initiator ≠ burinId := by
  intro e
  have := h.owner
  rw [e] at this
  simp [State.ownerPasses] at this

/-- What a page sees of a request for a lower 32-bit register. -/
structure LowWord (s : State) (off : Nat) (q : PortReq) : Prop where
  lo : (s.wreq off q).lo = true
  hi : (s.wreq off q).hi = false
  fld : ∀ l n, l + n ≤ 32 → fld (s.wreq off q).x l n = fld q.wdata l n
  bit : ∀ i, i < 32 → bit (s.wreq off q).x i = bit q.wdata i

theorem LowWord.of_be {s : State} {off : Nat} {q : PortReq} (h : q.be = 0x0F) : LowWord s off q :=
  ⟨(State.wreq_lower h).1, (State.wreq_lower h).2.1, (State.wreq_lower h).2.2, fun _ hi => State.wreq_lower_bit h hi⟩

theorem State.Accepts.lower {s : State} {off : Nat} {q : PortReq} (h : s.Accepts off q.lower) : LowWord s off q.lower :=
  .of_be (PortReq.lower_be h.covers)

theorem State.Accepts.forced {s : State} {off lo n v : Nat} {q : PortReq} (h : s.Accepts off (q.lower.force lo n v)) :
    LowWord s off (q.lower.force lo n v) :=
  .of_be (PortReq.lower_be (q := q) h.covers)

/-- A read that the port accepts is answered with the word, after the read's own effects. -/
theorem State.portRead_accepted {s : State} {off : Nat} {q : PortReq} (h : s.Accepts off q) :
    s.portRead off q =
      (s.windowRead off (beLo q.be) (beHi q.be)).2.rpAnswer
        (covered (beLo q.be) (beHi q.be) (s.windowRead off (beLo q.be) (beHi q.be)).1) q.tag false := by
  obtain ⟨h1, h2, h3, h4, h5, h6⟩ := h
  have hc : (!beLo q.be && !beHi q.be) = false := by
    cases hl : beLo q.be <;> cases hh : beHi q.be <;> simp_all
  unfold State.portRead
  simp [h1, h2, h3, hc, h5]

end Sys2Proof.Machine
end

