-- ==== Sys2Proof/WellFormed.lean ====
section
/-! DEFINITION. Which commands the ports of the block can present: the operands that the spec's own limits shut out
(13_faults_repair.md Table 13.2, 15_power_startup.md R376, 16_ports.md R397, R400, R407). The meanings answer the
others too. -/

namespace Sys2Proof

/-- Byte enables cover the lower half, the upper half or the whole of the word (R407). -/
def PortReq.wf (q : PortReq) : Bool := decide (q.be = 0x0F ∨ q.be = 0xF0 ∨ q.be = 0xFF)

/-- Lengths that the 32-bit length fields of a link can ask for (R76). -/
def LinkData.wf (d : LinkData) : Bool :=
  decide (d.param.length < 2 ^ 32) && decide (d.input.length < 2 ^ 32) && decide (d.again.length = 0 ∨ d.again.length = d.input.length)

/-- A frame has bytes, and its last beat is no earlier than its first (R116). -/
def FrameIn.wf (f : FrameIn) : Bool := decide (f.bytes ≠ []) && decide (f.first.toNat ≤ f.last.toNat)

/-- The parts of a vault read: a record of 256 bytes, up to six nodes of 64, a blob and an authority image that its reads
covered (R254). -/
def VaultRead.wf (r : VaultRead) : Bool :=
  decide (r.record.length ≤ 256) && decide (r.nodes.length ≤ 6) && r.nodes.all (fun n => decide (n.length ≤ 64)) &&
  decide (r.blob.length ≤ 4096)

/-- The data of one fabric read: at most 4,096 bytes (R400). -/
def readOk (l : List Byte) : Bool := decide (l.length ≤ 4096)

/-- A unit that the pools hold (Table 13.2). -/
def unitOk (u : BitVec 12) : Bool :=
  let n := u.toNat
  decide (n = 0x010 ∨ n = 0x011 ∨ (0x100 ≤ n ∧ n < 0x112) ∨ (0x120 ≤ n ∧ n < 0x129) ∨ (0x140 ≤ n ∧ n < 0x148) ∨
    (0x200 < n ∧ n < 0x240 ∧ 1 ≤ n % 16 ∧ n % 16 ≤ 7))

/-- A source of Table 13.2. -/
def sourceOk (u : BitVec 12) : Bool :=
  let n := u.toNat
  decide (n ≤ 0x006 ∨ (0x008 ≤ n ∧ n ≤ 0x00E) ∨ (0x200 ≤ n ∧ n < 0x240 ∧ n % 16 ≤ 8) ∨ (0x300 ≤ n ∧ n ≤ 0x304) ∨
    (0x310 ≤ n ∧ n < 0x318)) || unitOk u

/-- A domain of Table 15.1. -/
def domOk (d : BitVec 6) : Bool := decide (d.toNat < 52)

/-- The command is one that the ports can present. -/
def Instr.wf (i : Instr) : Bool :=
  match i with
  | .registerWrite _ q | .flrReq _ q | .pstateNotice _ q | .eqCtrlWrite _ q | .eqBaseWrite _ q | .eqConsWrite _ q
  | .eqLostRead _ q | .kick _ q | .doorbellEnable _ q | .doorbellDisable _ q | .vecCfgWrite _ q | .portEnable _ q
  | .portDisable _ q | .ploadRead _ q | .mailboxGo _ q | .mailboxRelease _ q | .mbStatWrite _ q | .dmaStart _ q
  | .dmaPause _ q | .dmaAbort _ q | .lineCfgWrite _ q | .registerRead _ q => q.wf
  | .ftLoad q | .ftCommit q | .ftEnable q | .ftResetDrain q | .ftResetSquash q | .ftUnbind q | .ftCmdUndefined q
  | .ftNumvfWrite q | .rtEnable q | .rtDisable q | .rtCmdUndefined q | .scSpillWrite q | .admitRead q
  | .profileRequest q | .overrideWrite q | .powerCapWrite q | .kmLoad q | .kmCommit q | .kmInvalidate q | .activate q
  | .kmCmdUndefined q | .ssLoad q | .ssCommit q | .ssInvalidate q | .ssCmdUndefined q | .dlSpillWrite q | .reseed q
  | .rngRestart q | .rawModeWrite q | .pkRngCtrlWrite q | .rngRawRead q | .pvRegionWrite q | .pvBlobWrite q
  | .etchOpen q | .etchClose q | .etchCtrlClear q | .etchLock q | .etchDataWrite q | .etchDataRead q | .bootPtrWrite q
  | .fcAck q | .fcCtrlWrite q | .srcCfgWrite q | .captureRearm q | .injectionGo q | .unitReturn q
  | .fcUnitCmdUndefined q | .holdOff q | .blockReset q | .softwareBurnish q | .softwareSession q | .monitorTest q
  | .tamperRecordClear q | .arLoad q | .arCommit q | .arInvalidate q | .arCmdUndefined q | .poEntryWrite q
  | .dgCtrlWrite q | .jnCtrlWrite q | .jnConsWrite q | .jnLostRead q | .gcFabricWrite q => q.wf
  | .flrRequest _ _ | .fetchError _ _ | .cqProdUpdate _ _ | .messageAccept _ _ | .tagComplete _ _ | .bootVerify _ _
  | .mov _ _ | .clz _ _ | .popc _ _ | .bswap _ _ | .neg _ _ | .li _ _ | .lui _ _ | .lws _ _ | .sws _ _ | .beqz _ _
  | .bnez _ _ | .mfs _ _ | .mts _ _ | .dmaBurstDone _ _ | .dmaRetryTimer _ _ | .monitorTestEnd _ _
  | .fabricResponseFail _ _ | .dbgAccess _ _ | .illegal _ _ => true
  | .drainTimeout _ | .resetComplete _ | .pollTimer _ | .packetIssue _ | .linkEnd _ | .completionWriteFail _
  | .ringStopComplete _ | .nop _ | .unsupportedOpcode _ | .ageTimer _ | .vecTimer _
  | .interruptOffer _ | .offerRetry _ | .frameParse _ | .parserGapMarker _ | .portDrained _ | .actTimeReached _
  | .spillWriteDone _ | .healthTestFail _ | .routineBudget _ | .add _ | .sub _ | .andOp _ | .orOp _ | .xorOp _
  | .shl _ | .shr _ | .sar _ | .slt _ | .sltu _ | .addi _ | .shli _ | .shri _ | .sari _ | .jump _ | .call _ | .callr _
  | .jr _ | .mul _ | .mulu _ | .adj _ | .adjl _ | .mbPing _ | .mbVersion _ | .mbCapacity _ | .mbWindow _
  | .mbFunction _ | .mbUnknownCode _ | .dmaCrcWritten _ | .collectorCe _ | .collectorUe _ | .blockResetInput _
  | .startupReady _ | .alarmEvent _ | .fabricRetryTimer _ | .fabricTimeout _ | .fabricParityError _ | .timeUpdate _
  | .dbgEnable _ | .cellLow _ => true
  | .enableCheck _ l | .headerReadReturn _ l | .entryReadReturn _ l | .linkTableReadReturn _ l | .contextRestore _ l => readOk l
  | .profileChangeDone | .kmBusyClear | .reseedTimer | .batchClose | .batchCommit | .batchFail | .etchOpenDone
  | .loadWriteback | .ret | .productLands | .sysNop | .wfe | .wfeWake | .commit | .commitTimer | .tret | .brk
  | .lockstepMismatch | .mainPowerLoss | .mainPowerReturn | .refLost | .holdover | .refReturn | .cellCritical
  | .arSyncDone | .tapIdcode | .tapBypass | .tapReset | .reseedDone | .backupCellDepleted | .powerOnResetAsserted => true
  | .idleGate u | .spareProofWake u => unitOk u
  | .impressionTimer u d => unitOk u && d.wf
  | .suspendPoint _ _ d => d.wf
  | .frameArrival _ f => f.wf
  | .cbcEncrypt _ d | .cbcDecrypt _ d | .ctrEncrypt _ d | .ctrDecrypt _ d | .gcmEncrypt _ d | .gcmDecrypt _ d
  | .gmacGenerate _ d | .gmacVerify _ d | .xtsEncrypt _ d | .xtsDecrypt _ d | .ccmEncrypt _ d | .ccmDecrypt _ d
  | .kwWrap _ d | .kwUnwrap _ d | .kwpWrap _ d | .kwpUnwrap _ d | .ccpEncrypt _ d | .ccpDecrypt _ d | .sha2 _ d
  | .sha3 _ d | .shake _ d | .hmac _ d | .hkdf _ d | .hkdfExtract _ d | .hkdfExpand _ d | .kdfCtr _ d | .sessStart _ d
  | .sessUpdate _ d | .sessFinish _ d | .sessAbort _ d | .rsaOaepEncrypt _ d | .rsaOaepDecrypt _ d | .rsaPssSign _ d
  | .rsaPssVerify _ d | .rsaPkcs1Sign _ d | .rsaPkcs1Verify _ d | .rsaPublicRaw _ d | .ecdsaKeygen _ d
  | .ecdsaSign _ d | .ecdsaVerify _ d | .eddsaKeygen _ d | .eddsaSign _ d | .eddsaVerify _ d | .eddsaVerifyBatch _ d
  | .xdhKeygen _ d | .xdhAgree _ d | .pkPublic _ d | .mlkemKeygen _ d | .mlkemEncaps _ d | .mlkemDecaps _ d
  | .mldsaKeygen _ d | .mldsaSign _ d | .mldsaVerify _ d | .mldsaVerifyBatch _ d | .hssVerify _ d | .slhdsaVerify _ d
  | .pkPublicPq _ d | .random _ d | .stipplePack _ d | .stippleUnpack _ d | .vaultCreate _ d | .vaultImport _ d
  | .vaultExport _ d | .vaultImportPublic _ d | .vaultDerive _ d | .vaultSetAttr _ d | .vaultQuery _ d
  | .vaultRetire _ d | .vaultAuthRegister _ d | .vaultAuthClear _ d | .vaultRekeySweep _ d | .vaultEscrowExport _ d
  | .vaultEscrowImport _ d | .plateMark _ d | .plateKeys _ d | .etchLoad _ d | .etchClear _ d | .etchedCommand _ d => d.wf
  | .sweepStep r => r.wf
  | .missReadReturn _ r => r.wf
  | .andn _ _ _ | .ror _ _ _ | .minOp _ _ _ | .maxOp _ _ _ | .minu _ _ _ | .maxu _ _ _ | .andi _ _ _ | .ori _ _ _
  | .xori _ _ _ | .slti _ _ _ | .lw _ _ _ | .lh _ _ _ | .lhu _ _ _ | .lb _ _ _ | .lbu _ _ _ | .sw _ _ _ | .sh _ _ _
  | .sb _ _ _ | .beq _ _ _ | .bne _ _ _ | .blt _ _ _ | .bge _ _ _ | .bltu _ _ _ | .bgeu _ _ _ | .dmaBurstFail _ _ _ => true
  | .etch _ _ _ _ => true
  | .checkerReport u k _ => sourceOk u && decide (k ≠ 0)
  | .faultClassify u => sourceOk u
  | .proofingCycle u _ => unitOk u
  | .pwrAck d _ | .domainRestartDone d _ => domOk d
  | .domainAckTimeout d | .domainFail1ms d => domOk d
  | .powerOnReset _ | .identityValid _ => true
  | .creditReturn _ n => decide (n ≠ 0)
  | .dmaReadReturn _ _ l => readOk l

end Sys2Proof
end

