-- ==== Sys2Proof/Tests/Slice0.lean ====
section
/-! SUPPORT. Tests of the model: well-formedness refuses ill-formed terms, words of the manual's encodings and of its
formats, a few steps, and for every statement with hypotheses the states and operands that meet them (`witness_<Name>`:
one conjunct per clause, at the ends of its ranges). -/

namespace Sys2Proof.Tests

open Sys2Proof Sys2Proof.Machine

/-! States and requests that the tests share -/

/-- The block with its ports up. -/
def up : State := { State.reset with po := { State.reset.po with rpUp := true, fiUp := true, fpaUp := true, fpbUp := true } }

/-- A request of initiator 1 in the secure world. -/
def rq (be : BitVec 8) (d : DWord) : PortReq :=
  { initiator := 1, world := true, be := be, wdata := d, tag := 0, parityOk := true }

/-- `State.Accepts`, decided. -/
def takes (s : State) (off : Nat) (q : PortReq) : Bool :=
  s.po.rpUp && q.parityOk && s.ownerPasses off q.initiator q.world true && (beLo q.be || beHi q.be) && !s.fc.lockdown &&
  (!s.fc.halted || decide (off / 0x10000 = 0x0E))

theorem accepts_of_takes {s : State} {off : Nat} {q : PortReq} (h : takes s off q = true) : s.Accepts off q := by
  simp only [takes, Bool.and_eq_true, Bool.or_eq_true, Bool.not_eq_true', decide_eq_true_eq] at h
  obtain ⟨⟨⟨⟨⟨a, b⟩, c⟩, d⟩, e⟩, f⟩ := h
  exact ⟨a, b, c, by simpa using d, e, f⟩

/-- `State.Executes`, `State.Fetches` and `Burin.Quiet`, decided. -/
def ready (s : State) : Bool :=
  s.rolledBack.burinRuns && (fetches s.burinNow.ctx.pc 2 && fetches s.burinNow.ctx.pc 4) && !s.burinNow.commitDue && decide (s.burinNow.undo.length + 16 < 2048) &&
  decide (s.burinNow.outb.length + 1 < 256) && decide (s.burinNow.readLog.length + 1 < 256)

theorem executes_of_ready {s : State} (h : ready s = true) :
    s.Executes ∧ s.Fetches 2 ∧ s.Fetches 4 ∧ s.burinNow.Quiet := by
  simp only [ready, Bool.and_eq_true, Bool.not_eq_true', decide_eq_true_eq] at h
  obtain ⟨⟨⟨⟨⟨a, b, b'⟩, c⟩, d⟩, e⟩, f⟩ := h
  exact ⟨a, b, b', c, d, e, f⟩

/-- Burin in RUN with the context `c`. -/
def inRun (c : BuCtx) : State := { up with bu := { state := .run, ctx := c } }

/-- Register 1 holds `v`, and the program counter is at the firmware code. -/
def with1 (v : Word) : State := inRun { regs := [(1, v)], pc := 0x100000 }

/-- The command answers a next state with the property. -/
def lands (o : Host.Outcome State Fault Refusal) (p : State → Bool) : Bool :=
  match o with
  | .next t => p t
  | .fault _ => false
  | .refused _ => false

/-! Well-formedness -/

theorem test_wf_byte_enables : (Instr.ftLoad (rq 0x3C 0)).wf = false ∧ (Instr.ftLoad (rq 0xF0 0)).wf = true := by decide

theorem test_wf_link_data :
    (Instr.sha2 0 { param := [], input := [1, 2], again := [1], access := .ok, checkFails := 0 }).wf = false ∧
    (Instr.sha2 0 { param := [], input := [1, 2], again := [1, 2], access := .ok, checkFails := 0 }).wf = true := by decide

theorem test_wf_frame :
    (Instr.frameArrival 0 { bytes := [], abort := false, cutBySof := false, first := 0, last := 0 }).wf = false ∧
    (Instr.frameArrival 0 { bytes := [1], abort := false, cutBySof := false, first := 1, last := 0 }).wf = false ∧
    (Instr.frameArrival 3 { bytes := [1], abort := true, cutBySof := false, first := 0, last := 0 }).wf = true := by decide

theorem test_wf_vault_read :
    (Instr.missReadReturn 1 { record := List.replicate 257 0, nodes := [], blob := [], image := [], failed := false }).wf = false ∧
    (Instr.sweepStep { record := [], nodes := List.replicate 7 [], blob := [], image := [], failed := false }).wf = false ∧
    (Instr.sweepStep { record := [], nodes := [List.replicate 65 0], blob := [], image := [], failed := false }).wf = false := by
  decide +kernel

theorem test_wf_reads : (Instr.enableCheck 0 (List.replicate 4097 0)).wf = false ∧
    (Instr.dmaReadReturn 0 0 (List.replicate 4097 0)).wf = false := by decide +kernel

theorem test_wf_units : (Instr.proofingCycle 0x12F true).wf = false ∧ (Instr.proofingCycle 0x111 true).wf = true ∧
    (Instr.idleGate 0x209).wf = false ∧ (Instr.impressionTimer 0x148 { param := [], input := [], again := [], access := .ok, checkFails := 0 }).wf = false := by decide

theorem test_wf_sources : (Instr.faultClassify 7).wf = false ∧ (Instr.checkerReport 7 1 0).wf = false ∧
    (Instr.checkerReport 8 0 0).wf = false ∧ (Instr.checkerReport 8 1 0).wf = true := by decide

theorem test_wf_domains : (Instr.pwrAck 52 true).wf = false ∧ (Instr.domainFail1ms 60).wf = false ∧
    (Instr.pwrAck 51 true).wf = true := by decide

theorem test_wf_credits : (Instr.creditReturn .rpReq 0).wf = false ∧ (Instr.creditReturn .rpReq 1).wf = true := by decide

/-! Reset and the queue -/

theorem test_reset_memories : State.reset.memoriesWf = true := by decide

theorem test_reset_idles : step State.reset = .next State.reset := by rfl

theorem test_front_first : step { up with pending := [.tapBypass, .tapReset] } = exec .tapBypass { up with pending := [.tapReset] } := by
  rfl

/-! Burin -/

/-- ADD wraps; R0 stays 0. -/
theorem test_burin_add :
    lands (exec (.add (.long 2 1 1)) (with1 0x80000001)) (fun t => decide (t.bu.ctx.get 2 = 2 ∧ t.bu.ctx.pc = 0x100004)) = true ∧
    lands (exec (.add (.short 0 1)) (with1 5)) (fun t => decide (t.bu.ctx.get 0 = 0 ∧ t.bu.ctx.pc = 0x100002)) = true := by
  decide +kernel

/-- SAR keeps the sign; a shift takes the low five bits of rb. -/
theorem test_burin_shift :
    lands (exec (.sar (.short 1 1)) (with1 0x80000021)) (fun t => decide (t.bu.ctx.get 1 = 0xC0000010)) = true := by
  decide +kernel

/-- Signed multiply of -1 by -1. -/
theorem test_burin_mul :
    lands (exec (.mul (.short 1 1)) (with1 0xFFFFFFFF))
      (fun t => decide (t.bu.products = [{ issued := 0, hi := 0, lo := 1 }])) = true := by decide +kernel

theorem witness_BurinArithmetic : ready (with1 0xFFFFFFFF) = true ∧
    ready { with1 0 with bu := { (with1 0).bu with
      undo := List.replicate 2031 (0, 0), outb := List.replicate 254 (0, 0, false), readLog := List.replicate 254 (0, 0, none) } } = true := by
  decide +kernel

theorem witness_BurinComparisons : ready (with1 0x80000000) = true := by decide

theorem witness_BurinShifts : ready (with1 31) = true := by decide

/-- A short and a long word. -/
theorem witness_BurinDecodeOfEncode :
    encodeBu (.mov 5 6) = .short 0b0000000010100110 ∧ encodeBu (.lw 4 3 4) = .long 0b1001100000100000 0b1100000000000100 := by
  decide

theorem witness_BurinRegisterFile : (1 : BitVec 5) ≠ 0 ∧ (31 : BitVec 5) ≠ 0 := by decide

/-- The last byte, halfword and word of data SRAM, the first and last word of the data view of instruction SRAM, and the
routine area's own window. -/
theorem witness_BurinLoadForms :
    (ready (with1 0x3FFFF) = true ∧ dataArea (inArea (with1 0).burinNow.ctx.pc) false 0x3FFFF 1 = .dsram ∧
      dataArea false false 0x3FFFE 2 = .dsram ∧ dataArea false false 0x3FFFC 4 = .dsram ∧ dataArea false false 0x100000 4 = .iview ∧
      dataArea false false 0x13FFFC 4 = .iview ∧ (0x3FFFF : Word) = (with1 0x3FFFF).burinNow.ctx.get 1 + (0 : BitVec 14).signExtend 32) ∧
    (ready (inRun { pc := routineLo, dsp := 0x34000 }) = true ∧
      dataArea (inArea (inRun { pc := routineLo }).burinNow.ctx.pc) false 0x34000 4 = .dsram ∧
      (0x34000 : Word) = (inRun { pc := routineLo, dsp := 0x34000 }).burinNow.ctx.dsp + 4 * (0 : BitVec 5).setWidth 32) ∧
    (let s : State := { with1 0 with bu := { (with1 0).bu with loads := [{ rd := 31, val := 7, slotDone := true }] } }
     s.burinRuns = true ∧ s.bu.products = [] ∧ ready s = true ∧ s.bu.commitDue = false) := by decide +kernel

theorem witness_BurinStoreForms :
    ready (with1 0x3FFFC) = true ∧ dataArea (inArea (with1 0).burinNow.ctx.pc) true 0x3FFFC 4 = .dsram ∧
    dataArea false true 0x3FFFE 2 = .dsram ∧ dataArea false true 0x3FFFF 1 = .dsram ∧
    (0x3FFFC : Word) = (with1 0x3FFFC).burinNow.ctx.get 1 + (0 : BitVec 14).signExtend 32 := by decide +kernel

/-- A jump to itself, a call with 63 and a return with one address on the stack, and a return from a trap. -/
theorem witness_BurinControlFlow :
    (ready (with1 0x100000) = true ∧ (with1 0x100000).burinNow.ctx.mayGo ((with1 0x100000).burinNow.ctx.pc + 2 * (0 : Word)) = true ∧
      (with1 0x100000).burinNow.ctx.mayGo ((with1 0x100000).burinNow.ctx.get 1) = true) ∧
    (let s := inRun { pc := 0x100000, stack := List.replicate 63 0x100010, epc := 0x13FFFE, inTrap := true }
     ready s = true ∧ s.burinNow.ctx.stack.length < 64 ∧ s.burinNow.ctx.stack.head? = some 0x100010 ∧
       s.burinNow.ctx.mayGo s.burinNow.ctx.epc = true) := by decide +kernel

theorem witness_BurinMultiplyAndSpecials :
    (ready (with1 0x80000000) = true ∧ inArea (with1 0).burinNow.ctx.pc = false) ∧
    (let s : State := { with1 0 with bu := { (with1 0).bu with products := [{ issued := 0, hi := 1, lo := 2 }] } }
     s.burinRuns = true ∧ ready s = true ∧ s.bu.loads = []) := by decide +kernel

/-- A word that no instruction has, in firmware and in the routine area with a trap taken; a word whose second half lies beyond the
firmware, and a halfword beyond it. -/
theorem witness_BurinTraps :
    ready (with1 0) = true ∧ (with1 0).burinNow.loads = [] ∧ (with1 0).burinNow.ctx.inTrap = false ∧
    decodeBu 0x7FFF 0 = none ∧ fetches (with1 0).burinNow.ctx.pc (buLen 0x7FFF) = true ∧
    (let s := inRun { pc := routineLo, inTrap := true, inRoutine := true }
     ready s = true ∧ s.burinNow.ctx.inTrap = true ∧ (inArea s.burinNow.ctx.pc || s.burinNow.ctx.inRoutine) = true) ∧
    fetches (inRun { pc := 0xFFFE }).burinNow.ctx.pc 4 = false ∧ fetches (inRun { pc := 0x10000 }).burinNow.ctx.pc 2 = false ∧
    (inRun { pc := 0xFFFE }).rolledBack.burinRuns = true := by decide +kernel

theorem witness_BurinCommitPoints :
    (ready (with1 0) = true ∧ (with1 0).burinNow.products = [] ∧ (with1 0).bu.outb = []) ∧
    (let s : State := { with1 0 with bu := { (with1 0).bu with waiting := true, evt := 0x20, ctx := { evtMask := 0x20 } } }
     s.bu.state = .run ∧ s.bu.waiting = true ∧ s.fc.halted = false ∧ s.evtSync.bu.evt &&& s.bu.ctx.evtMask ≠ 0) := by
  decide +kernel

theorem witness_BurinLockstep :
    (with1 0).bu.state = .run ∧ (with1 0).fc.halted = false ∧ (with1 0).bu.mismatched = false := by decide

/-- Entry 5 names word 3, an ADD that ends there. -/
theorem witness_BurinEtched :
    (let w : BitVec 64 := (1 <<< 58) ||| (1 <<< 45) ||| (1 <<< 50) ||| (2 <<< 46)
     let s : State := { with1 9 with bu := { (with1 9).bu with etch := { entries := [(5, 0x1003)], words := [(3, w)] } } }
     ready s = true ∧ s.burinNow.etch.entries.get 0 5 = 0x1003 ∧ bit (0x1003 : DWord) 12 = true ∧
       s.burinNow.etch.words.get 0 (fld (0x1003 : DWord) 0 12).toNat = w ∧ bit w 45 = true ∧ fld w 54 4 = 0 ∧ fld w 50 4 = 1 ∧
       fld w 46 4 = 2 ∧ (etchValue (fld w 58 6).toNat (s.burinNow.ctx.get 1) 0).isSome = true) ∧
    ((with1 0).burinNow.etch.isOpen = false ∧ bit (0 : DWord) 12 = false) := by decide +kernel

/-- The counter at offset 0xB0018 is 64 bits wide, the etch address at 0xB0108 is 32; the last word of the window. -/
theorem witness_BurinWindow :
    (ready (with1 0x100B0108) = true ∧ wide64 0xB0108 = false ∧ wide64 0x13FFFF8 = false) ∧
    (let s : State := { with1 0x100B000C with bu := { (with1 0x100B000C).bu with lowHalf := some (0xB0008, 7) } }
     ready s = true ∧ wide64 0xB0008 = true ∧ s.burinNow.lowHalf = some (0xB0008, 7)) ∧
    (let s : State := { with1 0x100B0108 with bu := { (with1 0x100B0108).bu with replay := [(0xB0108, 7, none)] } }
     ready s = true ∧ s.burinNow.outb = [] ∧ s.burinNow.replay = [(0xB0108, 7, none)]) := by decide +kernel

/-! Links -/

/-- Tag 3 holds a link of `op` that runs on `unit`, and slot 262,144 a 32-byte AES key of function 0 with every permission. -/
def running (op : BitVec 12) (slot : BitVec 19) (inLen : Word) (unit : Nat) : State := { up with
  sq := { up.sq with tags := [(3, { desc := { opcode := op, slot := slot, inLen := inLen }, phase := .running unit })] }
  bu := { state := .run }
  vt := { up.vt with state := .vopen, slots := [(262144, heldKey)] } }
where
  heldKey : SlotEnt := { attr := {
    world := 1, lcMask := 0x1F, binding := 0x01, alg := 1, keyKept := true, perms := 0x7F, keyLen := 32, usageLimit := 2 }, area := zeros 160 }

/-- The host's answer to a link that reads and writes nothing. -/
def noData : LinkData := { param := [], input := [], again := [], access := .ok, checkFails := 0 }

/-- A link of VAULT_RETIRE whose mark has been committed. -/
def marked : State := (running 0x618 262144 0 0x00A).modTag 3 (fun e => { e with mark := some { slot := running.heldKey } })

/-- A link that starts and ends alone, one that starts and changes a slot, and one that goes on from its mark. -/
theorem witness_LinksComplete :
    (∃ (t : BitVec 14) (d : LinkData) (ops : Nat → Bool) (plan : State → Link → Plan) (sup : Link → List Byte) (s u v y : State)
      (l : Link) (e w : SlotEnt) (iv : Iv) (x out : List Byte) (res : DWord),
      linkRow (.etchClear t d) = some (t, d, ops, plan, sup) ∧ s.link? t.toNat d ops = some l ∧
      notRestoring (.etchClear t d) s = true ∧ s.Works l (plan s l) (sup l) e w iv x u ∧
      (v.drbgClose l.tag false).writeOut l out = (true, y) ∧ (plan s l).body u e w iv x = (.good out res, v) ∧
      l.checkFails (plan s l) e x (.good out res) = false) ∧
    (∃ (t : BitVec 14) (d : LinkData) (ops : Nat → Bool) (plan : State → Link → Plan) (sup : Link → List Byte) (s u v y : State)
      (l : Link) (e w : SlotEnt) (iv : Iv) (x out : List Byte) (res : DWord) (slot : Nat) (ent : SlotEnt),
      linkRow (.vaultRetire t d) = some (t, d, ops, plan, sup) ∧ s.link? t.toNat d ops = some l ∧
      notRestoring (.vaultRetire t d) s = true ∧ s.Works l (plan s l) (sup l) e w iv x u ∧
      (v.drbgClose l.tag false).writeOut l out = (true, y) ∧ (plan s l).body u e w iv x = (.writes [(slot, ent)] none out res, v) ∧
      l.checkFails (plan s l) e x (.writes [(slot, ent)] none out res) = false ∧
      (y.writeBlob slot ent).1 = true ∧ (y.writeBlob slot ent).2.imageReady = true) ∧
    (∃ (l : Link) (e w : SlotEnt) (iv : Iv) (x : List Byte) (u : State), marked.link? 3 noData (isOp 0x618) = some l ∧
      marked.Works l (retirePlan marked l) [] e w iv x u ∧
      (match (retirePlan marked l).body u e w iv x with
        | (.writes _ _ _ _, _) => true
        | _ => false) = true) := by
  refine ⟨?_, ?_, ?_⟩
  · refine ⟨3, noData, isOp 0x0E1, etchClearPlan, fun _ => [], running 0x0E1 0 0 3, _, _, _, _, {}, {}, {}, [], [], 0, rfl, rfl, rfl,
      .inl ⟨rfl, by decide +kernel, by decide +kernel, by decide +kernel, rfl, _, _, _, rfl, rfl, rfl, rfl, rfl⟩, rfl, rfl, rfl⟩
  · refine ⟨3, noData, isOp 0x618, retirePlan, fun _ => [], running 0x618 262144 0 0x00A, _, _, _, _,
      running.heldKey, {}, {}, [], [], 0, 262144, _, rfl, rfl, rfl,
      .inl ⟨rfl, by decide +kernel, by decide +kernel, by decide +kernel, rfl, _, _, _, rfl, rfl, rfl, rfl, rfl⟩, rfl, rfl, rfl, rfl, rfl⟩
  · exact ⟨_, _, _, _, _, _, rfl, .inr ⟨⟨_, rfl, rfl, rfl, rfl⟩, rfl, _, rfl, rfl⟩, rfl⟩

/-- `s` and the link that tag 3 holds. -/
def theLink (s : State) : Option Link := s.link? 3 noData (fun _ => true)

/-- One link that OPT shuts out, and one whose output has no room. -/
theorem witness_LinkChecksInOrder :
    (∃ l, (running 0x0E1 1 0 3).link? 3 noData (isOp 0x0E1) = some l ∧ l.mark = none ∧ l.data.access = .ok ∧
      notRestoring (.etchClear 3 noData) (running 0x0E1 1 0 3) = true ∧
      ((running 0x0E1 1 0 3).paramsRead l (etchClearPlan (running 0x0E1 1 0 3) l)).1 = true ∧
      (etchClearPlan (running 0x0E1 1 0 3) l).unsupported = true) ∧
    (let s := running 0x200 0 0 0x120
     ∃ l, s.link? 3 noData (fun n => decide (0x200 ≤ n ∧ n ≤ 0x203)) = some l ∧ l.mark = none ∧ l.data.access = .ok ∧
      notRestoring (.sha2 3 noData) s = true ∧ (s.paramsRead l (digestPlan (· - 0x1FF) false s l)).1 = true ∧
      (digestPlan (· - 0x1FF) false s l).unsupported = false ∧
      (s.paramsRead l (digestPlan (· - 0x1FF) false s l)).2.preChecks l (digestPlan (· - 0x1FF) false s l) = .deny .lenMismatch) :=
  ⟨⟨_, rfl, rfl, by decide +kernel, by decide +kernel, by decide +kernel, by decide +kernel⟩,
    _, rfl, rfl, by decide +kernel, by decide +kernel, by decide +kernel, by decide +kernel, rfl⟩

/-- A slot in use, one that is closed, one that is free, one whose count is spent, and one that must be read first. -/
theorem witness_CheckOrder :
    let s := running 0x618 262144 0 0x00A
    let spent : SlotEnt := { running.heldKey with attr := { running.heldKey.attr with usageCount := 2 } }
    let u : SlotUse := { consumes := true }
    (∃ l, theLink s = some l ∧ l.e.passed = none ∧ s.checkSlot 262144 l.fn l.auth u = .ok running.heldKey ∧
      s.checkSlot 255 l.fn l.auth u = .deny .keyDenied ∧
      ({ s with vt := { s.vt with slots := [(262144, spent)] } } : State).checkSlot 262144 l.fn l.auth u = .deny .keyLimit ∧
      ({ s with vt := { s.vt with recoverDue := true } } : State).checkSlot 262144 l.fn l.auth u = .wait) :=
  ⟨_, rfl, rfl, rfl, rfl, rfl, rfl⟩

theorem witness_SlotChecksInOrder :
    let s := running 0x618 262144 0 0x00A
    s.look 262144 = .hit running.heldKey ∧ running.heldKey.attr.blob = false ∧ running.heldKey.attr.owner ≠ 5 ∧
    running.heldKey.attr.share = 0 ∧ running.heldKey.attr.owner = 0 ∧ running.heldKey.attr.world = (s.fn 0).entry.world ∧
    running.heldKey.attr.world ≠ (s.fn 5).entry.world ∧ running.heldKey.attr.lcMask.getLsbD s.ts.lcs.toNat = true ∧
    (0x1E : BitVec 5).getLsbD s.ts.lcs.toNat = false ∧ running.heldKey.attr.perms.getLsbD 6 = true ∧
    (0x3F : BitVec 7).getLsbD 6 = false ∧ running.heldKey.attr.notAfter = 0 ∧
    (∃ u : SlotUse, u.anyFn = false ∧ u.ownerOnly = false ∧ u.query = false ∧ u.suits running.heldKey = true ∧ u.consumes = true) ∧
    (∃ u : SlotUse, u.anyFn = false ∧ u.ownerOnly = false ∧ u.query = false ∧ u.suits running.heldKey = false) :=
  ⟨rfl, rfl, by decide, rfl, rfl, rfl, by decide, by decide, by decide, by decide, by decide, rfl,
    ⟨{ consumes := true, suits := fun _ => true }, rfl, rfl, rfl, rfl, rfl⟩,
    ⟨{ suits := fun _ => false }, rfl, rfl, rfl, rfl⟩⟩

/-! Functions -/

/-- Function `f`, selected, in a state, with its entry; its page answers every initiator. -/
def fnAt (f : Nat) (st : FnState) (e : FnEntry) : State :=
  ({ up with
    fx := { up.fx with sel := BitVec.ofNat 10 f, numVf := 511 }, pr := { up.pr with owners := [(f, {})] } } : State).modFn f (fun v => { v with state := st, entry := e })

/-- FT_CMD's word with `op` in it. -/
def ftq (op : Nat) : PortReq := (rq 0x0F 0).lower.force 0 4 op

/-- A command of FT_CMD is being carried out. -/
def ftAtWork : State := fnAt 511 .ready {} |>.modFx (fun x => { x with busyNs := 1000 })

theorem witness_FunctionTableCommands :
    ((fnAt 511 .ready {}).ftBusy = false ∧ (fnAt 1 .enabled {}).ftBusy = false ∧ ftAtWork.ftBusy = true ∧
      [1, 2, 3, 4, 5, 6].all (fun op => takes ftAtWork 0x20008 (ftq op)) = true ∧
      takes ftAtWork 0x20008 ((rq 0x0F 0).lower.undefinedOp 0 4 0 (fun n => decide (1 ≤ n ∧ n ≤ 6))) = true) ∧
    (takes (fnAt 511 .ready {}) 0x20008 (ftq 1) = true ∧ takes (fnAt 511 .ready {}) 0x20008 (ftq 3) = true ∧
      takes (fnAt 511 .ready {}) 0x20008 (ftq 6) = true ∧ takes (fnAt 511 .halted {}) 0x20008 (ftq 4) = true ∧
      takes (fnAt 1 .enabled {}) 0x20008 (ftq 5) = true ∧ ((fnAt 511 .ready {}).fn (fnAt 511 .ready {}).fx.sel.toNat).state = .ready ∧
      ((fnAt 1 .enabled {}).fn 1).state = .enabled ∧
      takes up 0x20008 ((rq 0x0F 0).lower.undefinedOp 0 4 0 (fun n => decide (1 ≤ n ∧ n ≤ 6))) = true ∧
      takes up 0x20040 (rq 0xFF 0).lower = true ∧
      up.fx.fns.all (fun p => decide (p.1 ≤ (fld (0 : DWord) 0 10).toNat) || decide (p.2.state = .unbound)) = true) ∧
    (let staged (e : FnEntry) (st : FnState) (nv : BitVec 10) : State :=
      { fnAt 5 st {} with fx := { (fnAt 5 st {}).fx with stage := e, numVf := nv } }
     let good : FnEntry := { ringBase := 64, ringCount := 1, vecBase := 64, vecCount := 1 }
     (staged good .enabled 5).ftBusy = false ∧ takes (staged good .enabled 5) 0x20008 (ftq 2) = true ∧ ((staged good .enabled 5).fn 5).state ≠ .unbound ∧
     (staged good .unbound 4).fx.numVf.toNat < 5 ∧ 5 ≤ (staged good .unbound 5).fx.numVf.toNat ∧
     (staged { good with ringCount := 16384 } .unbound 5).commitRange 5 { good with ringCount := 16384 } = false ∧
     (staged good .unbound 5).commitRange 5 good = true ∧
     ((staged good .unbound 5).bound 5).any (fun p => overlaps 63 1 p.2.entry.ringBase.toNat p.2.entry.ringCount.toNat) = true ∧
     ((staged good .unbound 5).bound 5).any (fun p => overlaps 64 1 p.2.entry.ringBase.toNat p.2.entry.ringCount.toNat) = false ∧
     ((staged good .unbound 5).bound 5).any (fun p => overlaps 63 1 p.2.entry.vecBase.toNat p.2.entry.vecCount.toNat) = true ∧
     ((staged good .unbound 5).bound 5).any (fun p => overlaps 64 1 p.2.entry.vecBase.toNat p.2.entry.vecCount.toNat) = false) := by
  decide +kernel

/-- Function 0's page, the last virtual function in each state that a request may find it in, one that drains with a link left, and one
that has come to its end. -/
theorem witness_FunctionReset :
    let at_ (st : FnState) (squash flr : Bool) : State := (fnAt 511 st { flrMode := flr }).modFn 511 (fun v => { v with squash := squash })
    ((at_ .enabled false false).fn 511).state = .enabled ∧ ((at_ .halted false false).fn 511).state = .halted ∧
    511 ≤ (at_ .enabled false false).fx.numVf.toNat ∧ up.fx.numVf.toNat < 511 ∧ up.po.fiUp = true ∧
    takes (at_ .halted false false) (fnPage 511 0x8) ((rq 0x0F 0).lower.force 0 1 1) = true ∧
    ((at_ .ready false false).fn 511).state = .ready ∧ (up.fn 511).state = .unbound ∧
    ((at_ .resetting false true).fn 511).state = .resetting ∧ ((at_ .resetting false true).fn 511).entry.flrMode = true ∧
    ((at_ .resetting false true).fn 511).squash = false ∧ ((at_ .resetting true true).fn 511).squash = true ∧
    ((at_ .resetting false false).fn 511).entry.flrMode = false ∧
    (up.fn 0).state = .enabled ∧ takes up (fnPage 0 0x8) ((rq 0x0F 0).lower.force 0 1 1) = true ∧ up.fx.fn0Due = false ∧
    up.fx.fn0Offered = false ∧
    (({ at_ .resetting false false with sq := { up.sq with tags := [(3, { fn := 511 })] } } : State).sq.tags.filter
      (fun p => decide (p.2.fn = 511))).length = 1 ∧
    ((at_ .resetting false false).tagsOf 511).isEmpty = true ∧ (at_ .resetting false false).writeRetries 511 = false := by
  decide +kernel

theorem witness_EventQueues :
    let s := fnAt 5 .enabled { vecBase := 64, vecCount := 1 }
    (s.fn 5).state ≠ .unbound ∧ (s.fn 5).eq.en = false ∧ (fld (0x15 : DWord) 1 4).toNat ≤ 10 ∧ bit (0x15 : DWord) 0 = true ∧
    (fld (0x15 : DWord) 16 14).toNat < (s.fn 5).entry.vecCount.toNat ∧ takes s (fnPage 5 0x3010) (rq 0xFF 0x15) = true ∧
    takes s (fnPage 5 0x3008) (rq 0xFF 0) = true ∧ (s.fn 5).eq.since = 0 ∧ takes s (fnPage 5 0x3018) (rq 0xF0 0).upper = true ∧
    takes s (fnPage 5 0x3020) (rq 0x0F 0) = true ∧ takes (fnAt 511 .ready {}) (fnPage 511 0x10) (rq 0x0F 3).lower = true ∧
    ((fnAt 511 .ready {}).fn 511).entry.vecCount = 0 := by decide +kernel

theorem witness_Vectors :
    let s := fnAt 5 .enabled { vecBase := 64, vecCount := 1 }
    let v : Vec := { timerUs := 1, pending := 1, due := true, mask := false, refusedAt := some 0 }
    let m : FiMsg := { reset := false, fn := 5, vector := 0, wake := false, pool := 64 }
    takes s (fnPage 5 0x2008) (rq 0x0F 0).lower = true ∧ fld (0 : DWord) 12 12 = 0 ∧ s.selVec 5 = some 64 ∧
    fld (0x80001000 : DWord) 12 12 ≠ 0 ∧ bit (0x80001000 : DWord) 31 = true ∧ (s.vec 64).pending = 0 ∧ (s.fn 5).accepted = true ∧
    (s.setVec 64 v).vecOwner 64 = some 5 ∧ ((s.setVec 64 v).vec 64).pending ≠ 0 ∧ ((s.setVec 64 v).vec 64).timerUs ≠ 0 ∧
    ((s.setVec 64 v).vec 64).due = true ∧ ((s.setVec 64 v).vec 64).mask = false ∧ ((s.setVec 64 v).vec 64).offered = false ∧
    s.po.fiUp = true ∧ s.po.fiWait.length < 64 ∧ (s.fn 5).pstate ≠ 3 ∧ ((s.setVec 64 v).vec 64).refusedAt.isSome = true ∧
    m.reset = false ∧ (s.fn m.fn).accepted = true ∧ s.pf.irqAfterResp = false ∧
    (let t := (s.setVec 64 v).modPf (fun p => { p with irqAfterResp := true })
     t.pf.irqAfterResp = true ∧ t.vecOwner 64 = some 5 ∧ (t.vec 64).due = true ∧ (t.vec 64).mask = false ∧
     (t.vec 64).offered = false ∧ t.po.fiUp = true) ∧
    ({ s with po := { s.po with fiWait := [m] } } : State).po.fiWait = [m] := by decide +kernel

/-! Rings -/

/-- Function 0's last ring, in a state. -/
def ringAt (x : Ring) : State := up.setRing 63 x

/-- A ring header that passes the checks of Table 3.1: both queues of size 4, at 4 KiB and 8 KiB, no vector. -/
def header : List Byte :=
  zeros 16 ++ leBytes 8 0x1000 ++ leBytes 8 0x2000 ++ [4, 4] ++ leBytes 2 0xFFFF ++ zeros 28

/-- Every function may read and write the first 4 GiB. -/
def openAll (s : State) : State :=
  s.modPr (fun p => { p with regions := [(0, { valid := true, last := 0x3FFFFFF, read := true, write := true })] })

/-- The ring manager is fenced. -/
def noManager (s : State) : State := s.modUnit 0x008 (fun x => { x with role := .fenced })

theorem witness_RingCommands :
    (let s := ringAt { state := .enabled, hdrBusy := true }
     (s.fn 0).state = .enabled ∧ 63 < (s.fn 0).entry.ringCount.toNat ∧ beLo 0xFF = true ∧ (s.ring 63).enabling = false ∧
     (s.ring 63).state = .enabled ∧ (s.ring 63).hdrBusy = true ∧ takes s (fnPage 0 0) ((rq 0xFF 63).force 14 2 0) = true ∧
     s.stopped 0x008 = false ∧ (noManager s).stopped 0x008 = true ∧ (s.ring 63).state ≠ .disabled ∧
     takes (noManager s) (fnPage 0 0) ((rq 0xFF 63).whole.force 14 2 2) = true) ∧
    (let x : Ring := { state := .enabled }
     let s := openAll (ringAt x)
     ((s.setRing 63 { x with hdrBusy := true, hdrOwed := false, lastHdr := s.po.tm }).fabRead (.ringHeader 63) 0 (x.hdr.toNat * 512) 16
       true).1 = true ∧ (s.ring 63).hdrBusy = false ∧ takes s (fnPage 0 0) ((rq 0xFF 63).whole.force 14 2 2) = true) ∧
    ((ringAt { enabling := true }).ring 63).enabling = true ∧
    (let s := openAll up
     let t : State := { s with rt := { s.rt with sel := 63 } }
     (s.ring 63).state = .disabled ∧ ((s.modRing 63 (fun x => { x with
       enabling := true, newHdr := 0, heldKick := false, heldDisable := false, lastHdr := s.po.tm })).fabRead (.ringHeader 63) 0 0 64
         true).1 = true ∧
     takes s (fnPage 0 0) ((rq 0xFF 63).whole.force 14 2 1) = true ∧ 63 = t.rt.sel.toNat ∧ t.ringOwner 63 = some 0 ∧
     takes t 0x30008 ((rq 0x0F 0).lower.force 0 2 1) = true ∧ takes t 0x30008 ((rq 0x0F 0).lower.force 0 2 2) = true ∧
     takes s 0x30008 ((rq 0x0F 0).lower.undefinedOp 0 2 0 (fun n => decide (1 ≤ n ∧ n ≤ 2))) = true ∧
     ({ s with rt := { s.rt with sel := 64 } } : State).ringOwner 64 = none) ∧
    (let s := ringAt { enabling := true }
     s.ringOwner 63 = some 0 ∧ s.fc.halted = false ∧ s.stopped 0x008 = false ∧ (s.fn 0).state = .enabled ∧
     (ringAt { enabling := true, heldDisable := true }).ring 63 = { enabling := true, heldDisable := true } ∧
     enableOk (s.fn 0).entry header = true ∧ enableOk (s.fn 0).entry (zeros 32 ++ [11] ++ zeros 31) = false) := by decide +kernel

/-- An index one queue ahead, an entry read, a link table and a header read under way, and a ring that polls. -/
theorem witness_RingReturns :
    let head : List Byte := [1, 1, 0, 2] ++ zeros 60
    let x : Ring := {
      state := .enabled, sqSize := 4, cqSize := 4, hdrBusy := true, cqPos := 16, reads := [(0, 1)], raw := [head], table := some {} }
    let s := ringAt x
    s.ringOwner 63 = some 0 ∧ s.ringLive 0 63 = true ∧ ((16 : Word) - x.fetchPos).toNat ≤ queueSize x.sqSize ∧
    (x.cqPos - 0).toNat ≤ queueSize x.cqSize ∧ x.reads = [(0, 1)] ∧ x.reads.isEmpty = false ∧ x.hdrBusy = true ∧ x.hdrOwed = false ∧
    x.enabling = false ∧ x.table.isSome = true ∧
    (match formCheck (isAuthority 0 (s.localRing 0 63)) (x.raw.take (entrySpan head)) (fit ((head.getD 1 0).toNat * 48) []) with
      | .ok _ => true
      | .error _ => false) = true ∧
    (let y : Ring := { state := .enabled, pollUs := 1 }
     let z := openAll (ringAt y)
     z.ringLive 0 63 = true ∧ y.hdrBusy = false ∧
     ((z.setRing 63 { y with hdrBusy := true, hdrOwed := false, lastHdr := z.po.tm }).fabRead (.ringHeader 63) 0 (y.hdr.toNat * 512) 16
       true).1 = true) := by decide +kernel

/-- A packet of one NOP that the ring has just room for; a packet of two where the function may have one tag; a full pool, and a ring
that has waited longer. -/
theorem witness_PacketsIssue :
    let p : Packet := { links := [{}] }
    let two : Packet := { links := [{}, {}] }
    let s (p : Packet) : State := ringAt { state := .enabled, sqSize := 4, cqSize := 4, cqPos := 15, ready := [p] }
    let room : State := ringAt { state := .enabled, sqSize := 4, cqSize := 4, ready := [two] }
    let mine : State := room.modFn 0 (fun v => { v with entry := { v.entry with tagQuota := 1 } })
    let behind : State := { (s p).setRing 62 { state := .enabled, sqSize := 4, cqSize := 4, ready := [p] } with
      sq := { up.sq with tagWait := [62, 63] } }
    (s p).ringOwner 63 = some 0 ∧ (s p).ringLive 0 63 = true ∧ (s p).stopped 0x00A = false ∧ ((s p).ring 63).ready = [p] ∧
    (((s p).ring 63).cqPos - ((s p).ring 63).cqCons).toNat + ((s p).ring 63).reserved + 1 ≤ queueSize ((s p).ring 63).cqSize ∧
    ((s p).fn 0).entry.tagQuota.toNat = 0 ∧ (s p).sq.tags.length + 1 ≤ 16384 ∧ (s p).tagsClaimed 63 = false ∧
    behind.tagsClaimed 63 = true ∧ (behind.ring 63).ready = [p] ∧ (mine.fn 0).entry.tagQuota.toNat ≠ 0 ∧
    (mine.fn 0).entry.tagQuota.toNat < two.links.length ∧ mine.ringLive 0 63 = true ∧ (mine.ring 63).ready = [two] := by
  decide +kernel

/-- The first of two links, the only link of its packet, one that fails, one whose packet holds a NOP behind an earlier packet; a NOP
that waits and one with a length; an unknown opcode that runs; records that the host has answered, one that has failed, and a ring
without links that stops. -/
theorem witness_LinksAndRingsEnd :
    (let e : TagEnt := { phase := .ended }
     let s : State := { up with sq := { up.sq with tags := [(3, e), (4, {})], flights := [(0, { tags := [3, 4] })] } }
     s.fc.halted = false ∧ s.stopped 0x008 = false ∧ s.stopped 0x00A = false ∧ s.tag? 3 = some e ∧ e.phase = .ended ∧
     e.status = .ok ∧ (s.flight e.pkt).tags[(s.flight e.pkt).cur]? = some 3 ∧
     (s.flight e.pkt).cur + 1 < (s.flight e.pkt).tags.length) ∧
    (let one (e : TagEnt) (fl : List (Nat × Flight)) : State := { up with sq := { up.sq with tags := [(3, e)], flights := fl } }
     let e : TagEnt := { phase := .ended, desc := { opcode := 0x200 } }
     let bad : TagEnt := { e with status := .busError }
     let nop : TagEnt := { phase := .ended, status := .unsupported, pkt := 1 }
     let s := one e [(0, { tags := [3] })]
     let t := one bad [(0, { tags := [3] })]
     let w := one nop [(0, {}), (1, { tags := [3] })]
     s.tag? 3 = some e ∧ (s.flight 0).tags[(s.flight 0).cur]? = some 3 ∧ (s.flight 0).cur + 1 = (s.flight 0).tags.length ∧
     s.nopWaits 0 (s.flight 0) = false ∧ t.tag? 3 = some bad ∧ bad.status ≠ .ok ∧ t.nopWaits 0 (t.flight 0) = false ∧
     w.tag? 3 = some nop ∧ (w.flight 1).tags[(w.flight 1).cur]? = some 3 ∧ nop.status ≠ .ok ∧ w.nopWaits 1 (w.flight 1) = true) ∧
    (let at_ (e : TagEnt) : State := { up with sq := { up.sq with tags := [(3, e)] } }
     let e : TagEnt := { phase := .queued }
     let long : TagEnt := { phase := .queued, desc := { inLen := 1 } }
     (at_ e).tag? 3 = some e ∧ e.desc.opcode = 0 ∧ e.phase = .queued ∧ (at_ e).stopped 0x00A = false ∧ e.desc.slot = 0 ∧
     e.desc.inLen = 0 ∧ e.desc.outLen = 0 ∧ e.desc.paramLen = 0 ∧ e.desc.inChain = false ∧ e.desc.outChain = false ∧
     (at_ long).tag? 3 = some long ∧ long.desc.inLen ≠ 0) ∧
    ((running 0xFFF 0 0 3).tag? 3 = some { desc := { opcode := 0xFFF }, phase := .running 3 } ∧
      (running 0xFFF 0 0 3).opKnown 0xFFF = false) ∧
    (let x : Ring := { state := .stopping, cqPos := 1, stopWith := 1 }
     (ringAt x).ringOwner 63 = some 0 ∧ x.noRecords = false ∧ 0 < ((1 : Word) - x.cqProd).toNat ∧
     ((1 : Word) - x.cqProd).toNat ≤ (x.cqPos - x.cqProd).toNat ∧ ((ringAt x).tagsOfRing 63).isEmpty = true ∧
     (ringAt x).fc.halted = false ∧ (ringAt x).stopped 0x008 = false) ∧
    (let s := ringAt { state := .enabled }
     let t : State := { s with po := { s.po with txns := [{ id := 1, who := .completion 63, fn := 0, world := true, addr := 0, len := 32, write := true }] } }
     t.po.txns.any (fun q => decide (q.who = .completion 63)) = true ∧ (t.ring 63).state = .enabled) := by decide +kernel

/-! The sequencer -/

/-- A link of `op` that has just begun on `unit`, whose output another link takes. -/
def sharer (op : BitVec 12) (unit : Nat) : TagEnt :=
  { desc := { opcode := op, outChain := true, outLen := 65536, aux := 65536 }, phase := .running unit, mark := some {} }

/-- That link, of class `c`, on a lane of the reserve, and a class D link of the same opcode that waits. -/
def sharing (op : BitVec 12) (unit : Nat) (c : Cls) : State := { (up.setUnit unit { role := .reserved, busy := some 3 }) with
  sq := { up.sq with
    tags := [(3, sharer op unit), (4, { pkt := 1, phase := .queued, desc := { opcode := op } })],
    flights := [(0, { tags := [3], cls := c, resCipher := 1, resDigest := 1 }), (1, { tags := [4], cls := .d })] } }

/-- With `n` bytes of input, the link reaches position `pos` and its mark is committed; `ends`: a segment ends there. -/
def atMark (op : BitVec 12) (unit : Nat) (c : Cls) (n pos : Nat) (ends : Bool) : Bool :=
  let s := openAll ((sharing op unit c).modTag 3 (fun e => { e with desc := { e.desc with inLen := BitVec.ofNat 32 n } }))
  !s.restoringFor 3 &&
  (match s.link? 3 noData (fun o => (planOf o).isSome), planOf op.toNat with
   | some l, some (plan, sup) =>
     let x := s.markLink l (plan s l) (sup l) pos
     decide (l.op = op.toNat) && x.1 && decide ((plan s l).reached l.mark ≤ pos) && ((x.2.tag? 3).bind (·.mark)).isSome &&
       decide ((plan s l).segmentEnds l.n pos = ends)
   | _, _ => false)

theorem witness_SchedulingEvents :
    (let e : TagEnt := { phase := .queued }
     let s : State := { up with sq := { up.sq with tags := [(3, e)] } }
     s.tag? 3 = some e ∧ (s.flight e.pkt).cls ≠ .d ∧ e.started = false ∧ s.sq.ageUs ≠ 0) ∧
    atMark 0x20D 0x120 .p 0 32768 true = true ∧ (sharing 0x20D 0x120 .p).makesWay 0x120 (sharer 0x20D 0x120) = true ∧
    (sharing 0x20D 0x120 .p).dReady .digest = true ∧ (sharing 0x20D 0x120 .d).makesWay 0x120 (sharer 0x20D 0x120) = false ∧
    atMark 0x200 0x120 .p 65 64 false = true ∧
    (let s := (sharing 0x200 0x120 .p).modTag 3 (fun e => { e with desc := { e.desc with inLen := 65 } })
     s.makesWay 0x120 (sharer 0x200 0x120) = true ∧ (match s.link? 3 noData (fun _ => true) with
      | some l => (digestPlan (· - 0x1FF) false s l).blockEnds s 65 64 { read := zeros 64 }
      | none => false) = true ∧
     s.residents 0x120 < 8) ∧
    atMark 0x308 0x140 .p 0 0 false = true ∧ (sharing 0x308 0x140 .p).makesWay 0x140 (sharer 0x308 0x140) = true ∧
    (sharing 0x308 0x140 .p).dReady .modular = true ∧
    (let s : State := { (up.setUnit 0x111 { role := .working }) with pf := { up.pf with current := 2 } }
     (unitDomain 0x111).isSome = true ∧ s.fc.halted = false ∧ (s.unit 0x111).role = .working ∧ unitKind 0x111 = .cipher ∧
       s.pf.current = 2 ∧ (s.unit 0x111).busy = none) ∧
    (let s := up.setUnit 0x128 { role := .gated, gatedSpare := true }
     (unitDomain 0x128).isSome = true ∧ (s.unit 0x128).role = .gated ∧ (s.unit 0x128).gatedSpare = true) := by decide +kernel

/-- The ends of each range: caps 4 and 16, 8 cipher and 4 digest lanes of class D, a share of 10. -/
theorem witness_SequencerRegisters :
    takes up 0x40018 (rq 0xFF 1) = true ∧ up.sq.tags.any (fun p => !p.2.spillUnits.isEmpty) = false ∧
    bit (up.wreq 0x40018 (rq 0xFF 1)).x 0 = true ∧ bit (up.wreq 0x40018 (rq 0xFF 0x200000)).x 0 = false ∧
    (let s : State := { up with sq := { up.sq with tags := [(3, { spillUnits := [0x110] })], spillEn := true, spillSize := 1 } }
     takes s 0x40018 (rq 0xFF 0) = true ∧ s.sq.tags.any (fun p => !p.2.spillUnits.isEmpty) = true ∧
     bit (s.wreq 0x40018 (rq 0xFF 0)).x 0 = false ∧ fld (s.wreq 0x40018 (rq 0xFF 0x101)).x 8 8 = s.sq.spillSize) ∧
    takes up 0x40010 (rq 0xFF 0) = true ∧ takes up 0x10000 (rq 0x0F 3).lower = true ∧ up.pf.pending = false ∧
    fld (3 : DWord) 0 2 ≠ up.pf.current ∧ ({ up.pf with pending := true } : Profile).pending = true ∧
    takes up 0x10010 (rq 0x0F 0xA48).lower = true ∧ (fld (0xA48 : DWord) 0 4).toNat ≤ 8 ∧ (fld (0xA48 : DWord) 4 3).toNat ≤ 4 ∧
    (fld (0xA48 : DWord) 8 4).toNat ≤ 10 ∧ takes up 0x10008 (rq 0x0F 16).lower = true ∧ 4 ≤ (fld (4 : DWord) 0 5).toNat ∧
    (fld (16 : DWord) 0 5).toNat ≤ 16 ∧ (fld (3 : DWord) 0 5).toNat < 4 ∧ 16 < (fld (17 : DWord) 0 5).toNat := by decide +kernel

/-! Streams -/

/-- A stream port in a state. -/
def portAt (x : SPort) : State := up.modSt (fun t => { t with ports := t.ports.set {} 3 x })

/-- A GOOSE frame of 60 bytes with APPID 0x1234, whose Reserved 1 is `n` (Tables 5.5 and 5.8). -/
def goose (n : Byte) : List Byte :=
  zeros 12 ++ [0x88, 0xB8, 0x12, 0x34, 0x00, 0x2E, 0x00, n, 0x00, 0x00, 0x61, 36, 0x85, 1, 1, 0x86, 1, 0, 0x80, 28] ++ zeros 28

/-- The authentication extension: key 5, HMAC of 80 bits. -/
def extension : List Byte := [0xAF, 18, 0x80, 1, 5, 0x81, 1, 0, 0x85, 10] ++ zeros 10

/-- The parser reads APPID, stNum and sqNum of a bare frame, and the key and value of a secured one. -/
theorem test_goose_frames :
    (match readFrame 102 (goose 0) with
     | .bare p => decide (p.appid = 0x1234 ∧ p.stNum = 1 ∧ p.sqNum = 0)
     | _ => false) = true ∧
    (match readFrame 102 (goose 20 ++ extension) with
     | .secured p => decide (p.appid = 0x1234 ∧ p.keyId = 5 ∧ p.alg = 0 ∧ p.value = zeros 10)
     | _ => false) = true := by decide +kernel

/-- A frame of 60 bytes that waits at the head, cut or whole. -/
def waiting (b : List Byte) (cut : Bool) : Queued := { seq := 7, bytes := b, truncated := cut, first := 0, last := 0, pos := 0 }

/-- Room for one frame of 2 beats, a full FIFO, a repair; a cut frame, a malformed one, one of a wrong length, a bare and a secured one, and
one below its WRAP; a gap that is closed; a port that is off with its domain on, one that runs, and one that has drained, to go off or to run. -/
theorem witness_StreamPorts :
    (let x : SPort := { state := .run, en := true, written := 253, fifo := [.frame (waiting [] false)] }
     (portAt x).edgeRepairs 3 = false ∧ x.gapOpen = false ∧ x.occ + max 1 (frameBeats (goose 0).length) = 255 ∧
     takes (portAt x) 0x50300 ((rq 0x0F 0).lower.force 0 1 0) = true ∧ takes (portAt x) 0x50310 (rq 0xFF 0) = true) ∧
    (let x (w : Nat) : SPort := { state := .run, written := w, fifo := [.frame (waiting [] false)] }
     (x 255).occ = 255 ∧ (x 510).occ = 510) ∧
    (portAt { state := .restart }).edgeRepairs 3 = true ∧
    ((portAt { fifo := [.frame (waiting (goose 0) true)] }).sport 3).fifo = [.frame (waiting (goose 0) true)] ∧
    (match readFrame 102 (zeros 4) with
      | .malformed => true
      | _ => false) = true ∧
    (match readFrame 102 (goose 20 ++ extension ++ zeros 3) with
      | .lenMismatch z => !(portAt {}).wrapBad 3 z
      | _ => false) = true ∧
    (match readFrame 102 (goose 20 ++ extension) with
      | .secured z => !(portAt {}).wrapBad 3 z
      | _ => false) = true ∧
    (match readFrame 102 (goose 0) with
      | .bare z => !(portAt {}).wrapBad 3 z
      | _ => false) = true ∧
    (let v : SsEnt := { valid := true, ports := 8, fresh := 1, wrap := 4 }
     ((portAt {}).modSt (fun t => { t with ss := [(0, v)] })).wrapBad 3 { smpCnt := 4 } = true) ∧
    (let g : Gap := { first := 1, last := 2, count := 2, cut := false, tFirst := 0, tLast := 0, isOpen := false, pos := 0 }
     ((portAt { fifo := [.gap g] }).sport 3).fifo = [.gap g] ∧ g.isOpen = false) ∧
    (let s := (portAt {}).setDom 49 { state := .on }
     (s.sport 3).en = false ∧ (s.sport 3).state = .off ∧ (s.dom (46 + 3)).holdOff = false ∧ (s.dom (46 + 3)).state = .on ∧
     takes s 0x50300 ((rq 0x0F 0).lower.force 0 1 1) = true) ∧
    (let x : SPort := { state := .draining }
     x.fifo = [] ∧ x.jobs = [] ∧ x.en = false) := by decide +kernel

/-- The job of frame 7 at a tag unit, its value the tag of an empty span under a key of zeros, or another one; a port that repairs; and a
publisher with an entry of each kind of freshness. -/
theorem witness_FrameVerdicts :
    let j (v : List Byte) : Job := {
      seq := 7, first := 0, last := 0, parsed := { value := v }, entry := 0, km := {}, key := zeros 160, rolled := false, overcap := false,
      q := 1, pos := 0, beats := 1, unit := some 0x201 }
    let s (v : List Byte) := portAt { state := .run, jobs := [j v] }
    let tag := frameTag 0 (zeros 160) {}
    let e : SsEnt := { valid := true, ports := 8, fresh := 1, wrap := 4 }
    let f (e : SsEnt) : State := (s tag).modSt (fun t => { t with ss := [(0, e)] })
    ((s []).sport 3).jobs.find? (fun j => decide (j.seq = 7) && (j.unit.isSome || j.done)) = some (j []) ∧ (j []).key.isEmpty = false ∧
    (s []).edgeRepairs 3 = false ∧ (portAt { state := .restart, jobs := [j []] }).edgeRepairs 3 = true ∧
    frameTag (j []).km.form.toNat (j []).key (j []).parsed ≠ (j []).parsed.value ∧
    frameTag (j tag).km.form.toNat (j tag).key (j tag).parsed = (j tag).parsed.value ∧ (s tag).stream? 3 (j tag).parsed = none ∧
    (f e).stream? 3 (j tag).parsed = some (0, e) ∧ freshFits 1 0 = true ∧ freshFits 2 0 = false ∧
    (e.accept (BitVec.ofNat 64 (e.freshValue (j tag).parsed))).1 = true ∧
    (let old : SsEnt := { e with seeded := true, win := 1 }
     (f old).stream? 3 (j tag).parsed = some (0, old) ∧ (old.accept (BitVec.ofNat 64 (old.freshValue (j tag).parsed))).1 = false) := by
  decide +kernel

/-- Values 64 behind and 63 behind the highest, and one ahead by 63. -/
theorem witness_FreshnessWindow :
    let e : SsEnt := { fresh := 2, seeded := true, hi := 100, win := 1 }
    e.fresh ≠ 0 ∧ ({ e with seeded := false } : SsEnt).seeded = false ∧ e.hi.toNat < (163 : DWord).toNat ∧
    163 - e.hi.toNat + 0 < 64 ∧ e.hi.toNat - (37 : DWord).toNat < 64 ∧ e.win.getLsbD (e.hi.toNat - 37) = false ∧
    64 ≤ e.hi.toNat - (36 : DWord).toNat ∧ e.win.getLsbD (e.hi.toNat - 100) = true := by decide

/-- The stream key that the slot cache holds. -/
def streamKey : SlotEnt := { attr := {
  world := 1, lcMask := 0x1F, binding := 0x10, hmacStates := true, keyKept := true, perms := 0x7F, keyLen := 32 }, area := zeros 160 }

/-- A stage with a reserved form, one that clashes, a good one on a good slot and on one of another function; entry 4,095 valid and
pending; a change that waits. -/
theorem witness_KeyMapCommands :
    let good : KmEnt := { ports := 1, slot := 262144 }
    let s : State := ({ up with vt := { up.vt with state := .vopen, slots := [(262144, streamKey)] } } : State).modSt
      (fun t => { t with kmStage := good })
    let v := s.modSt (fun t => { t with kmSel := 4095, km := [(4095, { good with valid := true, pending := true })] })
    s.st.kmBusy = false ∧ takes s 0x51008 ((rq 0x0F 0).lower.force 0 3 2) = true ∧ s.kmRange { good with form := 5 } = true ∧
    s.kmRange good = false ∧ v.kmDup 0 good = true ∧ s.kmDup 0 good = false ∧ (match s.look 262144 with
      | .hit e => decide (e = streamKey)
      | _ => false) = true ∧
    s.kmSlotOk { good with fn := 1 } streamKey = false ∧ s.kmSlotOk good streamKey = true ∧ (v.st.km.get {} 4095).valid = true ∧
    v.st.kmAct = 0 ∧ (v.modSt (fun t => { t with kmAct := 1 })).st.kmAct ≠ 0 ∧ (v.st.km.get {} 4095).pending = true ∧
    (v.st.km.get {} 4095).actTime.toNat ≤ v.po.tm.toNat ∧
    takes s 0x51008 ((rq 0x0F 0).lower.undefinedOp 0 3 0 (fun n => decide (1 ≤ n ∧ n ≤ 4))) = true ∧ s.kmUsed 4095 true = false ∧
    (let b := s.modSt (fun t => { t with kmBusy := true, kmOld := some (4095, 262144) })
     b.st.kmBusy = true ∧ b.st.kmOld = some (4095, 262144) ∧ b.kmUsed 4095 true = false ∧
     takes b 0x51008 ((rq 0x0F 0).lower.force 0 3 2) = true) := by decide +kernel

theorem witness_StreamTableCommands :
    let s := up.modSt (fun t => { t with ss := [(8191, { valid := true, ports := 1 })], ssStage := { ports := 1 } })
    takes s 0x52008 ((rq 0x0F 0).lower.force 0 2 2) = true ∧ takes s 0x52008 ((rq 0x0F 0).lower.force 0 2 0) = true ∧
    ({ srcKind := 3 } : SsEnt).srcKind = 3 ∧ ({ fresh := 1 } : SsEnt).wrap = 0 ∧
    ¬(s.st.ssStage.srcKind = 3 ∨ (s.st.ssStage.fresh = 1 ∧ s.st.ssStage.wrap = 0)) ∧
    s.st.ss.any (fun x => decide (x.1 ≠ 0) && x.2.valid && decide (x.2.ports &&& (1 : BitVec 4) ≠ 0)) = true ∧
    up.st.ss.any (fun x => decide (x.1 ≠ 0)) = false := by decide +kernel

/-! Engines -/

theorem witness_DigestContexts :
    (let c : DCtx := { place := .spilling 0x120 5 }
     let s := up.modDg (fun d => { d with ctxs := [(3, c)] })
     s.fc.halted = false ∧ s.dctx 3 = some c ∧ c.place = .spilling 0x120 5) ∧
    (let e : TagEnt := { phase := .running 0x120 }
     let s : State := { up with sq := { up.sq with tags := [(3, e)] } }
     let t := s.modDg (fun d => { d with ctxs := [(3, { place := .restoring 5 })] })
     s.sq.tags.find? (fun p => decide (p.1 = 3 ∨ sessionOf p.2 = some 3) && p.2.phase.unit?.isSome) = some (3, e) ∧
     e.phase.unit? = some 0x120 ∧ (s.restoreCtx 3 0x120 (zeros 512)).1 = true ∧ (t.restoreCtx 3 0x120 (zeros 512)).1 = false) ∧
    (takes up 0x70018 (rq 0xFF 1) = true ∧
     up.dg.ctxs.any (fun p => decide (16384 ≤ p.1) || p.2.place.isSpilled) = false ∧
     bit (up.wreq 0x70018 (rq 0xFF 1)).x 0 = true ∧ bit (up.wreq 0x70018 (rq 0xFF 0x200000)).x 0 = false) ∧
    (let s := up.modDg (fun d => { d with ctxs := [(16384, {})], spillEn := true })
     takes s 0x70018 (rq 0xFF 0) = true ∧ s.dg.ctxs.any (fun p => decide (16384 ≤ p.1) || p.2.place.isSpilled) = true ∧
     bit (s.wreq 0x70018 (rq 0xFF 0)).x 0 = false) := by decide +kernel

/-- The ends of both intervals; a generator that is READY with a pool of just 512 bits, one in ERROR, one in STARTUP of a chip in TEST
life, one in RAW that covers ERROR; a second failure and a third within a second; and a link at work on a modular core, whose impression
is written. -/
theorem witness_RandomGenerator :
    let s := up.modRng (fun g => { g with state := .ready, reseeding := true, pool := 512 })
    let test : State := { s with ts := { s.ts with lcs := 0 } }
    let busy := openAll (sharing 0x308 0x140 .p)
    let third : State := { s.modRng (fun g => { g with failTimes := [1, 1] }) with po := { s.po with tm := 1000000000 } }
    ¬(1 ≤ (fld (0x1403E9 : DWord) 0 10).toNat ∧ (fld (0x1403E9 : DWord) 0 10).toNat ≤ 1000 ∧
      10 ≤ (fld (0x1403E9 : DWord) 16 5).toNat ∧ (fld (0x1403E9 : DWord) 16 5).toNat ≤ 20) ∧
    (1 ≤ (fld (0xA0001 : DWord) 0 10).toNat ∧ (fld (0x1403E8 : DWord) 0 10).toNat ≤ 1000 ∧
      10 ≤ (fld (0xA0001 : DWord) 16 5).toNat ∧ (fld (0x1403E8 : DWord) 16 5).toNat ≤ 20) ∧
    takes s 0x80200 (rq 0x0F 0x1403E8).lower = true ∧ bit (0x1403E8 : DWord) 28 = s.pk.rng.rawMode ∧
    takes s 0x80200 ((rq 0x0F 0x1403E8).lower.force 24 1 1) = true ∧ bit (0x1403E8 : DWord) 25 = false ∧
    (up.modRng (fun g => { g with state := .error })).pk.rng.state = .error ∧ test.testLife = true ∧
    bit (0x101403E8 : DWord) 28 = true ∧ (up.modRng (fun g => { g with state := .raw })).pk.rng.state = .raw ∧
    takes up 0x80218 (rq 0xFF 0) = true ∧ s.pk.rng.state = .ready ∧ s.pk.rng.reseeding = true ∧ 512 ≤ s.pk.rng.pool ∧
    s.pk.rng.rawMode = false ∧ (up.unit 0x00B).outOfService = false ∧ 
    (let raw := test.modRng (fun g => { g with rawMode := true, under := .error, state := .raw })
     raw.testLife = true ∧ raw.pk.rng.rawMode = true ∧ bit (0x1403E8 : DWord) 28 = false ∧ raw.pk.rng.under ≠ .ready ∧
     raw.pk.rng.under ≠ .startup) ∧
    ((s.po.tm :: s.pk.rng.failTimes).take 3).length < 3 ∧ ((third.po.tm :: third.pk.rng.failTimes).take 3)[2]? = some 1 ∧
    third.po.tm.toNat < (1 : DWord).toNat + 1000000000 ∧ (busy.unit 0x140).busy = some 3 ∧
    atMark 0x308 0x140 .p 0 0 false = true := by decide +kernel

/-- A slot that is being read, a batch that forms and one that is issued, a sweep at its end and one that stands on a slot whose
path is cached, or is not authentic, and a vault whose place is not yet set, and is locked. -/
theorem witness_VaultEvents :
    let opened : State := { up with vt := { up.vt with state := .vopen } }
    let at0 : State := { opened with
      d0 := { up.d0 with sweepActive := true, root := [1, 1, 1] },
      vt := { opened.vt with
        slots := [(0, streamKey)], nodes := (List.range 6).map (fun l => (nodeKey l 0, List.replicate 8 1)) }
      po := { up.po with txns := [{ id := 1, who := .sweep, fn := 0, world := true, addr := 0, len := 256, write := false }] } }
    let cold : State := { at0 with vt := { at0.vt with slots := [], nodes := [] } }
    let bad : VaultRead := { record := [], nodes := [], blob := [], image := [], failed := true }
    let q : FabReq := { id := 1, who := .vaultRead 262144, fn := 0, world := true, addr := 0, len := 256, write := false }
    up.fc.halted = false ∧ up.stopped 0x004 = false ∧
    (opened.modVt (fun v => { v with reading := [262144] })).vt.reading.contains 262144 = true ∧
    [q].any (fun q => decide (q.who = .vaultRead 262144)) = true ∧ opened.d0.batch = none ∧
    ({} : Batch).closed = false ∧ ({ issued := true } : Batch).issued = true ∧
    at0.d0.sweepActive = true ∧ at0.vt.state = .vopen ∧ at0.vt.closing = false ∧ at0.vt.stopped = false ∧ at0.vt.recoverDue = false ∧
    at0.vt.batches = [] ∧ at0.vt.sweepAt < 2 ^ 19 ∧ at0.zeroPlace 0 = none ∧ bad.failed = true ∧
    (let s := cold.answered (fun w => decide (w = .sweep))
     s.vt.sweepClear = false ∧ s.vt.nodeRoom = true ∧
     (match State.verifyPath 0 [] false 6 5 (s.touchPath 0) with
      | .ok _ => false
      | .error _ => true) = true) ∧
    at0.sweepReads = true ∧ at0.vt.nodeRoom = true ∧
    (match State.verifyPath 0 [] false 6 5 (at0.touchPath 0) with
      | .ok v => decide (v.zeroPlace 0 = none) && decide (v.current 0 = some streamKey)
      | .error _ => false) = true ∧
    2 ^ 19 ≤ ({ at0.vt with sweepAt := 2 ^ 19 } : VaultSt).sweepAt ∧ up.vt.lock = false ∧ up.vt.valid = false ∧
    takes up 0xA0000 (rq 0xFF 1) = true ∧ takes up 0xA0008 (rq 0xFF 1) = true ∧ up.vt.blobLock = false ∧ up.vt.blobValid = false ∧
    (opened.modVt (fun v => { v with lock := true })).vt.lock = true := by decide +kernel

/-- An image header that keeps to Table 11.10, for a code of 4 bytes without data. -/
def bootHeader : List Byte :=
  [0x42, 0x55, 0x46, 0x57] ++ zeros 8 ++ leBytes 4 0x100000 ++ leBytes 4 4 ++ zeros 44

/-- Each life-cycle state and state of the etch; a boot whose header fails, one of an unsigned image in TEST life, and an etched link
that runs. -/
theorem witness_EtchingAndBoot :
    let dev (e : Etch) : State := { up with ts := { up.ts with lcs := 1 }, bu := { state := .bootFail, etch := e } }
    let boot : State := { up with
      ts := { up.ts with lcs := 0 }, bu := { state := .boot, unsignedOk := true },
      po := { up.po with txns := [{ id := 1, who := .bootImage, fn := 0, world := true, addr := 0, len := 64, write := false }] } }
    let opened := openAll boot
    bit (0 : DWord) 1 = false ∧ bit (0 : DWord) 2 = false ∧ up.ts.lcs ≠ 1 ∧
    takes (dev {}) 0xB0100 ((rq 0x0F 0).lower.force 0 1 1) = true ∧ takes (dev {}) 0xB0100 ((rq 0x0F 0).lower.force 0 1 0) = true ∧
    takes (dev {}) 0xB0100 ((rq 0x0F 0).lower.force 1 1 1) = true ∧ takes (dev {}) 0xB0100 ((rq 0x0F 0).lower.force 2 1 1) = true ∧
    (dev { lock := true }).bu.etch.lock = true ∧ (dev {}).etchedRuns = false ∧ (dev {}).bu.etch.isOpen = false ∧
    (dev {}).bu.etch.waits = false ∧ (running 0xE00 0 0 0x003).etchedRuns = true ∧ (dev { waits := true }).bu.etch.waits = true ∧
    (dev { isOpen := true }).bu.etch.isOpen = true ∧ (dev { isOpen := true }).bu.etch.valid = true ∧
    (dev { isOpen := true, entries := [(0, 0x3000)] }).bu.etch.valid = false ∧
    takes (dev { isOpen := true }) 0xB0110 (rq 0xFF 5) = true ∧ (dev {}).bu.state = .bootFail ∧ (dev {}).bu.ptrLock = false ∧
    takes (dev {}) 0xB0008 ((rq 0xFF 0).force 0 1 1) = true ∧ boot.bu.state = .boot ∧
    boot.po.txns.any (fun t => decide (t.who = .bootImage)) = true ∧ boot.fc.halted = false ∧
    imageHeaderOk (fit 64 []) = false ∧ imageHeaderOk (fit 64 bootHeader) = true ∧
    ((opened.answered (· == .bootImage)).fabRead .bootImage 0 64 8 false).1 = true ∧ fieldAt bootHeader 8 4 ≤ idVersion ∧
    (opened.testLife && opened.bu.unsignedOk) = true ∧
    (running 0xE00 0 0 0x003).tag? 3 = some { desc := { opcode := 0xE00 }, phase := .running 0x003 } ∧
    (running 0xE00 0 0 0x003).bu.state = .run ∧ isEtched 0xE00 = true := by decide +kernel

/-! Mailboxes and the mover -/

/-- Mailbox 5 of a function that is ENABLED, a request to Burin in it, and a sender of the port and of Burin. -/
theorem witness_MailboxCommands :
    let s := fnAt 5 .enabled {}
    let m : MbMsg := { words := [], stamp := 0, initiator := 0 }
    (s.fn 5).state = .enabled ∧ s.adminOff 2 = false ∧ takes s (fnPage 5 0x1038) ((rq 0xF0 0).upper.force 32 1 1) = true ∧
    takes s (fnPage 5 0x1078) ((rq 0xF0 0).upper.force 32 1 1) = true ∧ beLo 0x0F = true ∧ takes s (fnPage 5 0x1080) (rq 0x0F 2) = true ∧
    ({ rq 0x0F 0 with initiator := burinId } : PortReq).initiator = burinId ∧ s.adminOff 8 = false ∧
    s.goIgnored (.burinToFn 5) = false ∧ (s.path (.burinToFn 5)).rx = none ∧ MailBox.senToBurin ≠ .vsToBurin ∧
    (({ s with mb := { s.mb with senTo := { rx := some m } } } : State).path .senToBurin).rx = some m := by decide +kernel

theorem witness_MailboxRequests :
    let m (h : Word) : MbMsg := { words := h :: List.replicate 13 0, stamp := 0, initiator := 0 }
    let s (h : Word) : State := { fnAt 5 .enabled {} with
      bu := { state := .run }, mb := { up.mb with toBurin := [(5, { rx := some (m h) })] } }
    ((s 0xD0001).path (.fnToBurin 5)).rx = some (m 0xD0001) ∧ ((s 1).path (.burinToFn 5)).rx = none ∧
    ((s 1).fn 5).state = .enabled ∧ (s 1).bu.state = .run ∧ (s 1).fc.halted = false ∧
    (wordAt (m 0xD0001).words 0).toNat % 256 = 1 ∧ (wordAt (m 0xD0001).words 0).toNat / 65536 % 16 ≤ 13 ∧
    (wordAt (m 5).words 0).toNat % 256 = 5 ∧ 5 < (wordAt (m 6).words 0).toNat % 256 ∧
    (wordAt (m 5).words 0).toNat / 65536 % 16 = 0 := by decide +kernel

/-- Channel 31 idle with a block to move, and running; bursts in each phase; a channel whose CRC is on its way. -/
theorem witness_MoverChannels :
    let b : Burst := { no := 0, src := 0, dst := 0, len := 64 }
    let ch (x : DmaCh) : State := { up with dm := { up.dm with chs := [(31, x)] } }
    let idle := ch { dst := 0x1000, remain := 64 }
    let run (p : BurstPhase) := ch { state := .run, retry := 1, bursts := [{ b with phase := p }] }
    (idle.ch 31).state = .idle ∧ (idle.unit 0x00D).outOfService = false ∧ bit (1 : DWord) 1 = false ∧ bit (1 : DWord) 2 = false ∧
    (idle.ch 31).configOk 31 = true ∧ takes idle (0xD0000 + 31 * 0x40) ((rq 0x0F 0).lower.force 0 1 1) = true ∧
    takes (run .reading) (0xD0000 + 31 * 0x40) ((rq 0x0F 0).lower.force 1 1 1) = true ∧ ((run .reading).ch 31).state = .run ∧
    beOk ({ rq 0x0F 0 with initiator := burinId } : PortReq).be = true ∧
    (run .reading).burst? 31 0 = some { b with phase := .reading } ∧ (run .reading).fc.halted = false ∧
    (run .writing).burst? 31 0 = some { b with phase := .writing } ∧
    (run .readRetry).burst? 31 0 = some { b with phase := .readRetry } ∧
    (run .writeRetry).burst? 31 0 = some { b with phase := .writeRetry } ∧ b.tries < ((run .reading).ch 31).retry.toNat ∧
    ((ch { crcOut := true }).ch 31).crcOut = true ∧ ((ch { crcOut := true }).ch 31).state ≠ .stopping := by decide +kernel

/-! Faults, power, protection -/

/-- A lock-step fault of the last digest lane, an error of the vault's caches and of Burin's memory, a mismatch of the last port's comparator, and a
message that waits. -/
theorem witness_FaultReports :
    let s := up.setUnit 0x128 { role := .working }
    let j : Job := {
      seq := 7, first := 0, last := 0, parsed := {}, entry := 0, km := {}, key := [], rolled := false, overcap := false, q := 1, pos := 0,
      beats := 1, unit := some 0x231 }
    let t := (portAt { state := .run, jobs := [j] }).setDom 49 { state := .on }
    checkerHas 0x128 1 = true ∧ s.reports 0x128 = true ∧ s.fc.injLeft = 0 ∧ isComparator 0x128 = false ∧ checkerHas 0x004 0x04 = true ∧
    (s.setUnit 0x004 { role := .working }).reports 0x004 = true ∧ checkerHas 0x003 0x32 = true ∧ isComparator 0x003 = false ∧
    (s.setUnit 0x003 { role := .working }).reports 0x003 = true ∧ checkerHas 0x238 5 = true ∧ isComparator 0x238 = true ∧
    t.reports 0x238 = true ∧ (t.sport ((0x238 - 0x200) / 16)).jobs = [j] ∧ t.fc.halted = false ∧
    (s.raise 0x128 1 0).fc.waiting.find? (fun m => decide (m.source.toNat = 0x128)) ≠ none := by decide +kernel

/-- A fixed level, the count that reaches N and the one before it, at the last microsecond of the window. -/
theorem witness_FaultLevels :
    let s (c : Byte) : State := { up.setSrc 0x00D { n := 8, wcode := 0, count := c } with po := { up.po with tm := 999 } }
    fixedLevel 0x00A 0x20 = some 4 ∧ fixedLevel 0x00D 0x10 = none ∧ progSource 0x00D = false ∧ baseLevel 0x10 ≤ 1 ∧
    ((s 7).src 0x00D).held = 0 ∧ ((s 7).src 0x00D).count ≠ 0 ∧
    ((s 7).po.tm - ((s 7).src 0x00D).winStart).toNat < 2 ^ ((s 7).src 0x00D).wcode.toNat * 1000 ∧
    ((s 7).src 0x00D).n.toNat ≤ ((s 7).src 0x00D).count.toNat + 1 ∧ ((s 6).src 0x00D).count.toNat + 1 < ((s 6).src 0x00D).n.toNat := by
  decide +kernel

/-- A held record, values at the ends of their ranges, an injection in TEST life, and a unit out of service. -/
theorem witness_FaultRegisters :
    let s : State := { (up.setSrc 0x00D { held := 2 }).setUnit 0x00D { outOfService := true } with ts := { up.ts with lcs := 0 } }
    let t : State := { s with fc := { s.fc with sel := 0x006 } }
    takes s 0xE0028 (rq 0x0F 0xD).lower = true ∧ 2 ≤ (s.src (fld (0xD : DWord) 0 12).toNat).held ∧
    takes s 0xE0008 (rq 0x0F 0x1B4).lower = true ∧ (fld (0x1B4 : DWord) 2 3).toNat = 5 ∧ (fld (0x1B4 : DWord) 5 3).toNat = 5 ∧
    fld (0x1B4 : DWord) 8 16 ≠ 0 ∧ s.fc.lock = false ∧ takes t 0xE0018 (rq 0x0F 0x51801).lower = true ∧
    knownSource t.fc.sel.toNat = true ∧ fld (0x51801 : DWord) 0 8 ≠ 0 ∧ (fld (0x51801 : DWord) 8 5).toNat = 24 ∧
    progSource t.fc.sel.toNat = true ∧ (fld (0x51801 : DWord) 16 3).toNat = 5 ∧ (t.src t.fc.sel.toNat).lock = false ∧
    takes s 0xE0040 ((rq 0x0F 0).lower.force 0 1 1) = true ∧ s.fc.injLeft = 0 ∧ s.testLife = true ∧
    takes s 0xE0048 ((rq 0x0F 0xFF0111).lower.force 24 1 1) = true ∧ fld (0xFF0111 : DWord) 16 8 ≠ 0 ∧
    (classKind (fld (0xFF0111 : DWord) 0 12).toNat (fld (0xFF0111 : DWord) 12 4).toNat).isSome = true ∧
    takes s 0xE0050 ((rq 0x0F 0xD).lower.force 12 2 1) = true ∧ s.fc.unitBusy = false ∧ s.fc.halted = false ∧
    returnable (fld (0xD : DWord) 0 12).toNat = true ∧ (s.unit 0x00D).outOfService = true ∧ (unitDomain 0x00D).isSome = true ∧
    takes s 0xE0050 ((rq 0x0F 0).lower.undefinedOp 12 2 0 (fun n => decide (n = 1))) = true := by decide +kernel

/-- A unit in proof before and at its last clean cycle, a domain in each state of the handshake, and a hold-off that may be ordered, one
that may not, and a withdrawal. -/
theorem witness_DomainsAndProofing :
    (let s := { up.setUnit 0x111 { role := .proofing, clean := 998, need := 1000 } with bu := { state := .run }, pw := { up.pw with phase := .ready } }
     let t := { up.setUnit 0x111 { role := .proofing, clean := 999, need := 1000 } with bu := { state := .run }, pw := { up.pw with phase := .ready } }
     (poolOf 0x111).isSome = true ∧ (s.unit 0x111).role = .proofing ∧ s.fc.halted = false ∧ s.bu.state = .run ∧
     (s.unit 0x111).clean + 1 < (s.unit 0x111).need ∧ t.pw.phase = .ready ∧ (t.unit 0x111).need ≤ (t.unit 0x111).clean + 1 ∧
     (t.unit 0x111).gatedSpare = false ∧ t.bu.state = .run ∧
     (let g := { up.setUnit 0x111 { role := .proofing, clean := 9, need := 10, gatedSpare := true } with
        pw := { up.pw with phase := .ready }, pf := { up.pf with current := 2 } }
      (g.unit 0x111).need = 10 ∧ 10 ≤ (g.unit 0x111).clean + 1 ∧ (g.unit 0x111).gatedSpare = true ∧ g.pf.current = 2 ∧
      (unitDomain 0x111).isSome = true ∧ g.pw.phase = .ready)) ∧
    (let d (n : Nat) := up.setUnit 0x111 { role := .working, clean := n, need := 50 }
     (poolOf 0x111).isSome = true ∧ ((d 48).unit 0x111).role = .working ∧ ((d 48).unit 0x111).need = 50 ∧ (d 48).fc.halted = false ∧
     ((d 48).unit 0x111).clean + 1 < 50 ∧ 50 ≤ ((d 49).unit 0x111).clean + 1) ∧
    (let ramp := up.setDom 51 { req := true, state := .ramp, why := .none }
     let lost := up.setDom 27 { req := true, state := .failed }
     let held := (up.setDom 49 { holdOff := true }).modPw (fun p => { p with domSel := 49 })
     (ramp.dom 51).ack = false ∧ (ramp.dom 51).req = true ∧ (ramp.dom 51).state = .ramp ∧ (ramp.dom 51).req ≠ (ramp.dom 51).ack ∧ (ramp.dom 51).late = false ∧
     ({ state := .restore } : Dom).why = .none ∧ ({ state := .restore, why := .restart } : Dom).why = .restart ∧ singleUnit 27 = none ∧
     (lost.dom 27).req ≠ (lost.dom 27).ack ∧ (lost.dom 27).state = .failed ∧ (lost.dom 27).why ≠ .retired ∧
     (lost.dom 27).why ≠ .startup ∧ domainUnit 27 = some 0x111 ∧ isSingle 0x111 = false ∧ haltsWhenLost 0x111 = false ∧
     takes up 0x100028 (rq 0x0F 1).lower = true ∧ up.mayHold 8 = false ∧ up.mayHold 51 = true ∧ (up.dom 51).holdOff = false ∧
     held.pw.domSel.toNat < 52 ∧ held.mayHold 49 = true ∧ (held.dom 49).holdOff = true ∧ (held.dom 49).why ≠ .retired) := by
  decide +kernel

theorem witness_Resets :
    let ids : Identity := { lot := 0, wafer := 0, diex := 0, diey := 0, inst := 0, lcs := 0, mfr := 0, fiMode := false, valid := true }
    takes up 0x100018 ((rq 0x0F 0).lower.force 0 1 1) = true ∧ up.d0.onCell = false ∧ up.pw.blkAsserted ≠ true ∧
    up.pw.phase = .sentinel ∧ up.po.ident.valid = false ∧ ids.valid = true ∧ up.pw.porAsserted = false ∧
    ({ up.d0 with onCell := true } : D0).onCell = true ∧ up.ts.cell ≠ .critical ∧
    ({ up.ts with cell := .critical } : Tamper).cell = .critical := by decide +kernel

/-- A vault state that is good, one that was burnished with a generator that can and cannot serve; a pool below and at 768 bits in each STATE
that fills it. -/
theorem witness_ReadyAndTime :
    (let s := up.modPw (fun p => { p with phase := .unseal })
     let b := s.modD0 (fun d => { d with burnished := true })
     let r := b.modRng (fun g => { g with state := .ready })
     s.pw.phase = .unseal ∧ s.pw.backupLost = false ∧ s.d0.burnished = false ∧ b.d0.burnished = true ∧
     (match (b.request 32).1, ((b.modRng (fun g => { g with state := .repair })).request 32).1 with
      | .fail, .wait => true
      | _, _ => false) = true ∧
     (match (r.request 32).1 with
      | .got _ => true
      | _ => false) = true) ∧
    (up.modPw (fun p => { p with refOk := true })).pw.refOk = true ∧ up.pw.refOk = false ∧ up.bu.state ≠ .rollback ∧
    (let at_ (st : RngState) (n : Nat) : Rng := ({ state := st, pool := n, passed := 1024 } : Rng).fill 20
     (at_ .startup 766).pool = 767 ∧ (at_ .startup 767).pool = 768 ∧ (at_ .startup 767).state = .startup ∧
     (at_ .ready 767).pool = 768 ∧ (at_ .ready 767).state = .ready ∧ (at_ .ready 767).reserve = [] ∧ (at_ .ready 767).reseeding = false ∧
     (at_ .raw 0).state ≠ .ready) := by decide +kernel

/-- Lines 0 and 15 rise together, one of them armed; a cell that runs low; a free line and one that is locked; a test that may run, one
of window 0, and one that ends. -/
theorem witness_TamperResponses :
    (let s : State := { up with d0 := { up.d0 with onCell := true, lines := [(15, { en := true, response := 0 })] } }
     ((List.range 16).filter (fun n => (0x8001 : BitVec 16).getLsbD n && !s.ts.levels.getLsbD n)).filter
       (fun n => (s.line n).en && !s.ts.supp.getLsbD n) = [15] ∧
     s.d0.onCell = true ∧ s.ts.cell ≠ .critical ∧ Cell.low ≠ .critical ∧
     takes up 0xF8000 ((rq 0x0F 0).lower.force 0 1 1) = true ∧ takes up 0xF8000 ((rq 0x0F 0).lower.force 1 1 1) = true ∧
     takes up 0xF8200 ((rq 0x0F 0).lower.force 16 1 1) = true) ∧
    (let go := (rq 0x0F 0x1F).lower.force 14 1 1
     takes up 0xF8138 ((rq 0xF0 0).half 15) = true ∧ up.ts.locks.getLsbD 15 = false ∧
     ({ up.ts with locks := 0x8000 } : Tamper).locks.getLsbD 15 = true ∧
     BitVec.extractLsb' 1 2 (hiHalf (0x500000000 : DWord)) ≠ (3 : BitVec 2) ∧ takes up 0xF8010 go = true ∧
     (up.ts.testBusy || decide (fld (0x1F : DWord) 4 10 = 0) || up.d0.onCell) = false ∧ up.ts.lastTest.get none 15 = none ∧
     fld (0xF : DWord) 4 10 = 0 ∧ ({ up.ts with testBusy := true, supp := 1#16 <<< 15 } : Tamper).supp = 1#16 <<< 15 ∧
     ({ up.ts with testBusy := true } : Tamper).testBusy = true) := by
  decide +kernel

/-- An entry that is locked and one that is not, stages on both sides of END = START, and the last page owner. -/
theorem witness_RegionTable :
    let locked := up.modPr (fun p => { p with regions := [(0, { lock := true })] })
    takes up 0xF0008 ((rq 0x0F 0).lower.force 0 2 2) = true ∧ takes up 0xF0008 ((rq 0x0F 0).lower.force 0 2 0) = true ∧
    (locked.pr.regions.get {} locked.pr.sel.toNat).lock = true ∧ (up.pr.regions.get {} up.pr.sel.toNat).lock = false ∧
    ({ start := 1 } : Region).last.toNat < ({ start := 1 } : Region).start.toNat ∧ up.pr.stage.start.toNat ≤ up.pr.stage.last.toNat ∧
    up.oldAccesses = false ∧ takes up 0xF0108 (rq 0xFF 0) = true ∧
    (up.modPr (fun p => { p with poSel := 1043 })).pr.poSel.toNat < 1044 ∧ fld (0x200000000 : DWord) 32 2 ≠ 3 ∧
    (up.owner 1043).lock = false := by decide +kernel

theorem witness_DebugAndJournal :
    takes up 0x110000 (rq 0x0F 0).lower = true ∧ takes up 0x120008 (rq 0x0F 0x15).lower = true ∧
    ({ up.jn with lock := true } : Journal).lock = true ∧ up.jn.lock = false ∧ (fld (0x14 : DWord) 1 4).toNat ≤ 10 ∧
    takes up 0x120010 (rq 0xF0 0).upper = true ∧ takes up 0x120018 (rq 0x0F 0) = true := by decide +kernel

/-! Ports -/

/-- A link's read before and after its last retry, one that waits for its timer, the two values of a time limit, and credits. -/
theorem witness_FabricAnswers :
    let q : FabReq := { id := 1, who := .link 3, fn := 0, world := true, addr := 0, len := 16, write := false }
    let s (q : FabReq) : State := { up with po := { up.po with txns := [q] } }
    (s q).txn? 1 = some q ∧ (s q).txn? 2 = none ∧ q.backoff = false ∧ q.who.isDma = false ∧ q.retries < q.maxRetries.toNat ∧
    ({ q with retries := 3 } : FabReq).maxRetries.toNat ≤ ({ q with retries := 3 } : FabReq).retries ∧ (Who.dmaRead 31 0).isDma = true ∧
    checkerHas (pathSource true) 1 = true ∧
    (s { q with backoff := true }).txn? 1 = some { q with backoff := true } ∧
    ((s { q with backoff := true }).fc.halted && q.write) = false ∧ (s { q with backoff := true }).allowed q.fn q.addr q.len q.write = false ∧
    ({ s { q with backoff := true } with pr := { up.pr with regions := [(0, { valid := true, read := true })] } } : State).allowed
      q.fn q.addr q.len q.write = true ∧
    (up.setUnit (pathSource true) { role := .working }).reports (pathSource true) = true ∧ up.fc.injLeft = 0 ∧
    takes up 0x10020 (rq 0x0F 0x100).lower = true ∧ fld (0x100 : DWord) 8 16 ≠ 0 ∧ fld (7 : DWord) 8 16 = 0 ∧
    up.po.fpaUp = true ∧ up.po.fpbUp = true ∧ (15 : BitVec 4) ≠ 0 := by decide +kernel

/-- An active master in TEST life that reads the debug page's neighbour through a page owner that lets it, and one that does not. -/
theorem witness_TestAccessPort :
    let s : State := { up.setDom 51 { state := .on } with
      ts := { up.ts with lcs := 0 },
      pr := { up.pr with master := true, owners := [(1024, { initiator := debugId })] } }
    let dr : BitVec 128 := BitVec.ofNat 128 (2 ^ 123)
    s.debugUp = true ∧ up.pr.master = false ∧ s.pr.master = true ∧ s.po.tapStatus ≠ 3 ∧ dr.getLsbD 121 = false ∧
    dr.getLsbD 122 = false ∧ dr.getLsbD 123 = true ∧ s.fc.lockdown = false ∧
    s.ownerPasses 0 debugId true false = true ∧ s.ownerPasses (fnPage 5 0) debugId true false = false := by decide +kernel

/-! The block as a whole -/

theorem witness_LockdownStands :
    let s : State := { up with fc := { up.fc with lockdown := true } }
    Instr.tapBypass ≠ .mainPowerLoss ∧ s.fc.lockdown = true ∧ lands (exec .tapBypass s) (fun _ => true) = true := by decide +kernel

theorem witness_StepRunsFront : State.reset.pending = [] := rfl

/-- Bad parity, a page without an owner, no whole half, a halt, a lockdown. -/
theorem witness_PortRefusals :
    up.po.rpUp = true ∧ ({ rq 0x0F 0 with parityOk := false } : PortReq).parityOk = false ∧ (rq 0x0F 0).parityOk = true ∧
    up.ownerPasses (fnPage 5 0) 1 true true = false ∧ up.ownerPasses 0x20000 1 true true = true ∧
    (beLo (rq 0x3C 0).be || beHi (rq 0x3C 0).be) = false ∧ (beLo (rq 0xF0 0).be || beHi (rq 0xF0 0).be) = true ∧
    ({ up.fc with lockdown := true } : Collector).lockdown = true ∧ ({ up.fc with halted := true } : Collector).halted = true ∧
    0xF0000 / 0x10000 ≠ 0x0E ∧ 0x10000 / 0x10000 ≠ 0 := by decide +kernel

/-- Each register that is named, offsets at the ends of the others' ranges, and a read without side effect. -/
theorem witness_PlainRegisters :
    ([0x20000, 0x20018, 0x30000, 0x30010, 0x40000, 0x51000, 0x52028, 0xA0018, 0xB0108, 0xD0800, 0xE0010, 0xF0010, 0x100020, 0, 0x60000,
      0x9FFF8, 0x130000, 0x3FFFF8, 0x1400000].all (fun o => takes up o (rq 0xFF 0))) = true ∧ 0x40000 ≠ powerOff ∧
    regTake up 0x40000 true true = up := by decide +kernel

theorem witness_FabricChecks :
    let w : Access := { who := .link 3, fn := 0, write := true }
    let r : Access := { who := .link 3, fn := 0, write := false }
    up.allowed w.fn 0 16 w.write = false ∧ (openAll up).allowed w.fn 0 16 w.write = true ∧
    ({ (openAll up).fc with halted := true } : Collector).halted = true ∧ w.write = true ∧ r.write = false ∧
    (openAll up).allowed r.fn (2 ^ 32 - 16) 16 r.write = true ∧ up.po.freeTid = some 0 := by decide +kernel

/-- A queue that is off, one whose type is off, one that is full, and one with a place left. -/
theorem witness_EventRecords :
    let q : EvQueue := { en := true, typeEn := 1 }
    let s (e : EvQueue) := openAll (up.modFn 0 (fun v => { v with eq := e }))
    ((s {}).fn 0).eq.en = false ∧ alwaysWritten 1 = false ∧ ((s q).fn 0).eq.typeEn.getLsbD 1 = false ∧
    ((s q).fn 0).eq.typeEn.getLsbD 0 = true ∧ (s q).fc.halted = false ∧
    (s q).silent 0 = false ∧ ((s q).modFn 0 (fun v => { v with quiet := true })).silent 0 = true ∧
    ({ q with prod := BitVec.ofNat 32 (queueSize 0 - 1) } : EvQueue).full = true ∧
    ({ q with prod := BitVec.ofNat 32 (queueSize 0 - 2) } : EvQueue).full = false ∧ (1 : Nat) ≠ 0 ∧
    (s q).allowed 0 (q.base.toNat * 4096 + q.prod.toNat % queueSize q.size * 32) 32 true = true := by decide +kernel

/-! The standards' own answers (FIPS 180-4, RFC 3720) -/

theorem test_sha256_abc : sha256 [0x61, 0x62, 0x63] =
    [0xBA, 0x78, 0x16, 0xBF, 0x8F, 0x01, 0xCF, 0xEA, 0x41, 0x41, 0x40, 0xDE, 0x5D, 0xAE, 0x22, 0x23,
     0xB0, 0x03, 0x61, 0xA3, 0x96, 0x17, 0x7A, 0x9C, 0xB4, 0x10, 0xFF, 0x61, 0xF2, 0x00, 0x15, 0xAD] := by
  decide +kernel

/-- CRC-32C of the nine digits. -/
theorem test_crc32c : crc32c [0x31, 0x32, 0x33, 0x34, 0x35, 0x36, 0x37, 0x38, 0x39] = 0xE3069283 := by decide +kernel

/-- FT_CMD's ENABLE on a READY virtual function. -/
theorem test_ft_enable :
    lands (exec (.ftEnable (rq 0xFF 3)) ((up.modFx (fun x => { x with sel := 3 })).modFn 3 (fun v => { v with state := .ready })))
      (fun t => decide ((t.fn 3).state = .enabled)) = true := by decide +kernel

end Sys2Proof.Tests
end

section
/-! SUPPORT. The sequencer's registers and profiles (04_chains.md R96, R107–R110, R407): what no operation of the schedule
touches, what a write to each register does, what a completed change leaves, and the statement about them. -/

namespace Sys2Proof.Machine

variable (s : State)

/-! Global control and the register port through the schedule -/

/-- What scheduling leaves alone of the state: the GC_ registers with the profile change under way, and the register port's
up signal. -/
def State.controls (s : State) : Profile × Bool := (s.pf, s.po.rpUp)

theorem State.pf_of_controls {s t : State} (h : t.controls = s.controls) : t.pf = s.pf := congrArg Prod.fst h

theorem State.rpUp_of_controls {s t : State} (h : t.controls = s.controls) : t.po.rpUp = s.po.rpUp := congrArg Prod.snd h

theorem State.controls_foldl {α : Type} {f : State → α → State} (h : ∀ s a, (f s a).controls = s.controls) (l : List α)
    (s : State) : (l.foldl f s).controls = s.controls := by
  induction l generalizing s with
  | nil => rfl
  | cons a r ih => rw [List.foldl_cons, ih, h]

@[simp] theorem State.controls_setTag (n : Nat) (x : TagEnt) : (s.setTag n x).controls = s.controls := rfl
@[simp] theorem State.controls_modUnit (n : Nat) (f : Lane → Lane) : (s.modUnit n f).controls = s.controls := rfl
@[simp] theorem State.controls_setDom (n : Nat) (x : Dom) : (s.setDom n x).controls = s.controls := rfl
@[simp] theorem State.controls_modDg (f : DigestSt → DigestSt) : (s.modDg f).controls = s.controls := rfl
@[simp] theorem State.controls_putDctx (k : Nat) (c : DCtx) : (s.putDctx k c).controls = s.controls := rfl
@[simp] theorem State.controls_dropDctx (k : Nat) : (s.dropDctx k).controls = s.controls := rfl
@[simp] theorem State.controls_freeOf (u : Nat) : (s.freeOf u).controls = s.controls := rfl
@[simp] theorem State.controls_estimate : s.estimate.controls = s.controls := rfl

/-! Fabric accesses and event records -/

theorem State.transmit_pf (q : FabReq) (again : Bool) : (s.transmit q again).pf = s.pf := by
  unfold State.transmit
  dsimp only
  split <;> simp

theorem State.issue1_pf (a : Access) (addr len : Nat) (d : List Byte) : (s.issue1 a addr len d).2.pf = s.pf := by
  unfold State.issue1
  dsimp only
  split
  · split
    · rfl
    · exact State.transmit_pf _ _ _
  · simp

theorem State.issueAll_pf (a : Access) (ps : List (Nat × Nat)) (d : List Byte) : (s.issueAll a ps d).2.pf = s.pf := by
  induction ps generalizing s d with
  | nil => rfl
  | cons p r ih =>
    obtain ⟨addr, len⟩ := p
    unfold State.issueAll
    dsimp only
    rw [ih, State.issue1_pf]

@[simp] theorem State.controls_issueAll (a : Access) (ps : List (Nat × Nat)) (d : List Byte) :
    (s.issueAll a ps d).2.controls = s.controls :=
  Prod.ext (s.issueAll_pf a ps d) (s.issueAll_rpUp a ps d)

theorem State.fabWrite_pf (w : Who) (fn addr : Nat) (d : List Byte) (c du : Bool) :
    (s.fabWrite w fn addr d c du).2.pf = s.pf :=
  s.issueAll_pf _ _ _

theorem State.controls_of_fabRead {s t : State} {w : Who} {fn addr len : Nat} {c ok : Bool}
    (h : s.fabRead w fn addr len c = (ok, t)) : t.controls = s.controls :=
  (congrArg (fun r => r.2.controls) h).symm.trans (s.controls_issueAll _ _ _)

theorem State.controls_of_fabWrite {s t : State} {w : Who} {fn addr : Nat} {d : List Byte} {c du ok : Bool}
    (h : s.fabWrite w fn addr d c du = (ok, t)) : t.controls = s.controls :=
  (congrArg (fun r => r.2.controls) h).symm.trans (s.controls_issueAll _ _ _)

theorem State.event_pf (q t a r : Nat) (d : List Byte) : (s.event q t a r d).pf = s.pf := by
  unfold State.event
  dsimp only
  split
  · rfl
  · split
    · rfl
    · unfold State.putEvent
      dsimp only
      split <;> simp [State.signal, State.modFn, State.fabWrite_pf]

@[simp] theorem State.controls_event (q t a r : Nat) (d : List Byte) : (s.event q t a r d).controls = s.controls :=
  Prod.ext (s.event_pf q t a r d) (s.event_rpUp q t a r d)

/-! Digest contexts -/

@[simp] theorem State.controls_clearCtxs (p : Nat → DCtx → Bool) : (s.clearCtxs p).2.controls = s.controls := by
  unfold State.clearCtxs
  refine (State.controls_foldl (fun u t => ?_) _ _).trans (s.controls_modDg _)
  split
  · split <;> simp
  · rfl

@[simp] theorem State.controls_clearLane (u : Nat) : (s.clearLane u).controls = s.controls := s.controls_clearCtxs _

@[simp] theorem State.controls_restoreFails (k u : Nat) : (s.restoreFails k u).controls = s.controls := by
  unfold State.restoreFails
  dsimp only
  split <;> simp

/-! A match whose arms issue a fabric access is split by a lemma over its arms: reduced in place, it would have the kernel
compute the access. -/

theorem CtxPlace.holds_of_arms {α : Type} {P : α → Prop} {f h i : Nat → α} {g : Nat → Nat → α} (p : CtxPlace)
    (lane : ∀ u, P (f u)) (spilling : ∀ u c, P (g u c)) (spilled : ∀ c, P (h c)) (restoring : ∀ c, P (i c)) :
    P (match p with
      | .lane u => f u
      | .spilling u c => g u c
      | .spilled c => h c
      | .restoring c => i c) := by
  cases p with
  | lane u => exact lane u
  | spilling u c => exact spilling u c
  | spilled c => exact spilled c
  | restoring c => exact restoring c

theorem holds_of_optionArms {α : Type} {P : α → Prop} {x : α} {f : Nat → DCtx → α} (o : Option (Nat × DCtx)) (none : P x)
    (some : ∀ k c, P (f k c)) :
    P (match o with
      | .none => x
      | .some (k, c) => f k c) := by
  cases o with
  | none => exact none
  | some p => exact some p.1 p.2

/-- An operation on `s` that answers whether it could and the next state leaves the controls alone. -/
def State.KeepsControls (s : State) (r : Bool × State) : Prop := r.2.controls = s.controls

theorem State.ctxTo_keepsControls (k u : Nat) : s.KeepsControls (s.ctxTo k u) := by
  unfold State.ctxTo
  split
  · exact rfl
  · split
    · exact rfl
    · refine CtxPlace.holds_of_arms _ (fun _ => s.controls_putDctx _ _) (fun _ _ => s.controls_putDctx _ _)
        (fun ctr => ?spilled) (fun _ => rfl)
      extract_lets t
      split
      next ok v access =>
        have kept : v.controls = s.controls := (State.controls_of_fabRead access).trans (s.controls_putDctx _ _)
        show State.controls (if ok then v else v.restoreFails k u) = s.controls
        split
        · exact kept
        · exact (v.controls_restoreFails k u).trans kept

theorem State.spillOne_keepsControls (u running : Nat) : s.KeepsControls (s.spillOne u running) := by
  unfold State.spillOne
  split
  · exact rfl
  · extract_lets best ctr
    refine holds_of_optionArms (P := s.KeepsControls) best (x := (true, s)) rfl (fun k c => ?_)
    extract_lets t
    split
    next ok v access =>
      have kept : v.controls = s.controls := (State.controls_of_fabWrite access).trans (s.controls_modDg _)
      show State.controls (if ok then v else v.clearLane u) = s.controls
      split
      · exact kept
      · exact (v.controls_clearLane u).trans kept

@[simp] theorem State.controls_ctxTo (k u : Nat) : (s.ctxTo k u).2.controls = s.controls := s.ctxTo_keepsControls k u

@[simp] theorem State.controls_spillOne (u running : Nat) : (s.spillOne u running).2.controls = s.controls :=
  s.spillOne_keepsControls u running

@[simp] theorem State.controls_digestStart (t u : Nat) (e : TagEnt) : (s.digestStart t u e).2.controls = s.controls := by
  unfold State.digestStart
  dsimp only
  rw [State.controls_spillOne]
  split
  · split <;> simp
  · simp

@[simp] theorem State.controls_moveCtxs (u : Nat) (v : Option Nat) : (s.moveCtxs u v).controls = s.controls := by
  unfold State.moveCtxs
  split
  · rfl
  · split
    · refine State.controls_foldl (fun s p => ?_) _ _
      split
      · rfl
      · extract_lets ctr t
        split
        next ok v access =>
          have kept : v.controls = s.controls := (State.controls_of_fabWrite access).trans (s.controls_modDg _)
          split
          · exact kept
          · exact (v.controls_clearLane u).trans kept
    · exact s.controls_clearLane u

/-! Starting links, domains, the schedule -/

theorem controls_markReserve (l : List Nat) (r : Nat) (s : State) : (markReserve l r s).controls = s.controls := by
  induction l generalizing r s with
  | nil => rfl
  | cons u l ih =>
    unfold markReserve
    split <;> simp [ih]

@[simp] theorem State.controls_renewReserve : s.renewReserve.controls = s.controls := by
  unfold State.renewReserve
  simp only [controls_markReserve]

@[simp] theorem State.controls_holdImpression (k : Kind) (t : Nat) : (s.holdImpression k t).controls = s.controls := by
  unfold State.holdImpression
  split <;> rfl

@[simp] theorem State.controls_endLink (t : Nat) (st : Status) (n : Nat) (r : DWord) :
    (s.endLink t st n r).controls = s.controls := by
  unfold State.endLink
  split <;> rfl

/-- The contexts that come to a digest lane: a link of another kind needs none. -/
theorem State.contexts_keepControls (k : Kind) (t u : Nat) (e : TagEnt) :
    s.KeepsControls (if k = .digest then s.digestStart t u e else (true, s)) := by
  split
  · exact s.controls_digestStart t u e
  · exact rfl

@[simp] theorem State.controls_startLink (k : Kind) (t u : Nat) (e : TagEnt) :
    (s.startLink k t u e).controls = s.controls := by
  unfold State.startLink
  extract_lets level tagged
  have contexts := tagged.contexts_keepControls k t u e
  split
  next ok v come =>
    rw [come] at contexts
    have kept : v.controls = s.controls := contexts.trans (State.controls_holdImpression _ _ _)
    extract_lets placed announced
    have hp : placed.controls = v.controls := by
      unfold placed
      split <;> simp
    have ha : announced.controls = placed.controls := by
      unfold announced
      split <;> rfl
    clear_value level
    cases level with
    | none => exact ha.trans (hp.trans kept)
    | some n => exact ha.trans (hp.trans kept)

@[simp] theorem State.controls_serve (n : Nat) (k : Kind) : (State.serve n k s).controls = s.controls := by
  induction n generalizing s with
  | zero => rfl
  | succ n ih =>
    unfold State.serve
    split
    · rfl
    · split
      · rw [ih, State.controls_endLink]
      · split
        · split
          · rfl
          · rw [ih, State.controls_startLink]
        · rfl

@[simp] theorem State.controls_pumpDom (d : Nat) : (s.pumpDom d).controls = s.controls := by
  unfold State.pumpDom
  dsimp only
  split
  · rfl
  · split <;> rfl

@[simp] theorem State.controls_pump : s.pump.controls = s.controls :=
  State.controls_foldl (fun s d => s.controls_pumpDom d) _ _

@[simp] theorem State.controls_domWants (d : Nat) (w : DomWhy) : (s.domWants d w).controls = s.controls :=
  State.controls_pump _

@[simp] theorem State.controls_wakeLane (k : Kind) : (s.wakeLane k).controls = s.controls := by
  unfold State.wakeLane
  split
  · split
    · rfl
    · split
      · rfl
      · split <;> simp
  · rfl

@[simp] theorem State.controls_schedule : s.schedule.controls = s.controls := by
  unfold State.schedule
  split
  · rfl
  · dsimp only
    rw [State.controls_wakeLane, State.controls_wakeLane, State.controls_foldl (fun s k => s.controls_serve _ k)]
    split <;> simp

@[simp] theorem State.controls_requeue (t : Nat) (b : Bool) : (s.requeue t b).controls = s.controls := by
  unfold State.requeue
  split
  · rfl
  · split <;> simp

@[simp] theorem State.controls_standDown (u : Nat) : (s.standDown u).controls = s.controls := by
  unfold State.standDown
  extract_lets x taker queued off moved
  have hq : queued.controls = s.controls := by
    unfold queued
    split <;> simp
  have hm : moved.controls = off.controls := by
    unfold moved
    split <;> simp
  exact (State.controls_renewReserve _).trans (hm.trans hq)

@[simp] theorem State.controls_withdraw (u : Nat) : (s.withdraw u).controls = s.controls :=
  s.controls_standDown u

/-! A profile change (R109) -/

/-- A write of REQUEST while a change is under way is kept. -/
theorem State.profileAsk_pending {s : State} (h : s.pf.pending = true) (r : BitVec 2) :
    s.profileAsk r = s.modPf (fun p => { p with request := r, kept := some r }) := by
  rw [State.profileAsk, if_pos h]

/-- A write of REQUEST that differs from CURRENT starts a change. -/
theorem State.profileAsk_starts {s : State} (h : s.pf.pending = false) {r : BitVec 2} (hr : r ≠ s.pf.current) :
    s.profileAsk r = s.modPf (fun p => { p with request := r, target := r, pending := true }) := by
  rw [State.profileAsk, if_neg (by simp [h]), if_neg hr]

/-- The request that was kept meanwhile is asked for when no change is under way: it starts one where it differs from
CURRENT. -/
theorem State.profileAsk_settled {s : State} (h : s.pf.pending = false) (r : BitVec 2) :
    (s.profileAsk r).pf.current = s.pf.current ∧ (s.profileAsk r).pf.pending = decide (r ≠ s.pf.current) := by
  by_cases hr : r = s.pf.current
  · rw [State.profileAsk, if_neg (by simp [h]), if_pos hr]
    exact ⟨rfl, by simp [h, hr]⟩
  · rw [State.profileAsk_starts h hr]
    exact ⟨rfl, by simp [hr]⟩

/-- BULK comes into force: the spare lanes work. -/
def State.sparesJoin (s : State) : State :=
  (Kind.cipher.units ++ Kind.digest.units).foldl (fun s u =>
    if (s.unit u).role = .spare then s.modUnit u (fun x => { x with role := .working, gatedSpare := false }) else s) s

/-- BULK ends: its last two cipher lanes and its last digest lane are withdrawn. -/
def State.sparesLeave (s : State) : State :=
  (s.lastWorking Kind.cipher.units 2 ++ s.lastWorking Kind.digest.units 1).foldl (fun s u => s.withdraw u) s

/-- LEAN ends: a gated lane is woken. -/
def State.ungate (s : State) (u : Nat) : State :=
  if (s.unit u).role = .gated then
    match unitDomain u with
    | some d => s.domWants d .wake
    | none => s
  else s

/-- What a change from `old` to `new` does to the lanes, and its PROFILE record. -/
def State.repool (s : State) (old new : BitVec 2) : State :=
  let s := if new = 1 then s.sparesJoin else s
  let s := if old = 1 then s.sparesLeave else s
  let s := if old = 2 then (Kind.cipher.units ++ Kind.digest.units).foldl State.ungate s else s
  s.renewReserve.event 0 0x11 0 noRing [BitVec.ofNat 8 new.toNat]

/-- A change that completes: CURRENT, then the lanes, then the request that was kept, then the queues. -/
theorem State.profileDone_pending {s : State} (h : s.pf.pending = true) :
    s.profileDone =
      (s.pf.kept.elim id (fun r s => s.profileAsk r)
        ((s.modPf (fun p => { p with current := s.pf.target, pending := false, kept := none })).repool
          s.pf.current s.pf.target)).schedule := by
  rw [State.profileDone, if_neg (by simp [h])]
  cases s.pf.kept <;> rfl

theorem State.controls_sparesJoin : s.sparesJoin.controls = s.controls :=
  State.controls_foldl (fun s u => by split <;> rfl) _ _

theorem State.controls_sparesLeave : s.sparesLeave.controls = s.controls :=
  State.controls_foldl (fun s u => s.controls_withdraw u) _ _

theorem State.controls_ungate (u : Nat) : (s.ungate u).controls = s.controls := by
  unfold State.ungate
  split
  · split <;> simp
  · rfl

theorem State.controls_repool (old new : BitVec 2) : (s.repool old new).controls = s.controls := by
  unfold State.repool
  simp only [State.controls_event, State.controls_renewReserve, apply_ite State.controls, State.controls_sparesJoin,
    State.controls_sparesLeave, State.controls_foldl State.controls_ungate, ite_self]

/-- A change that completes makes its target CURRENT, and the next change is the one that was kept, where it differs. -/
theorem State.profileDone_pf {s : State} (h : s.pf.pending = true) :
    s.profileDone.pf.current = s.pf.target ∧
    s.profileDone.pf.pending = s.pf.kept.any (fun k => k ≠ s.pf.target) := by
  rw [State.profileDone_pending h, State.pf_of_controls (State.controls_schedule _)]
  have hpf := State.pf_of_controls (State.controls_repool
    (s.modPf (fun p => { p with current := s.pf.target, pending := false, kept := none })) s.pf.current s.pf.target)
  cases s.pf.kept with
  | none => simp [hpf]
  | some r =>
    have settled := State.profileAsk_settled (congrArg Profile.pending hpf) r
    simpa [hpf] using settled

/-! SC_SPILL (R96) -/

/-- A write of `x` to SC_SPILL that R96 ignores: a reservation is held, and the write would disable the area or move it. -/
def State.SpillFixed (s : State) (x : DWord) : Prop :=
  s.sq.tags.any (fun p => !p.2.spillUnits.isEmpty) = true ∧
    (bit x 0 = false ∨ fld x 8 8 ≠ s.sq.spillSize ∨ fld x 21 36 ≠ s.sq.spillAddr)

theorem State.scSpill_cases (x : DWord) :
    (s.SpillFixed x → s.scSpill x = s) ∧
    (¬s.SpillFixed x → bit x 0 = true → s.scSpill x = s.modSq (fun p => { p with spillEn := decide (p.spillSize ≠ 0) })) ∧
    (¬s.SpillFixed x → bit x 0 = false →
      s.scSpill x = s.modSq (fun p => { p with spillEn := false, spillSize := fld x 8 8, spillAddr := fld x 21 36 })) := by
  have ignored : (s.sq.tags.any (fun p => !p.2.spillUnits.isEmpty) &&
      (!bit x 0 || decide (fld x 8 8 ≠ s.sq.spillSize ∨ fld x 21 36 ≠ s.sq.spillAddr))) = true ↔ s.SpillFixed x := by
    simp only [State.SpillFixed, Bool.and_eq_true, Bool.or_eq_true, Bool.not_eq_true', decide_eq_true_eq]
  unfold State.scSpill
  refine ⟨fun h => if_pos (ignored.mpr h), fun h he => ?_, fun h he => ?_⟩
  · rw [if_neg (mt ignored.mp h), if_pos he]
  · rw [if_neg (mt ignored.mp h), if_neg (by simp [he])]

/-- The command of a write to SC_SPILL does what the page does. -/
theorem portDoes_scSpill {s u : State} {q : PortReq} (h : s.scSpill (s.wreq 0x40018 q).x = u)
    (up : u.po = s.po) : PortDoes s (.scSpillWrite q) 0x40018 q u :=
  .of_page rfl (by decide) (fun _ => h) (fun acc => (congrArg Ports.rpUp up).trans acc.up)

/-! The GC_ page's registers -/

/-- A write of the GC_ page does what `f` does with the written word, where that leaves the port up. -/
theorem PortDoes.of_gcPage {s u : State} {i : Instr} {off : Nat} {q : PortReq} {f : DWord → State}
    (hi : exec i s = .next (s.portWrite off q.lower)) (ho : off < 0x400000)
    (page : ∀ r : WReq, r.lo = true → regWrite s off r = f r.x)
    (does : LowWord s off q.lower → f (s.wreq off q.lower).x = u) (up : u.po.rpUp = s.po.rpUp) :
    PortDoes s i off q.lower u :=
  .of_page hi ho (fun acc => (page _ acc.lower.lo).trans (does acc.lower)) (fun acc => up.trans acc.up)

theorem regWrite_gcProfile (r : WReq) (h : r.lo = true) : regWrite s 0x10000 r = s.profileAsk (fld r.x 0 2) := by
  show (if !r.lo then s else s.profileAsk (fld r.x 0 2)) = _
  simp [h]

theorem regWrite_gcOverride (r : WReq) (h : r.lo = true) : regWrite s 0x10010 r = s.override r.x := by
  show (if !r.lo then s else s.override r.x) = _
  simp [h]

theorem regWrite_gcPowerCap (r : WReq) (h : r.lo = true) : regWrite s 0x10008 r = s.capWrite r.x := by
  show (if !r.lo then s else s.capWrite r.x) = _
  simp [h]

/-- A write of REQUEST to GC_PROFILE (R109). -/
theorem portDoes_profileRequest {s u : State} {q : PortReq} (h : s.profileAsk (fld q.wdata 0 2) = u)
    (up : u.po.rpUp = s.po.rpUp) : PortDoes s (.profileRequest q) 0x10000 q.lower u :=
  .of_gcPage (f := fun x => s.profileAsk (fld x 0 2)) rfl (by decide) (regWrite_gcProfile s)
    (fun low => by rw [low.fld 0 2 (by decide), PortReq.lower_wdata, h]) up

/-- A write to GC_OVERRIDE with every value in its range takes effect in full (R110). -/
theorem portDoes_override {s : State} {q : PortReq} (hc : (fld q.wdata 0 4).toNat ≤ 8) (hd : (fld q.wdata 4 3).toNat ≤ 4)
    (hb : (fld q.wdata 8 4).toNat ≤ 10) :
    PortDoes s (.overrideWrite q) 0x10010 q.lower
      ((s.modPf (fun p => { p with
        dCipher := fld q.wdata 0 4, dDigest := fld q.wdata 4 3, dEn := bit q.wdata 7, bShare := fld q.wdata 8 4,
        auditClasses := fld q.wdata 12 3, dDemote := bit q.wdata 15 })).renewReserve.schedule) := by
  refine .of_gcPage rfl (by decide) (regWrite_gcOverride s) (fun low => ?_) ?_
  · rw [State.override, low.fld 0 4 (by decide), low.fld 4 3 (by decide), low.fld 8 4 (by decide), low.fld 12 3 (by decide),
      low.bit 7 (by decide), low.bit 15 (by decide), PortReq.lower_wdata, if_neg (by omega)]
  · rw [State.rpUp_of_controls (State.controls_schedule _), State.rpUp_of_controls (State.controls_renewReserve _),
      State.modPf_po]

/-- A write to GC_POWER_CAP takes effect in its range, and only there (R108). -/
theorem portDoes_powerCap (s : State) (q : PortReq) :
    (4 ≤ (fld q.wdata 0 5).toNat ∧ (fld q.wdata 0 5).toNat ≤ 16 →
      PortDoes s (.powerCapWrite q) 0x10008 q.lower (s.modPf (fun p => { p with cap := fld q.wdata 0 5 })).schedule) ∧
    (¬(4 ≤ (fld q.wdata 0 5).toNat ∧ (fld q.wdata 0 5).toNat ≤ 16) → PortDoes s (.powerCapWrite q) 0x10008 q.lower s) := by
  have writes : LowWord s 0x10008 q.lower → s.capWrite (s.wreq 0x10008 q.lower).x =
      if 4 ≤ (fld q.wdata 0 5).toNat ∧ (fld q.wdata 0 5).toNat ≤ 16 then
        (s.modPf (fun p => { p with cap := fld q.wdata 0 5 })).schedule else s := fun low => by
    rw [State.capWrite, low.fld 0 5 (by decide), PortReq.lower_wdata]
  refine ⟨fun h => ?_, fun h => ?_⟩
  · exact .of_gcPage rfl (by decide) (regWrite_gcPowerCap s) (fun low => (writes low).trans (if_pos h))
      (by rw [State.rpUp_of_controls (State.controls_schedule _), State.modPf_po])
  · exact .of_gcPage rfl (by decide) (regWrite_gcPowerCap s) (fun low => (writes low).trans (if_neg h)) rfl

/-! SC_ADMIT (R407) -/

/-- A read of all of SC_ADMIT answers both counts and clears them. -/
theorem portReads_admit {s : State} {q : PortReq} (h : q.be = 0xFF) :
    PortReads s (.admitRead q) 0x40010 q (halves s.sq.admitted s.sq.refused)
      (s.modSq (fun p => { p with admitted := 0, refused := 0 })) := by
  have lo : beLo q.be = true := by rw [h]; decide
  have hi : beHi q.be = true := by rw [h]; decide
  have window : s.windowRead 0x40010 true true =
      (halves s.sq.admitted s.sq.refused, s.modSq (fun p => { p with admitted := 0, refused := 0 })) := rfl
  intro acc
  have answer := State.portRead_accepted acc
  rw [lo, hi, window] at answer
  rw [lo, hi, ← answer]
  rfl

end Sys2Proof.Machine

namespace Sys2Proof

open Machine

/-- Settles O29: SC_SPILL by the three cases of a write, SC_ADMIT by the read's side effect, the GC_ registers by their
page, where scheduling leaves the port up, and a completed change by what its steps leave of the global control. -/
theorem sequencerRegisters : Obligations.SequencerRegisters := by
  unfold Obligations.SequencerRegisters
  intro s q
  obtain ⟨fixed, enable, disable⟩ := s.scSpill_cases (s.wreq 0x40018 q).x
  refine ⟨⟨fun h => portDoes_scSpill (fixed h) rfl, fun h he => portDoes_scSpill (enable h he) rfl,
      fun h he => portDoes_scSpill (disable h he) rfl⟩, portReads_admit, fun hp hr => ?_, fun hp => ⟨?_, ?_⟩,
    portDoes_override, fun h4 h16 => (portDoes_powerCap s q).1 ⟨h4, h16⟩, fun h => (portDoes_powerCap s q).2 (by omega)⟩
  · exact portDoes_profileRequest (State.profileAsk_starts hp hr) rfl
  · exact portDoes_profileRequest (State.profileAsk_pending hp _) rfl
  · exact ⟨s.profileDone, rfl, State.profileDone_pf hp⟩

end Sys2Proof
end

section
/-! SUPPORT. Digest contexts (07_digest.md R181–R184): what the answers to spill traffic do and what a write to DL_SPILL does,
and the statement about them. -/

namespace Sys2Proof.Machine

/-! The answers to spill traffic -/

/-- The command of a spill's write response, in a block that runs (R182). -/
theorem exec_spillWriteDone {s : State} (h : s.fc.halted = false) (ref : CtxRef) :
    exec (.spillWriteDone ref) s = .next ((s.answered (fun w => decide (w = ctxWho (ctxKey ref)))).spillDone (ctxKey ref)) :=
  congrArg Host.Outcome.next (if_neg (by simp [h]))

/-- The command of a spilled context's return, in a block that runs (R183). -/
theorem exec_contextRestore {s : State} (h : s.fc.halted = false) (ref : CtxRef) (data : List Byte) :
    exec (.contextRestore ref data) s = .next (s.contextRestored (ctxKey ref) data) :=
  congrArg Host.Outcome.next (if_neg (by simp [h]))

/-- The write response frees the entry that is being spilled and counts the spill; the directory keeps the counter. -/
theorem State.spillDone_spilling {s : State} {k : Nat} {c : DCtx} {a ctr : Nat} (hc : s.dctx k = some c)
    (place : c.place = .spilling a ctr) :
    s.spillDone k = s.modDg (fun d => { d with
      spills := satAdd d.spills 1,
      ctxs := d.ctxs.map (fun p => if p.1 = k then (k, { c with hash := {}, outer := none, place := .spilled ctr }) else p) }) := by
  unfold State.spillDone
  simp only [hc, place]

/-- The link that waits for context `k` on a unit, with its entry. -/
def State.ctxUser (s : State) (k : Nat) : Option (Nat × TagEnt) :=
  s.sq.tags.find? (fun p => decide (p.1 = k ∨ sessionOf p.2 = some k) && p.2.phase.unit?.isSome)

/-- A record that comes back for the link `t` on unit `n` is checked there; only a link's own context ends the link when it is
lost. -/
theorem State.contextRestored_user {s r : State} {k t n : Nat} {e : TagEnt} {ok : Bool} {data : List Byte}
    (user : s.ctxUser k = some (t, e)) (unit : e.phase.unit? = some n)
    (restored : (s.answered (fun w => decide (w = ctxWho k))).restoreCtx k n (fit 512 data) = (ok, r)) :
    s.contextRestored k data =
      if ok = true ∨ 16384 ≤ k then r else ((r.freeOf n).endLink t .contextLost 0 0).schedule := by
  unfold State.ctxUser at user
  unfold State.contextRestored
  simp only [user, unit, restored, Bool.or_eq_true, decide_eq_true_eq, ge_iff_le]

/-! DL_SPILL (R184) -/

/-- A write of `x` to DL_SPILL that R184 ignores: a session is open or a context is in the spill area, and the write would
disable the area or move it. -/
def State.CtxSpillFixed (s : State) (x : DWord) : Prop :=
  s.dg.ctxs.any (fun p => decide (16384 ≤ p.1) || p.2.place.isSpilled) = true ∧
    (bit x 0 = false ∨ fld x 21 36 ≠ s.dg.spillAddr)

theorem State.dlSpill_cases (s : State) (x : DWord) :
    (s.CtxSpillFixed x → s.dlSpill x = s) ∧
    (¬s.CtxSpillFixed x → bit x 0 = true → s.dlSpill x = s.modDg (fun d => { d with spillEn := true })) ∧
    (¬s.CtxSpillFixed x → bit x 0 = false →
      s.dlSpill x = s.modDg (fun d => { d with spillEn := false, spillAddr := fld x 21 36 })) := by
  have ignored : (s.dg.ctxs.any (fun p => decide (16384 ≤ p.1) || p.2.place.isSpilled) &&
      (!bit x 0 || decide (fld x 21 36 ≠ s.dg.spillAddr))) = true ↔ s.CtxSpillFixed x := by
    simp only [State.CtxSpillFixed, Bool.and_eq_true, Bool.or_eq_true, Bool.not_eq_true', decide_eq_true_eq]
  unfold State.dlSpill
  refine ⟨fun h => if_pos (ignored.mpr h), fun h he => ?enables, fun h he => ?disables⟩
  case enables => rw [if_neg (mt ignored.mp h), if_pos he]
  case disables => rw [if_neg (mt ignored.mp h), if_neg (by simp [he])]

/-- The command of a write to DL_SPILL does what the page does. -/
theorem portDoes_dlSpill {s u : State} {q : PortReq} (h : s.dlSpill (s.wreq 0x70018 q).x = u) (up : u.po = s.po) :
    PortDoes s (.dlSpillWrite q) 0x70018 q u :=
  .of_page rfl (by decide) (fun _ => h) (fun acc => (congrArg Ports.rpUp up).trans acc.up)

end Sys2Proof.Machine

namespace Sys2Proof

open Machine

/-- Settles O35: the write response by the place of the context that it is for, the return by what the check of the record
answers, and DL_SPILL by the three cases of a write. -/
theorem digestContexts : Obligations.DigestContexts := by
  unfold Obligations.DigestContexts
  intro s ref data q
  obtain ⟨fixed, enable, disable⟩ := s.dlSpill_cases (s.wreq 0x70018 q).x
  refine ⟨fun c a ctr runs hc place => ?spilled, fun t e n r runs user unit => ⟨fun good => ?goesOn, fun link lost => ?ends⟩,
    fun h => portDoes_dlSpill (fixed h) rfl, fun h he => portDoes_dlSpill (enable h he) rfl,
    fun h he => portDoes_dlSpill (disable h he) rfl⟩
  case spilled => exact exec_next (exec_spillWriteDone runs ref) (State.spillDone_spilling hc place)
  case goesOn =>
    exact exec_next (exec_contextRestore runs ref data) ((State.contextRestored_user user unit good).trans (if_pos (.inl rfl)))
  case ends =>
    exact exec_next (exec_contextRestore runs ref data)
      ((State.contextRestored_user user unit lost).trans (if_neg (by simp [link])))

end Sys2Proof
end

section
/-! SUPPORT. The region table and the page owners (14_protection.md R349–R353): what AR_CMD does by its OP and by the lock of
the selected entry, what a page owner reads after one is replaced, and the statement about them. -/

namespace Sys2Proof

/-- A table's first entry of number `k` is the one that it reads there. -/
theorem Tab.find?_getD {α : Type} (t : Tab α) (d : α) (k : Nat) :
    ((t.find? (fun p => p.1 == k)).map (·.2)).getD d = t.get d k := by
  induction t with
  | nil => rfl
  | cons p r ih =>
    obtain ⟨i, v⟩ := p
    by_cases hi : i = k
    · simp [Tab.get, hi]
    · simpa [Tab.get, hi] using ih

end Sys2Proof

namespace Sys2Proof.Machine

/-! The region table -/

/-- COMMIT by the lock of the selected entry and the order of the staged bounds (R349, R351). -/
theorem State.arCommit_cases (s : State) (r : WReq) :
    ((s.pr.regions.get {} s.pr.sel.toNat).lock = true →
      s.arCommit r = (s.modPr (fun p => { p with err := 1 })).lockViolation r) ∧
    ((s.pr.regions.get {} s.pr.sel.toNat).lock = false →
      (s.pr.stage.last.toNat < s.pr.stage.start.toNat → s.arCommit r = s.modPr (fun p => { p with err := 2 })) ∧
      (s.pr.stage.start.toNat ≤ s.pr.stage.last.toNat → s.arCommit r = s.newEpoch { s.pr.stage with valid := true })) := by
  unfold State.arCommit
  refine ⟨fun locked => if_pos locked, fun unlocked => ⟨fun reversed => ?_, fun ordered => ?_⟩⟩
  · rw [if_neg (ne_true_of_eq_false unlocked), if_pos reversed]
  · rw [if_neg (ne_true_of_eq_false unlocked), if_neg (by omega)]

/-- INVALIDATE by the lock of the selected entry (R349, R351). -/
theorem State.arInvalidate_cases (s : State) (r : WReq) :
    ((s.pr.regions.get {} s.pr.sel.toNat).lock = true →
      s.arInvalidate r = (s.modPr (fun p => { p with err := 1 })).lockViolation r) ∧
    ((s.pr.regions.get {} s.pr.sel.toNat).lock = false → s.arInvalidate r = s.newEpoch {}) := by
  unfold State.arInvalidate
  exact ⟨fun locked => if_pos locked, fun unlocked => if_neg (ne_true_of_eq_false unlocked)⟩

theorem State.arCmd_load {s : State} {r : WReq} (op : (fld r.x 0 2).toNat = 1) : s.arCmd r = s.arLoad := by
  simp only [State.arCmd, op]

theorem State.arCmd_commit {s : State} {r : WReq} (op : (fld r.x 0 2).toNat = 2) : s.arCmd r = s.arCommit r := by
  simp only [State.arCmd, op]

theorem State.arCmd_invalidate {s : State} {r : WReq} (op : (fld r.x 0 2).toNat = 3) : s.arCmd r = s.arInvalidate r := by
  simp only [State.arCmd, op]

theorem State.arCmd_undefined {s : State} {r : WReq} (op : (fld r.x 0 2).toNat = 0) :
    s.arCmd r = s.modPr (fun p => { p with err := 3 }) := by
  simp only [State.arCmd, op]

theorem regWrite_arCmd (s : State) (r : WReq) (h : r.lo = true) : regWrite s 0xF0008 r = s.arCmd r := by
  show (if r.lo then s.arCmd r else s) = _
  rw [if_pos h]

/-- The command of a write of `op` to AR_CMD does what that OP does, where that leaves the ports alone. -/
theorem PortDoes.of_arCmd {s u : State} {i : Instr} {op : Nat} {q : PortReq}
    (hi : exec i s = .next (s.command 0xF0008 0 2 op q)) (hop : op < 4)
    (does : (fld (s.wreq 0xF0008 (q.lower.force 0 2 op)).x 0 2).toNat = op →
      s.arCmd (s.wreq 0xF0008 (q.lower.force 0 2 op)) = u) (up : u.po = s.po) :
    PortDoes s i 0xF0008 (q.lower.force 0 2 op) u := by
  refine .of_page hi (by decide) (fun acc => ?_) (fun acc => (congrArg Ports.rpUp up).trans acc.up)
  have low : LowWord s 0xF0008 (q.lower.force 0 2 op) := acc.forced
  rw [regWrite_arCmd s _ low.lo]
  refine does ?_
  rw [low.fld 0 2 (by decide), fld_force _ (by decide), BitVec.toNat_ofNat, Nat.mod_eq_of_lt hop]

/-- The check of older accesses raises DONE when none waits (R350). -/
theorem State.syncCheck_done {s : State} (h : s.oldAccesses = false) : s.syncCheck = s.syncDone :=
  if_neg (by simp [h])

/-! Page owners -/

theorem State.owner_eq_get (s : State) (i : Nat) : s.owner i = s.pr.owners.get (PageOwner.reset i) i :=
  Tab.find?_getD _ _ _

/-- Page-owner entry `i` becomes `o`; an entry as after block reset is not listed. -/
def State.setOwner (s : State) (i : Nat) (o : PageOwner) : State :=
  s.modPr (fun p => { p with owners := if o = PageOwner.reset i then p.owners.erase i else p.owners.insert i o })

@[simp] theorem State.setOwner_regions (s : State) (i : Nat) (o : PageOwner) : (s.setOwner i o).pr.regions = s.pr.regions := rfl

@[simp] theorem State.setOwner_po (s : State) (i : Nat) (o : PageOwner) : (s.setOwner i o).po = s.po := rfl

theorem State.owner_setOwner (s : State) (i j : Nat) (o : PageOwner) :
    (s.setOwner i o).owner j = if j = i then o else s.owner j := by
  have owners : (s.setOwner i o).pr.owners =
      if o = PageOwner.reset i then s.pr.owners.erase i else s.pr.owners.insert i o := rfl
  simp only [State.owner_eq_get, owners]
  by_cases ho : o = PageOwner.reset i
  · rw [if_pos ho, Tab.get_erase]
    by_cases hj : j = i
    · rw [if_pos hj, if_pos hj, ho, hj]
    · rw [if_neg hj, if_neg hj]
  · rw [if_neg ho, Tab.get_insert]

/-- The page owner that a write of `x` to AR_PO_ENTRY names, `lock` being its lock bit (R353). -/
def PageOwner.ofWord (x : DWord) (lock : Bool) : PageOwner :=
  { initiator := fld x 0 16, mask := fld x 16 16, world := fld x 32 2, en := bit x 34, lock := lock }

/-- A write to AR_PO_ENTRY replaces the selected owner, which is not locked (R353). -/
theorem State.poWrite_unlocked {s : State} {r : WReq} (hsel : s.pr.poSel.toNat < 1044) (hworld : fld r.x 32 2 ≠ 3)
    (hlock : (s.owner s.pr.poSel.toNat).lock = false) :
    s.poWrite r = s.setOwner s.pr.poSel.toNat (.ofWord r.x (r.lockHi 63)) := by
  unfold State.poWrite
  rw [if_neg (not_or.mpr ⟨by omega, hworld⟩), if_neg (by simp [hlock])]
  rfl

theorem WReq.lockHi_of_not_debug {r : WReq} (hi : r.hi = true) (init : r.init ≠ debugId) (i : Nat) :
    r.lockHi i = bit r.x i := by
  simp [WReq.lockHi, hi, init]

/-- The command of a write of all of AR_PO_ENTRY replaces the selected owner, which is not locked. -/
theorem portDoes_poEntry {s : State} {q : PortReq} (hbe : q.be = 0xFF) (hsel : s.pr.poSel.toNat < 1044)
    (hworld : fld q.wdata 32 2 ≠ 3) (hlock : (s.owner s.pr.poSel.toNat).lock = false) :
    PortDoes s (.poEntryWrite q) 0xF0108 q (s.setOwner s.pr.poSel.toNat (.ofWord q.wdata (bit q.wdata 63))) := by
  refine .of_page rfl (by decide) (fun acc => ?_) (fun acc => (congrArg Ports.rpUp (s.setOwner_po _ _)).trans acc.up)
  have page (r : WReq) : regWrite s 0xF0108 r = s.poWrite r := rfl
  have whole := State.wreq_whole (s := s) (off := 0xF0108) hbe
  have world : fld (s.wreq 0xF0108 q).x 32 2 ≠ 3 := by rwa [whole]
  rw [page, State.poWrite_unlocked hsel world hlock, whole, WReq.lockHi_of_not_debug rfl acc.notDebug]

end Sys2Proof.Machine

namespace Sys2Proof

open Machine

/-- Settles O49: AR_CMD by its OP, COMMIT and INVALIDATE by the lock of the selected entry, and AR_PO_ENTRY by the owners that
are read after one is replaced. -/
theorem regionTable : Obligations.RegionTable := by
  unfold Obligations.RegionTable
  intro s q
  obtain ⟨commitLocked, commitUnlocked⟩ := s.arCommit_cases (s.wreq 0xF0008 (q.lower.force 0 2 2))
  obtain ⟨invalidateLocked, invalidateUnlocked⟩ := s.arInvalidate_cases (s.wreq 0xF0008 (q.lower.force 0 2 3))
  refine ⟨.of_arCmd rfl (by decide) State.arCmd_load rfl, fun locked => ⟨?commitLocked, ?invalidateLocked⟩,
    fun unlocked => ⟨fun reversed => ?commitReversed, fun ordered => ?commitOrdered, ?invalidateUnlocked⟩,
    .of_arCmd rfl (by decide) State.arCmd_undefined rfl, fun clear => exec_next rfl (State.syncCheck_done clear),
    fun hbe hsel hworld hlock acc => ?owner⟩
  case commitLocked =>
    exact .of_arCmd rfl (by decide) (fun op => (State.arCmd_commit op).trans (commitLocked locked)) rfl
  case invalidateLocked =>
    exact .of_arCmd rfl (by decide) (fun op => (State.arCmd_invalidate op).trans (invalidateLocked locked)) rfl
  case commitReversed =>
    exact .of_arCmd rfl (by decide) (fun op => (State.arCmd_commit op).trans ((commitUnlocked unlocked).1 reversed)) rfl
  case commitOrdered =>
    exact .of_arCmd rfl (by decide) (fun op => (State.arCmd_commit op).trans ((commitUnlocked unlocked).2 ordered)) rfl
  case invalidateUnlocked =>
    exact .of_arCmd rfl (by decide) (fun op => (State.arCmd_invalidate op).trans (invalidateUnlocked unlocked)) rfl
  case owner =>
    exact ⟨_, portDoes_poEntry hbe hsel hworld hlock acc, s.setOwner_regions _ _, fun i => s.owner_setOwner _ i _⟩

end Sys2Proof
end

section
/-! SUPPORT. The block as a whole: the step, the registers after reset, the accesses that the register port refuses and those
to plain registers (R8–R10, R352, R407–R409), the region table's check (R347, R348), event records (R49–R52), freshness
(R135, R136), and the statements about them. -/

namespace Sys2Proof.Machine

/-- `t` has the functions, with their event queues, and the vectors of `s`. -/
structure State.KeepsQueues (s t : State) : Prop where
  fx : t.fx = s.fx
  vecs : t.vecs = s.vecs

/-! The register port -/

/-- A write that the port does not carry out is journalled as ignored and answered with ERROR (R358, R408). -/
def State.refuses (s u : State) (off : Nat) (q : PortReq) (denied : Bool) : State :=
  (u.journalWrite (wlog off q) (regRead s off) true denied).rpAnswer 0 q.tag true

/-- What a write is turned away for, in the order of R408. -/
theorem State.portWrite_refused {s : State} {off : Nat} {q : PortReq} (up : s.po.rpUp = true) :
    (q.parityOk = false → s.portWrite off q = s.rpAnswer 0 q.tag true) ∧
    (q.parityOk = true → s.ownerPasses off q.initiator q.world true = false →
      s.portWrite off q = s.refuses (s.pageDenied off q true) off q true) ∧
    (q.parityOk = true → s.ownerPasses off q.initiator q.world true = true →
      (beLo q.be || beHi q.be) = false ∨ s.fc.lockdown = true ∨ s.fc.halted = true ∧ off / 0x10000 ≠ 0x0E →
      s.portWrite off q = s.refuses s off q false) := by
  unfold State.portWrite State.refuses wlog
  refine ⟨fun hp => ?_, fun hp ho => ?_, fun hp ho h => ?_⟩
  · simp [up, hp]
  · simp [up, hp, ho]
  · simp only [up, hp, ho, Bool.not_true, Bool.false_eq_true, if_false]
    rcases h with h | h | ⟨h, hpage⟩
    · rw [if_pos (by simpa using h)]
    · split
      · rfl
      · rw [if_pos (by simp [h])]
    · split
      · rfl
      · rw [if_pos (by simp [h, hpage])]

/-- What a read is turned away for, in the order of R408. -/
theorem State.portRead_refused {s : State} {off : Nat} {q : PortReq} (up : s.po.rpUp = true) :
    (q.parityOk = false → s.portRead off q = s.rpAnswer 0 q.tag true) ∧
    (q.parityOk = true → s.ownerPasses off q.initiator q.world true = false →
      s.portRead off q = (s.pageDenied off q false).rpAnswer 0 q.tag true) ∧
    (q.parityOk = true → s.ownerPasses off q.initiator q.world true = true →
      (beLo q.be || beHi q.be) = false ∨ s.fc.lockdown = true ∧ off / 0x10000 ≠ 0 ∧ off / 0x10000 ≠ 0x0E →
      s.portRead off q = s.rpAnswer 0 q.tag true) := by
  unfold State.portRead
  refine ⟨fun hp => ?_, fun hp ho => ?_, fun hp ho h => ?_⟩
  · simp [up, hp]
  · simp [up, hp, ho]
  · simp only [up, hp, ho, Bool.not_true, Bool.false_eq_true, if_false]
    rcases h with h | ⟨h, hpage⟩
    · rw [if_pos (by simpa using h)]
    · split
      · rfl
      · rw [if_pos (by simp [h, hpage])]

/-- A plain write does what its page does with the whole word. -/
theorem PortDoes.of_plain {s u : State} {a : BitVec 22} {q : PortReq} {off : Nat} (ha : a.toNat * 8 = off)
    (ho : off < 0x400000) (hbe : q.be = 0xFF)
    (hw : regWrite s off { x := q.wdata, lo := true, hi := true, init := q.initiator, world := q.world, off := off } = u)
    (up : u.po = s.po) : PortDoes s (.registerWrite a q) off q u := by
  subst ha
  exact .of_page rfl ho (fun _ => by rw [State.wreq_whole hbe, hw]) (fun acc => (congrArg Ports.rpUp up).trans acc.up)

/-- The pages that hold no register that can be written: the identity page, the cipher lanes' and Stipple's counters, and
what no page is assigned to (R9, R10). -/
theorem regWrite_readOnly (s : State) {off : Nat} (q : WReq)
    (h : off / 0x10000 = 0 ∨ off / 0x10000 = 0x06 ∨ off / 0x10000 = 0x09 ∨ 0x130000 ≤ off ∧ off < 0x400000 ∨ 0x1400000 ≤ off) :
    regWrite s off q = s := by
  unfold regWrite
  rw [if_neg (by omega)]
  split
  all_goals first | rfl | omega

/-- Such offsets hold no GO (R303). -/
theorem goOf_readOnly {off : Nat} (hi : Bool) (x : DWord)
    (h : off / 0x10000 = 0 ∨ off / 0x10000 = 0x06 ∨ off / 0x10000 = 0x09 ∨ 0x130000 ≤ off ∧ off < 0x400000 ∨ 0x1400000 ≤ off) :
    goOf off hi x = none := by
  unfold goOf
  rw [if_neg (by omega)]

/-- Reading a word that nothing measures first gives it as it stands. -/
theorem State.windowRead_plain {s : State} {off : Nat} {lo hi : Bool} (hp : off ≠ powerOff) (ht : regTake s off lo hi = s) :
    s.windowRead off lo hi = (regRead s off, s) := by
  have measured : s.measured off = s := if_neg hp
  unfold State.windowRead
  rw [measured]
  exact Prod.ext rfl ht

/-! The region table's check -/

theorem firstFree_unused {used : List (BitVec 10)} {n k : Nat} {t : BitVec 10} (h : firstFree used n k = some t) : t ∉ used := by
  induction n generalizing k with
  | zero => simp [firstFree] at h
  | succ n ih =>
    unfold firstFree at h
    split at h
    · exact ih h
    · next hc =>
      obtain rfl := Option.some.inj h
      simpa using hc

/-- A TID that is given out is no outstanding transaction's (R400). -/
theorem Ports.freeTid_unused {p : Ports} {r : FabReq} (h : p.freeTid.isSome = true) (hr : r ∈ p.txns) : r.tid ≠ p.freeTid := by
  obtain ⟨t, ht⟩ := Option.isSome_iff_exists.mp h
  intro e
  refine firstFree_unused ht (List.mem_append_left _ ?_)
  exact List.mem_filterMap.mpr ⟨r, hr, e.trans ht⟩

/-- The request that an access of `s` at `addr` sends. -/
def State.reqOf (s : State) (a : Access) (addr len : Nat) (data : List Byte) : FabReq :=
  { id := s.po.nextId, who := a.who, fn := a.fn, world := decide ((s.fn a.fn).entry.world = 1), addr := addr, len := len,
    write := a.write, data := data, durable := a.durable, ctrl := a.ctrl, portB := s.po.portB addr, maxRetries := s.po.retry,
    tid := s.po.freeTid }

/-- The state after that request is sent. -/
def State.sends (s : State) (a : Access) (addr len : Nat) (data : List Byte) : State :=
  ({ s with po := { s.po with nextId := s.po.nextId + 1 } } : State).send (s.reqOf a addr len data)

theorem State.issue1_denied {s : State} {a : Access} {addr len : Nat} {data : List Byte}
    (h : s.allowed a.fn addr len a.write = false) :
    s.issue1 a addr len data = (false, s.raiseFabric (secSource (s.po.portB addr)) 0x12 a.fn addr a.write) := by
  simp [State.issue1, h]

theorem State.issue1_halted {s : State} {a : Access} {addr len : Nat} {data : List Byte}
    (h : s.allowed a.fn addr len a.write = true) (halted : s.fc.halted = true) (write : a.write = true) :
    s.issue1 a addr len data = (true, s) := by
  rw [State.issue1, if_pos h, if_pos (by rw [halted, write]; rfl)]

theorem State.issue1_sent {s : State} {a : Access} {addr len : Nat} {data : List Byte}
    (h : s.allowed a.fn addr len a.write = true) (runs : s.fc.halted = false ∨ a.write = false) :
    s.issue1 a addr len data = (true, s.sends a addr len data) := by
  have go : (s.fc.halted && a.write) = false := by rcases runs with h | h <;> simp [h]
  rw [State.issue1, if_pos h, if_neg (by simp [go])]
  rfl

/-- What a request that is sent changes: it is outstanding, on its port, and takes credits there. -/
theorem State.sends_keeps (s : State) (a : Access) (addr len : Nat) (data : List Byte) :
    (s.sends a addr len data).po.txns = s.po.txns ++ [s.reqOf a addr len data] ∧
    (s.sends a addr len data).po.fabOut = s.reqOf a addr len data :: s.po.fabOut ∧
    (s.sends a addr len data).fx = s.fx ∧ (s.sends a addr len data).fc = s.fc ∧ (s.sends a addr len data).vecs = s.vecs := by
  unfold State.sends State.send State.transmit
  dsimp only
  split <;> exact ⟨rfl, rfl, rfl, rfl, rfl⟩

/-! Event records -/

/-- A write that stays within 4 KiB is one request (R399). -/
theorem splitAccess_one {n addr len : Nat} (h0 : 0 < len) (h : addr % 4096 + len ≤ 4096) :
    splitAccess (n + 2) addr len = [(addr, len)] := by
  have hmin : min len (4096 - addr % 4096) = len := by omega
  simp [splitAccess, hmin, Nat.ne_of_gt h0]

theorem State.fabWrite_one {s : State} {w : Who} {fn addr : Nat} {d : List Byte} {c du : Bool} (h0 : 0 < d.length)
    (h : addr % 4096 + d.length ≤ 4096) :
    (s.fabWrite w fn addr d c du).2 =
      (s.issue1 { who := w, fn := fn, write := true, ctrl := c, durable := du } addr d.length d).2 := by
  unfold State.fabWrite
  rw [splitAccess_one h0 h]
  simp [State.issueAll]

@[simp] theorem length_leBytes (n x : Nat) : (leBytes n x).length = n := by
  induction n generalizing x with
  | zero => rfl
  | succ n ih => simp [leBytes, ih]

@[simp] theorem length_fit (n : Nat) (l : List Byte) : (fit n l).length = n := by
  simp [fit, slice, zeros]

theorem length_eventBytes (type : Nat) (phase : Bool) (pos : Word) (fn ring : Nat) (time : DWord) (detail : List Byte) :
    (eventBytes type phase pos fn ring time detail).length = 32 := by
  simp [eventBytes]

/-- Issuing a request touches neither functions nor vectors. -/
theorem State.issue1_keeps (s : State) (a : Access) (addr len : Nat) (d : List Byte) :
    s.KeepsQueues (s.issue1 a addr len d).2 := by
  by_cases allowed : s.allowed a.fn addr len a.write = true
  · by_cases halt : s.fc.halted = true ∧ a.write = true
    · rw [State.issue1_halted allowed halt.1 halt.2]
      exact ⟨rfl, rfl⟩
    · rw [State.issue1_sent allowed (by simpa [← Bool.not_eq_true, imp_iff_not_or] using halt)]
      obtain ⟨-, -, hfx, -, hvecs⟩ := s.sends_keeps a addr len d
      exact ⟨hfx, hvecs⟩
  · rw [State.issue1_denied (by simpa using allowed)]
    exact ⟨rfl, rfl⟩

/-- The address of the record at PROD (R49, R50). -/
def EvQueue.place (e : EvQueue) : Nat := e.base.toNat * 4096 + e.prod.toNat % queueSize e.size * 32

theorem EvQueue.place_fits (e : EvQueue) : e.place % 4096 + 32 ≤ 4096 := by
  unfold EvQueue.place
  omega

/-- The bytes of a record at PROD (Table 2.7). -/
def State.recordBytes (s : State) (f type about ring : Nat) (detail : List Byte) : List Byte :=
  eventBytes type (phaseOf (s.fn f).eq.prod (queueSize (s.fn f).eq.size)) (s.fn f).eq.prod about ring s.po.tm detail

/-- The access that writes an event record. -/
def eventAccess (f : Nat) : Access := { who := .event f, fn := f, write := true, ctrl := true }

/-- `s` once the record at PROD is on its way. -/
def State.recordSent (s : State) (f type about ring : Nat) (detail : List Byte) : State :=
  (s.issue1 (eventAccess f) (s.fn f).eq.place 32 (s.recordBytes f type about ring detail)).2

theorem State.recordSent_keeps (s : State) (f type about ring : Nat) (detail : List Byte) :
    s.KeepsQueues (s.recordSent f type about ring detail) :=
  s.issue1_keeps _ _ _ _

/-- `s` once PROD has moved on by one. -/
def State.recordTaken (s : State) (f : Nat) : State :=
  s.modFn f (fun v => { v with eq := { v.eq with prod := v.eq.prod + 1 } })

/-- A record that the queue takes is one request at PROD; PROD moves on, and the queue's vector is signalled. -/
theorem State.putEvent_eq (s : State) (f type about ring : Nat) (detail : List Byte) :
    s.putEvent f type about ring s.po.tm detail =
      (let t := (s.recordSent f type about ring detail).recordTaken f
       if (s.fn f).eq.vecEn then t.signal f ((t.fn f).entry.vecBase.toNat + (s.fn f).eq.vector.toNat) else t) := by
  have length : (s.recordBytes f type about ring detail).length = 32 := length_eventBytes _ _ _ _ _ _ _
  have sent : (s.fabWrite (.event f) f (s.fn f).eq.place (s.recordBytes f type about ring detail) true).2 =
      s.recordSent f type about ring detail := by
    rw [State.fabWrite_one (by omega) (by rw [length]; exact (s.fn f).eq.place_fits), length]
    rfl
  unfold State.putEvent
  extract_lets e size addr
  split
  next ok u write =>
    obtain rfl : u = s.recordSent f type about ring detail := (congrArg Prod.snd write).symm.trans sent
    rfl

theorem State.fn_recordTaken (s : State) (f g : Nat) :
    (s.recordTaken f).fn g =
      if g = f then { s.fn f with eq := { (s.fn f).eq with prod := (s.fn f).eq.prod + 1 } } else s.fn g :=
  s.fn_setFn f g _

theorem State.fn_of_fx {s t : State} (h : t.fx = s.fx) (f : Nat) : t.fn f = s.fn f := by
  unfold State.fn
  rw [h]

theorem State.vec_of_vecs {s t : State} (h : t.vecs = s.vecs) (v : Nat) : t.vec v = s.vec v := by
  unfold State.vec
  rw [h]

/-- A record that the queue takes: what it changes of functions, vectors and transactions. -/
theorem State.putEvent_keeps (s : State) (f type about ring : Nat) (detail : List Byte) :
    let t := s.putEvent f type about ring s.po.tm detail
    (∀ g, t.fn g = ((s.recordSent f type about ring detail).recordTaken f).fn g) ∧
    (∀ v, v ≠ (s.fn f).entry.vecBase.toNat + (s.fn f).eq.vector.toNat → t.vec v = s.vec v) ∧
    t.po.txns = (s.recordSent f type about ring detail).po.txns := by
  obtain ⟨hfx, hvecs⟩ := s.recordSent_keeps f type about ring detail
  have kept : ∀ v, ((s.recordSent f type about ring detail).recordTaken f).vec v = s.vec v := State.vec_of_vecs hvecs
  have base : (((s.recordSent f type about ring detail).recordTaken f).fn f).entry = (s.fn f).entry := by
    rw [State.fn_recordTaken, if_pos rfl, State.fn_of_fx hfx]
  rw [State.putEvent_eq]
  dsimp only
  split
  · refine ⟨fun g => rfl, fun v hv => ?_, rfl⟩
    unfold State.signal
    rw [State.vec_setVec, base, if_neg hv, kept]
  · exact ⟨fun g => rfl, fun v _ => kept v, rfl⟩

/-- The cases of an event record. -/
theorem State.event_cases (s : State) (f type about ring : Nat) (detail : List Byte) :
    ((s.fn f).eq.en = false ∨ s.fc.halted = true ∨ s.silent f = true ∨
        (alwaysWritten type = false ∧ (s.fn f).eq.typeEn.getLsbD type = false) →
      s.event f type about ring detail = s) ∧
    ((s.fn f).eq.en = true → s.fc.halted = false → s.silent f = false →
        (alwaysWritten type || (s.fn f).eq.typeEn.getLsbD type) = true →
      s.event f type about ring detail =
        if (s.fn f).eq.full then s.modFn f (fun v => { v with eq := { (s.fn f).eq with
            lost := satAdd (s.fn f).eq.lost 1, since := satAdd (s.fn f).eq.since 1,
            firstLost := if (s.fn f).eq.since = 0 then s.po.tm else (s.fn f).eq.firstLost, lastLost := s.po.tm } })
        else s.putEvent f type about ring s.po.tm detail) := by
  unfold State.event
  refine ⟨fun h => if_pos ?_, fun h1 h2 h3 h4 => if_neg ?_⟩
  · rcases h with h | h | h | ⟨h, h'⟩ <;> simp [*]
  · simp [h1, h2, h3, h4]

/-! The freshness window -/

section
variable {e : SsEnt} {f : DWord}

theorem SsEnt.accept_first (on : e.fresh ≠ 0) (first : e.seeded = false) :
    e.accept f = (true, { e with hi := f, win := 1, seeded := true }) := by
  unfold SsEnt.accept
  rw [if_neg on, if_pos (by simp [first])]

/-- A value that lies behind the window, or whose place in it is marked, is a replay (R136). -/
theorem SsEnt.accept_replay (on : e.fresh ≠ 0) (run : e.seeded = true) (old : f.toNat ≤ e.hi.toNat)
    (seen : 64 ≤ e.hi.toNat - f.toNat ∨ e.win.getLsbD (e.hi.toNat - f.toNat) = true) : e.accept f = (false, e) := by
  unfold SsEnt.accept
  rw [if_neg on, if_neg (by simp [run]), if_neg (by omega)]
  exact if_pos seen

/-- The window moves to a newer value, and keeps the marks that stay within it. -/
theorem SsEnt.accept_newer_eq (on : e.fresh ≠ 0) (run : e.seeded = true) (newer : e.hi.toNat < f.toNat) :
    e.accept f = (true, { e with
      win := if 64 ≤ f.toNat - e.hi.toNat then 1 else (e.win <<< (f.toNat - e.hi.toNat)) ||| 1, hi := f }) := by
  unfold SsEnt.accept
  rw [if_neg on, if_neg (by simp [run]), if_pos newer]

/-- A value within the window that is not marked marks its place. -/
theorem SsEnt.accept_within_eq (on : e.fresh ≠ 0) (run : e.seeded = true) (old : f.toNat ≤ e.hi.toNat)
    (near : e.hi.toNat - f.toNat < 64) (new : e.win.getLsbD (e.hi.toNat - f.toNat) = false) :
    e.accept f = (true, { e with win := e.win ||| (1#64 <<< (e.hi.toNat - f.toNat)) }) := by
  unfold SsEnt.accept
  rw [if_neg on, if_neg (by simp [run]), if_neg (by omega)]
  exact if_neg (by simp [new]; omega)

theorem SsEnt.accept_newer (on : e.fresh ≠ 0) (run : e.seeded = true) (newer : e.hi.toNat < f.toNat) :
    (e.accept f).1 = true ∧ (e.accept f).2.hi = f ∧ (e.accept f).2.win.getLsbD 0 = true ∧
    (∀ d, f.toNat - e.hi.toNat + d < 64 →
      (e.accept f).2.win.getLsbD (f.toNat - e.hi.toNat + d) = e.win.getLsbD d) ∧
    (e.accept f).2.accept f = (false, (e.accept f).2) := by
  have moved := SsEnt.accept_newer_eq on run newer
  have mark : (e.accept f).2.win.getLsbD 0 = true := by
    rw [moved]
    dsimp only
    split <;> simp
  have hi : (e.accept f).2.hi = f := by rw [moved]
  refine ⟨by rw [moved], hi, mark, fun d hd => ?_, ?again⟩
  case again =>
    refine SsEnt.accept_replay (by rw [moved]; exact on) (by rw [moved]; exact run) (by rw [hi]) (.inr ?_)
    rw [hi, Nat.sub_self, mark]
  rw [moved]
  dsimp only
  rw [if_neg (by omega)]
  have apart : f.toNat - e.hi.toNat ≠ 0 := by omega
  have hd' : d < 64 := by omega
  simp [hd, apart, BitVec.getLsbD_eq_getElem hd']

theorem SsEnt.accept_within (on : e.fresh ≠ 0) (run : e.seeded = true) (old : f.toNat ≤ e.hi.toNat)
    (near : e.hi.toNat - f.toNat < 64) (new : e.win.getLsbD (e.hi.toNat - f.toNat) = false) :
    (e.accept f).1 = true ∧ (e.accept f).2.hi = e.hi ∧ (e.accept f).2.accept f = (false, (e.accept f).2) := by
  have marked := SsEnt.accept_within_eq on run old near new
  rw [marked]
  refine ⟨rfl, rfl, SsEnt.accept_replay on run old (.inr ?_)⟩
  simp [near]

end

/-- That registers read 0, as a test of their list. -/
theorem State.regRead_zero {s : State} {l : List Nat} (all : l.all (fun o => regRead s o == 0) = true) :
    ∀ o ∈ l, regRead s o = 0 :=
  fun o ho => eq_of_beq (List.all_eq_true.mp all o ho)

end Sys2Proof.Machine

namespace Sys2Proof

open Machine

/-- Settles O53: the step by the two forms of the queue. -/
theorem stepRunsFront : Obligations.StepRunsFront := by
  unfold Obligations.StepRunsFront
  refine ⟨fun c s => rfl, fun s empty => ?_⟩
  unfold step
  rw [empty]

/-- Settles O56, register by register. -/
theorem resetValues : Obligations.ResetValues := by
  unfold Obligations.ResetValues
  exact ⟨by decide, State.regRead_zero (by decide)⟩

/-- Settles O57, by the order in which the port checks a write and a read. -/
theorem portRefusals : Obligations.PortRefusals := by
  unfold Obligations.PortRefusals
  intro s a q off no refused owner covers up
  obtain ⟨wParity, wOwner, wOther⟩ := State.portWrite_refused (off := off) (q := q) up
  obtain ⟨rParity, rOwner, rOther⟩ := State.portRead_refused (off := off) (q := q) up
  refine ⟨fun hp => ⟨?_, ?_⟩, fun hp ho => ⟨?_, ?_⟩, fun hp ho hc => ⟨?_, ?_⟩, fun hp ho _ => ⟨fun h => ?_, fun h h' => ?_,
    fun h h0 hE => ?_⟩⟩
  · exact exec_next rfl (wParity hp)
  · exact exec_next rfl (rParity hp)
  · exact exec_next rfl (wOwner hp ho)
  · exact exec_next rfl (rOwner hp ho)
  · exact exec_next rfl (wOther hp ho (.inl hc))
  · exact exec_next rfl (rOther hp ho (.inl hc))
  · exact exec_next rfl (wOther hp ho (.inr (.inl h)))
  · exact exec_next rfl (wOther hp ho (.inr (.inr ⟨h, h'⟩)))
  · exact exec_next rfl (rOther hp ho (.inr ⟨h, h0, hE⟩))

/-- Settles O58: each register by what its page does, the read by the word that its page holds. -/
theorem plainRegisters : Obligations.PlainRegisters := by
  unfold Obligations.PlainRegisters
  intro s a q off d writes
  refine ⟨fun hbe => ⟨?_, ?_, ?_, ?_, ?_, ?_, ?_, ?_, ?_, ?_, ?_, ?_, ?domSel⟩, fun h acc => ?ignored, fun hp ht acc => ?read⟩
  case ignored =>
    exact exec_next rfl (State.portWrite_accepted acc (regWrite_readOnly s _ h) acc.up (goOf_readOnly _ _ h))
  case read =>
    have answer := State.portRead_accepted acc
    rw [State.windowRead_plain hp ht] at answer
    exact exec_next rfl answer
  case domSel =>
    intro ho
    show PortDoes s _ off q _
    rw [ho]
    exact .of_plain ho (by decide) hbe (if_neg (fun h => absurd h.2 (by decide))) rfl
  all_goals
    intro ho
    show PortDoes s _ off q _
    rw [ho]
    exact .of_plain ho (by decide) hbe rfl rfl

/-- Settles O59, by the three cases of a request. -/
theorem fabricChecks : Obligations.FabricChecks := by
  unfold Obligations.FabricChecks
  intro s a addr len data b
  refine ⟨State.issue1_denied, State.issue1_halted, fun allowed runs => ?_⟩
  obtain ⟨txns, out, hfx, hfc, -⟩ := s.sends_keeps a addr len data
  exact ⟨_, s.reqOf a addr len data, State.issue1_sent allowed runs, txns, out, rfl, rfl, rfl, rfl, rfl, rfl, rfl, rfl,
    fun r hr some => Ports.freeTid_unused some hr, hfx, hfc⟩

/-- Settles O60, by the cases of a record; one that is written is one request at PROD. -/
theorem eventRecords : Obligations.EventRecords := by
  unfold Obligations.EventRecords
  intro s f type about ring detail e t
  obtain ⟨discarded, taken⟩ := s.event_cases f type about ring detail
  refine ⟨discarded, fun h1 h2 h3 h4 => ⟨fun full => (taken h1 h2 h3 h4).trans (if_pos full), fun room => ?_⟩⟩
  have ht : t = s.putEvent f type about ring s.po.tm detail := (taken h1 h2 h3 h4).trans (if_neg (by simp [e] at room; simp [room]))
  obtain ⟨hfn, hvec, htxns⟩ := s.putEvent_keeps f type about ring detail
  obtain ⟨hfx, -⟩ := s.recordSent_keeps f type about ring detail
  refine ⟨?queue, fun g hg => ?others, fun v hv => ?vectors, fun allowed => ?sent⟩
  case queue => rw [ht, hfn, State.fn_recordTaken, if_pos rfl, State.fn_of_fx hfx]
  case others => rw [ht, hfn, State.fn_recordTaken, if_neg hg, State.fn_of_fx hfx]
  case vectors => rw [ht, hvec v hv]
  case sent =>
    have issued := State.issue1_sent (s := s) (a := eventAccess f) (addr := e.place) (len := 32)
      (data := s.recordBytes f type about ring detail) allowed (.inl h2)
    obtain ⟨txns, -⟩ := s.sends_keeps (eventAccess f) e.place 32 (s.recordBytes f type about ring detail)
    refine ⟨s.reqOf (eventAccess f) e.place 32 (s.recordBytes f type about ring detail), ?_, rfl, rfl, rfl⟩
    rw [ht, htxns, ← txns]
    exact congrArg (fun r => r.2.po.txns) issued

/-- Settles O32, by the three distances of a value from the window. -/
theorem freshnessWindow : Obligations.FreshnessWindow := by
  unfold Obligations.FreshnessWindow
  intro e f on
  exact ⟨SsEnt.accept_first on, SsEnt.accept_newer on, SsEnt.accept_within on, SsEnt.accept_replay on⟩

end Sys2Proof
end

section
/-! SUPPORT. The encoding of Burin (11_burin.md Tables 11.4–11.8): the fields of each format, and the statements that a word
is decoded to what it encodes. -/

namespace Sys2Proof.Machine

/-! The halfwords of an instruction -/

/-- The halfwords are decoded as `op`, the second halfword of a short instruction being whatever follows it. -/
structure BuWord.Decodes (w : BuWord) (op : BuOp) : Prop where
  short : ∀ h, w = .short h → ∀ next, decodeBu h next = some op
  long : ∀ h0 h1, w = .long h0 h1 → decodeBu h0 h1 = some op

/-- A short word has bit 15 clear. -/
theorem BuWord.decodes_short {h : BitVec 16} {op : BuOp} (width : h.getLsbD 15 = false) (d : decodeShort h = some op) :
    (BuWord.short h).Decodes op := by
  refine ⟨fun h' same next => ?_, fun h0 h1 other => nomatch other⟩
  obtain rfl := BuWord.short.inj same
  rw [decodeBu, width, if_neg Bool.false_ne_true, d]

/-- A long instruction, by its 32-bit word. -/
def decodeWord (w : BitVec 32) : Option BuOp := decodeLong (w.extractLsb' 16 16) (w.extractLsb' 0 16)

/-- A long word has bit 31 set. -/
theorem BuWord.decodes_long {w : BitVec 32} {op : BuOp} (width : w.getLsbD 31 = true) (d : decodeWord w = some op) :
    (encW w).Decodes op := by
  have h : (w.extractLsb' 16 16).getLsbD 15 = true := by simpa using width
  refine ⟨fun h other => (nomatch other), fun h0 h1 same => ?_⟩
  obtain ⟨rfl, rfl⟩ := BuWord.long.inj same
  rw [decodeBu, if_pos h]
  exact d

/-! Fields of a word put together by `++` -/

theorem lowField {v w : Nat} {x : BitVec v} {y : BitVec w} : (x ++ y).extractLsb' 0 w = y :=
  BitVec.extractLsb'_append_eq_right

theorem skipField {v w start len : Nat} {x : BitVec v} {y : BitVec w} {z : BitVec len}
    (h : x.extractLsb' (start - w) len = z) (above : w ≤ start := by decide) : (x ++ y).extractLsb' start len = z :=
  (BitVec.extractLsb'_append_eq_of_le above).trans h

theorem skipBit {v w i : Nat} {x : BitVec v} {y : BitVec w} {b : Bool} (h : x.getLsbD (i - w) = b)
    (above : ¬ i < w := by decide) : (x ++ y).getLsbD i = b :=
  BitVec.getLsbD_append.trans ((if_neg above).trans h)

/-! Short words: S-RR, S-RI and S-A -/

/-- The word of S-RR and S-RI. -/
def shortWord (op rd x : BitVec 5) : BitVec 16 := (0 : BitVec 1) ++ op ++ rd ++ x

/-- The word of S-A. -/
def shortImm (op : BitVec 5) (imm : BitVec 10) : BitVec 16 := (0 : BitVec 1) ++ op ++ imm

theorem shortWord_width (op rd x : BitVec 5) : (shortWord op rd x).getLsbD 15 = false :=
  skipBit (skipBit (skipBit rfl))

@[simp] theorem shortWord_op (op rd x : BitVec 5) : (shortWord op rd x).extractLsb' 10 5 = op :=
  skipField (skipField lowField)

@[simp] theorem shortWord_rd (op rd x : BitVec 5) : (shortWord op rd x).extractLsb' 5 5 = rd :=
  skipField lowField

@[simp] theorem shortWord_last (op rd x : BitVec 5) : (shortWord op rd x).extractLsb' 0 5 = x :=
  lowField

theorem shortImm_width (op : BitVec 5) (imm : BitVec 10) : (shortImm op imm).getLsbD 15 = false :=
  skipBit (skipBit rfl)

@[simp] theorem shortImm_op (op : BitVec 5) (imm : BitVec 10) : (shortImm op imm).extractLsb' 10 5 = op :=
  skipField lowField

@[simp] theorem shortImm_imm (op : BitVec 5) (imm : BitVec 10) : (shortImm op imm).extractLsb' 0 10 = imm :=
  lowField

theorem decodes_encS {op rd x : BitVec 5} {o : BuOp} (d : decodeShort (shortWord op rd x) = some o) :
    (encS op rd x).Decodes o :=
  BuWord.decodes_short (shortWord_width op rd x) d

theorem decodes_encA {op : BitVec 5} {imm : BitVec 10} {o : BuOp} (d : decodeShort (shortImm op imm) = some o) :
    (encA op imm).Decodes o :=
  BuWord.decodes_short (shortImm_width op imm) d

/-! Long words: L-R, L-I, L-J, LUI and ETCH -/

@[simp] theorem append_halfwords (w : BitVec 32) :
    ((w.extractLsb' 16 16 : BitVec 16) ++ (w.extractLsb' 0 16 : BitVec 16) : BitVec 32) = w :=
  BitVec.extractLsb'_append_extractLsb' (w := 16) (len := 16)

/-- The word of L-I and L-B. -/
def longI (major : BitVec 7) (rd ra : BitVec 5) (imm : BitVec 14) : BitVec 32 := (1 : BitVec 1) ++ major ++ rd ++ ra ++ imm

/-- The word of L-R. -/
def longR (rd ra rb : BitVec 5) (fn : BitVec 9) : BitVec 32 := (1 : BitVec 1) ++ (0 : BitVec 7) ++ rd ++ ra ++ rb ++ fn

/-- The word of L-J. -/
def longJ (major : BitVec 7) (imm : BitVec 24) : BitVec 32 := (1 : BitVec 1) ++ major ++ imm

/-- The word of LUI. -/
def longLui (rd : BitVec 5) (imm : BitVec 18) : BitVec 32 :=
  (1 : BitVec 1) ++ (0x10 : BitVec 7) ++ rd ++ (0 : BitVec 1) ++ imm

/-- The word of ETCH. -/
def longEtch (rd ra rb : BitVec 5) (i : BitVec 6) : BitVec 32 :=
  (1 : BitVec 1) ++ (0x7F : BitVec 7) ++ rd ++ ra ++ rb ++ (0 : BitVec 3) ++ i

theorem longI_width (major : BitVec 7) (rd ra : BitVec 5) (imm : BitVec 14) : (longI major rd ra imm).getLsbD 31 = true :=
  skipBit (skipBit (skipBit (skipBit rfl)))

@[simp] theorem longI_imm (major : BitVec 7) (rd ra : BitVec 5) (imm : BitVec 14) :
    (longI major rd ra imm).extractLsb' 0 14 = imm :=
  lowField

/-- The immediate of a shift is the low five bits of imm14, the others being 0. -/
@[simp] theorem longI_shift (major : BitVec 7) (rd ra x : BitVec 5) (zero : BitVec 9) :
    (longI major rd ra (zero ++ x)).extractLsb' 0 5 = x :=
  (BitVec.extractLsb'_append_eq_of_add_le (by decide)).trans lowField

@[simp] theorem longI_shiftZero (major : BitVec 7) (rd ra x : BitVec 5) (zero : BitVec 9) :
    (longI major rd ra (zero ++ x)).extractLsb' 5 9 = zero :=
  (BitVec.extractLsb'_append_eq_of_add_le (by decide)).trans (skipField BitVec.extractLsb'_eq_self)

@[simp] theorem longI_ra (major : BitVec 7) (rd ra : BitVec 5) (imm : BitVec 14) :
    (longI major rd ra imm).extractLsb' 14 5 = ra :=
  skipField lowField

@[simp] theorem longI_rd (major : BitVec 7) (rd ra : BitVec 5) (imm : BitVec 14) :
    (longI major rd ra imm).extractLsb' 19 5 = rd :=
  skipField (skipField lowField)

@[simp] theorem longI_major (major : BitVec 7) (rd ra : BitVec 5) (imm : BitVec 14) :
    (longI major rd ra imm).extractLsb' 24 7 = major :=
  skipField (skipField (skipField lowField))

theorem longR_width (rd ra rb : BitVec 5) (fn : BitVec 9) : (longR rd ra rb fn).getLsbD 31 = true :=
  skipBit (skipBit (skipBit (skipBit (skipBit rfl))))

@[simp] theorem longR_fn (rd ra rb : BitVec 5) (fn : BitVec 9) :
    (longR rd ra rb fn).extractLsb' 0 9 = fn :=
  lowField

@[simp] theorem longR_rb (rd ra rb : BitVec 5) (fn : BitVec 9) :
    (longR rd ra rb fn).extractLsb' 9 5 = rb :=
  skipField lowField

@[simp] theorem longR_ra (rd ra rb : BitVec 5) (fn : BitVec 9) :
    (longR rd ra rb fn).extractLsb' 14 5 = ra :=
  skipField (skipField lowField)

@[simp] theorem longR_rd (rd ra rb : BitVec 5) (fn : BitVec 9) :
    (longR rd ra rb fn).extractLsb' 19 5 = rd :=
  skipField (skipField (skipField lowField))

@[simp] theorem longR_major (rd ra rb : BitVec 5) (fn : BitVec 9) :
    (longR rd ra rb fn).extractLsb' 24 7 = 0 :=
  skipField (skipField (skipField (skipField lowField)))

theorem longJ_width (major : BitVec 7) (imm : BitVec 24) : (longJ major imm).getLsbD 31 = true :=
  skipBit (skipBit rfl)

@[simp] theorem longJ_imm (major : BitVec 7) (imm : BitVec 24) :
    (longJ major imm).extractLsb' 0 24 = imm :=
  lowField

@[simp] theorem longJ_major (major : BitVec 7) (imm : BitVec 24) :
    (longJ major imm).extractLsb' 24 7 = major :=
  skipField lowField

theorem longLui_width (rd : BitVec 5) (imm : BitVec 18) : (longLui rd imm).getLsbD 31 = true :=
  skipBit (skipBit (skipBit (skipBit rfl)))

@[simp] theorem longLui_imm (rd : BitVec 5) (imm : BitVec 18) :
    (longLui rd imm).extractLsb' 0 18 = imm :=
  lowField

@[simp] theorem longLui_zero (rd : BitVec 5) (imm : BitVec 18) :
    (longLui rd imm).extractLsb' 18 1 = 0 :=
  skipField lowField

@[simp] theorem longLui_rd (rd : BitVec 5) (imm : BitVec 18) :
    (longLui rd imm).extractLsb' 19 5 = rd :=
  skipField (skipField lowField)

@[simp] theorem longLui_major (rd : BitVec 5) (imm : BitVec 18) :
    (longLui rd imm).extractLsb' 24 7 = 0x10 :=
  skipField (skipField (skipField lowField))

theorem longEtch_width (rd ra rb : BitVec 5) (i : BitVec 6) : (longEtch rd ra rb i).getLsbD 31 = true :=
  skipBit (skipBit (skipBit (skipBit (skipBit (skipBit rfl)))))

@[simp] theorem longEtch_index (rd ra rb : BitVec 5) (i : BitVec 6) :
    (longEtch rd ra rb i).extractLsb' 0 6 = i :=
  lowField

@[simp] theorem longEtch_zero (rd ra rb : BitVec 5) (i : BitVec 6) :
    (longEtch rd ra rb i).extractLsb' 6 3 = 0 :=
  skipField lowField

@[simp] theorem longEtch_rb (rd ra rb : BitVec 5) (i : BitVec 6) :
    (longEtch rd ra rb i).extractLsb' 9 5 = rb :=
  skipField (skipField lowField)

@[simp] theorem longEtch_ra (rd ra rb : BitVec 5) (i : BitVec 6) :
    (longEtch rd ra rb i).extractLsb' 14 5 = ra :=
  skipField (skipField (skipField lowField))

@[simp] theorem longEtch_rd (rd ra rb : BitVec 5) (i : BitVec 6) :
    (longEtch rd ra rb i).extractLsb' 19 5 = rd :=
  skipField (skipField (skipField (skipField lowField)))

@[simp] theorem longEtch_major (rd ra rb : BitVec 5) (i : BitVec 6) :
    (longEtch rd ra rb i).extractLsb' 24 7 = 0x7F :=
  skipField (skipField (skipField (skipField (skipField lowField))))

theorem decodes_encI {major : BitVec 7} {rd ra : BitVec 5} {imm : BitVec 14} {o : BuOp}
    (d : decodeWord (longI major rd ra imm) = some o) : (encI major rd ra imm).Decodes o :=
  BuWord.decodes_long (longI_width major rd ra imm) d

theorem decodes_encR {fn : BitVec 9} {rd ra rb : BitVec 5} {o : BuOp} (d : decodeWord (longR rd ra rb fn) = some o) :
    (encR fn rd ra rb).Decodes o :=
  BuWord.decodes_long (longR_width rd ra rb fn) d

theorem decodes_encJ {major : BitVec 7} {imm : BitVec 24} {o : BuOp} (d : decodeWord (longJ major imm) = some o) :
    (encJ major imm).Decodes o :=
  BuWord.decodes_long (longJ_width major imm) d

/-! Every operation, by the format of its word -/

theorem encodeBu_decodes (op : BuOp) : (encodeBu op).Decodes op := by
  cases op
  case mov | neg | li | lws | sws | beqz | bnez | mfs | mts => exact decodes_encS (by simp [decodeShort])
  case callr | jr | ret | nop | wfe | commit | tret | brk => exact decodes_encS (by simp [decodeShort, decodeSys])
  case adj => exact decodes_encA (by simp [decodeShort])
  case andn | ror | min | max | minu | maxu | clz | popc | bswap =>
    exact decodes_encR (by simp [decodeWord, decodeLong, decodeAlu])
  case andi | ori | xori | slti | lw | lh | lhu | lb | lbu | sw | sh | sb | beq | bne | blt | bge | bltu | bgeu | adjl =>
    exact decodes_encI (by simp [decodeWord, decodeLong])
  case call => exact decodes_encJ (by simp [decodeWord, decodeLong])
  case lui rd imm => exact BuWord.decodes_long (w := longLui rd imm) (longLui_width rd imm) (by simp [decodeWord, decodeLong])
  case etch rd ra rb i =>
    exact BuWord.decodes_long (w := longEtch rd ra rb i) (longEtch_width rd ra rb i) (by simp [decodeWord, decodeLong])
  case add a | sub a | and a | or a | xor a | shl a | shr a | sar a | slt a | sltu a =>
    cases a with
    | short => exact decodes_encS (by simp [decodeShort])
    | long => exact decodes_encR (by simp [decodeWord, decodeLong, decodeAlu])
  case mul a | mulu a =>
    cases a with
    | short => exact decodes_encS (by simp [decodeShort])
    | long => exact decodes_encR (by simp [decodeWord, decodeLong, decodeAlu])
  case addi a =>
    cases a with
    | short => exact decodes_encS (by simp [decodeShort])
    | long => exact decodes_encI (by simp [decodeWord, decodeLong])
  case shli a | shri a | sari a =>
    cases a with
    | short => exact decodes_encS (by simp [decodeShort])
    | long => exact decodes_encI (by simp [decodeWord, decodeLong])
  case jump a =>
    cases a with
    | short => exact decodes_encA (by simp [decodeShort])
    | long => exact decodes_encJ (by simp [decodeWord, decodeLong])

end Sys2Proof.Machine

namespace Sys2Proof

open Machine

/-- Settles O14: the fields of each format are read back from its word, and each operation's codes lead to it. -/
theorem burinDecodeOfEncode : Obligations.BurinDecodeOfEncode := by
  unfold Obligations.BurinDecodeOfEncode
  intro op
  exact ⟨(encodeBu_decodes op).short, (encodeBu_decodes op).long⟩

/-- Settles O15: the model's decoder runs on the words. -/
theorem burinDecodeWords : Obligations.BurinDecodeWords := by
  unfold Obligations.BurinDecodeWords
  decide

end Sys2Proof
end

section
/-! SUPPORT. Burin's arithmetic (11_burin.md R279, R286): what the model computes with is what the manual's tables say, and the
statements about the register file, arithmetic, comparisons, shifts and bit counts. -/

namespace Sys2Proof.Machine

/-! Comparisons, shifts and bit counts -/

theorem flag_slt (x y : Word) : flag (x.slt y) = if x.toInt < y.toInt then 1 else 0 := by
  simp only [flag, BitVec.slt, decide_eq_true_eq]

theorem flag_ult (x y : Word) : flag (x.ult y) = if x.toNat < y.toNat then 1 else 0 := by
  simp only [flag, BitVec.ult, decide_eq_true_eq]

theorem toInt_min (x y : Word) : (if x.slt y then x else y).toInt = min x.toInt y.toInt := by
  simp only [BitVec.slt, decide_eq_true_eq]
  split <;> omega

theorem toInt_max (x y : Word) : (if x.slt y then y else x).toInt = max x.toInt y.toInt := by
  simp only [BitVec.slt, decide_eq_true_eq]
  split <;> omega

theorem toNat_min (x y : Word) : (if x.ult y then x else y).toNat = min x.toNat y.toNat := by
  simp only [BitVec.ult, decide_eq_true_eq]
  split <;> omega

theorem toNat_max (x y : Word) : (if x.ult y then y else x).toNat = max x.toNat y.toNat := by
  simp only [BitVec.ult, decide_eq_true_eq]
  split <;> omega

theorem setWidth_shiftLeft_eq_append (imm : BitVec 18) : imm.setWidth 32 <<< 14 = imm ++ (0 : BitVec 14) := by
  ext i hi
  simp
  grind

theorem toInt_sshiftRight_eq_div (x : Word) (n : Nat) : (x.sshiftRight n).toInt = x.toInt / 2 ^ n := by
  rw [BitVec.toInt_sshiftRight, Int.shiftRight_eq_div_pow]
  rfl

theorem clz32_le (x : Word) : clz32 x ≤ 32 := by
  unfold clz32
  split <;> omega

/-- A word has its highest one just below its leading zeros. -/
theorem clz32_bounds (x : Word) : x.toNat < 2 ^ (32 - clz32 x) ∧ (clz32 x < 32 → 2 ^ (31 - clz32 x) ≤ x.toNat) := by
  unfold clz32
  by_cases hx : x = 0
  · subst hx
    simp
  · have nonzero : x.toNat ≠ 0 := fun h => hx (BitVec.eq_of_toNat_eq h)
    have small : x.toNat.log2 < 32 := (Nat.log2_lt nonzero).2 x.isLt
    rw [if_neg hx, show 32 - (31 - x.toNat.log2) = x.toNat.log2 + 1 by omega,
      show 31 - (31 - x.toNat.log2) = x.toNat.log2 by omega]
    exact ⟨Nat.lt_log2_self, fun _ => Nat.log2_self_le nonzero⟩

/-- A number's lowest byte, put at the end of the word of the rest. -/
theorem ofNat_mul_add_byte (w a : Nat) (b : Byte) : BitVec.ofNat (w + 8) (a * 256 + b.toNat) = BitVec.ofNat w a ++ b := by
  apply BitVec.eq_of_toNat_eq
  rw [BitVec.toNat_append, ← Nat.shiftLeft_add_eq_or_of_lt b.isLt, Nat.shiftLeft_eq, BitVec.toNat_ofNat, BitVec.toNat_ofNat,
    Nat.pow_add]
  have low : (a * 256 + b.toNat) % 2 ^ 8 = b.toNat := by have := b.isLt; omega
  have rest : (a * 256 + b.toNat) / 2 ^ 8 = a := by have := b.isLt; omega
  rw [Nat.mul_comm (2 ^ w), Nat.mod_mul, low, rest, Nat.add_comm, Nat.mul_comm]

theorem ofNat_byte_of_word (x : Word) (k : Nat) : BitVec.ofNat 8 (x.toNat / 2 ^ k) = x.extractLsb' k 8 := by
  rw [← Nat.shiftRight_eq_div_pow]
  rfl

theorem bswap32_eq (x : Word) :
    bswap32 x = x.extractLsb' 0 8 ++ x.extractLsb' 8 8 ++ x.extractLsb' 16 8 ++ x.extractLsb' 24 8 := by
  have bytes : leBytes 4 x.toNat = [x.extractLsb' 0 8, x.extractLsb' 8 8, x.extractLsb' 16 8, x.extractLsb' 24 8] := by
    simp only [leBytes, Nat.div_div_eq_div_mul, ← ofNat_byte_of_word]
    simp
  unfold bswap32 beNat
  rw [bytes]
  simp only [List.foldl]
  rw [ofNat_mul_add_byte 24, ofNat_mul_add_byte 16, ofNat_mul_add_byte 8, Nat.zero_mul, Nat.zero_add, BitVec.ofNat_toNat,
    BitVec.setWidth_eq]

end Sys2Proof.Machine

namespace Sys2Proof

open Machine

/-- Settles O4: a register file is a table of which entry 0 is never read or written. -/
theorem burinRegisterFile : Obligations.BurinRegisterFile := by
  unfold Obligations.BurinRegisterFile
  refine ⟨fun c v => ⟨rfl, rfl⟩, fun c r q v hr => ?_, BuCtx.set_frame⟩
  rw [BuCtx.get_set]
  by_cases hq : q = 0
  · subst hq
    rw [if_pos rfl, if_neg (Ne.symm hr)]
    rfl
  · rw [if_neg hq]

/-- Settles O1: each operation's meaning is its result written to rd; NEG and LUI are written in other words. -/
theorem burinArithmetic : Obligations.BurinArithmetic := by
  unfold Obligations.BurinArithmetic
  intro s h q
  refine ⟨?_, ?_, ?_, ?_, ?_, ?_, ?_, ?_, ?_, ?_, ?_, ?_, ?neg, ?_, ?_, ?_, ?_, ?_, ?_, ?lui⟩
  case neg => exact fun rd rb => exec_sets h q rfl rfl _ rfl (BitVec.zero_sub _)
  case lui => exact fun rd imm => exec_sets (op := .lui rd imm) h q rfl rfl _ rfl (setWidth_shiftLeft_eq_append imm)
  all_goals
    intros
    exact exec_sets h q rfl rfl _ rfl rfl

/-- Settles O2: the comparisons of words are those of the numbers that they hold, signed or unsigned. -/
theorem burinComparisons : Obligations.BurinComparisons := by
  unfold Obligations.BurinComparisons
  intro s h q
  refine ⟨fun rd rb => ?_, fun rd ra rb => ?_, fun rd rb => ?_, fun rd ra rb => ?_, fun rd ra imm => ?_, fun rd ra rb => ?min,
    fun rd ra rb => ?max, fun rd ra rb => ?minu, fun rd ra rb => ?maxu⟩
  · exact exec_sets h q rfl rfl _ rfl (flag_slt _ _)
  · exact exec_sets h q rfl rfl _ rfl (flag_slt _ _)
  · exact exec_sets h q rfl rfl _ rfl (flag_ult _ _)
  · exact exec_sets h q rfl rfl _ rfl (flag_ult _ _)
  · exact exec_sets h q rfl rfl _ rfl (flag_slt _ _)
  case min => exact ⟨_, exec_sets h q rfl rfl _ rfl rfl, toInt_min _ _⟩
  case max => exact ⟨_, exec_sets h q rfl rfl _ rfl rfl, toInt_max _ _⟩
  case minu => exact ⟨_, exec_sets h q rfl rfl _ rfl rfl, toNat_min _ _⟩
  case maxu => exact ⟨_, exec_sets h q rfl rfl _ rfl rfl, toNat_max _ _⟩

/-- Settles O3: a shift's distance is the model's own, and its signed result a division; CLZ by the place of the highest one,
BSWAP by the bytes. -/
theorem burinShifts : Obligations.BurinShifts := by
  unfold Obligations.BurinShifts
  intro s h q
  refine ⟨?_, ?_, ?_, ?_, ?_, ?_, ?_, ?_, ?_, ?_, ?_, ?_, ?_, ?clz, ?_, ?bswap⟩
  case clz =>
    exact fun rd ra => ⟨_, exec_sets h q rfl rfl _ rfl rfl, clz32_le _, clz32_bounds _⟩
  case bswap => exact fun rd ra => exec_sets h q rfl rfl _ rfl (bswap32_eq _)
  iterate 4 · intros; exact exec_sets h q rfl rfl _ rfl rfl
  iterate 2 · intros; exact ⟨_, exec_sets h q rfl rfl _ rfl rfl, toInt_sshiftRight_eq_div _ _⟩
  iterate 5 · intros; exact exec_sets h q rfl rfl _ rfl rfl
  iterate 2 · intros; exact ⟨_, exec_sets h q rfl rfl _ rfl rfl, toInt_sshiftRight_eq_div _ _⟩
  · intros; exact exec_sets h q rfl rfl _ rfl rfl

end Sys2Proof
end

section
/-! SUPPORT. Burin's loads, stores, branches, products and special registers (11_burin.md R273, R276, R279–R286): what each kind of
instruction leaves when it retires, and the statements about them. -/

namespace Sys2Proof.Machine

/-! Values of loads (R273) -/

@[simp] theorem Memory.length_readBytes (m : Memory) (a n : Nat) : (m.readBytes a n).length = n := by
  simp [Memory.readBytes]

theorem leNat_lt (l : List Byte) : leNat l < 256 ^ l.length := by
  induction l with
  | nil => exact Nat.one_pos
  | cons b r ih =>
    have := b.isLt
    rw [leNat, List.length_cons, Nat.pow_succ]
    omega

theorem leNat_readBytes_one (m : Memory) (a : Nat) : leNat (m.readBytes a 1) = (m.read a).toNat := rfl

/-- The word that a load of these bytes gives. -/
def loadValue (signed : Bool) (size : Nat) (l : List Byte) : Word :=
  if signed && decide (2 ^ (8 * size - 1) ≤ leNat l) then BitVec.ofInt 32 ((leNat l : Int) - 2 ^ (8 * size))
  else BitVec.ofNat 32 (leNat l)

/-- A signed load extends the sign of what it read. -/
theorem loadValue_signed {size : Nat} {l : List Byte} {x : BitVec (8 * size)} (hs : 0 < size) (hx : leNat l = x.toNat) :
    loadValue true size l = x.signExtend 32 := by
  have double : 2 ^ (8 * size) = 2 * 2 ^ (8 * size - 1) := by
    rw [← Nat.pow_succ']
    congr 1
    omega
  rw [loadValue, BitVec.signExtend, BitVec.toInt_eq_toNat_cond, hx]
  by_cases big : 2 ^ (8 * size - 1) ≤ x.toNat
  · rw [if_pos (by simpa using big), if_neg (by omega)]
    rfl
  · rw [if_neg (by simpa using big), if_pos (by omega)]
    rfl

theorem loadValue_unsigned {size : Nat} {l : List Byte} {x : BitVec (8 * size)} (hx : leNat l = x.toNat) :
    loadValue false size l = x.setWidth 32 := by
  rw [loadValue, hx, Bool.false_and, if_neg Bool.false_ne_true, BitVec.ofNat_toNat]

theorem leNat_readBytes_two (m : Memory) (a : Nat) :
    leNat (m.readBytes a 2) = (BitVec.ofNat (8 * 2) (leNat (m.readBytes a 2))).toNat := by
  have := leNat_lt (m.readBytes a 2)
  rw [Memory.length_readBytes] at this
  rw [BitVec.toNat_ofNat, Nat.mod_eq_of_lt (by omega)]

/-- A load from data SRAM, or from the data view of instruction SRAM. -/
theorem Burin.loadAt_area {b : Burin} {rd : BitVec 5} {a : Word} {n cost : Nat} {signed : Bool} {m : Memory} {area : Area}
    (place : area = .dsram ∧ m = b.dmem ∧ cost = 1 ∨ area = .iview ∧ m = b.imem ∧ cost = 2) (aligned : a.toNat % n = 0)
    (reach : dataArea (inArea b.ctx.pc) false a.toNat n = area) :
    b.loadAt rd a n signed =
      { ctx := b.ctx, load := some (rd.toNat, loadValue signed n (m.readBytes a.toNat n)), cost := cost } := by
  unfold Burin.loadAt
  rcases place with ⟨rfl, rfl, rfl⟩ | ⟨rfl, rfl, rfl⟩
  · simp only [aligned, reach]
    rfl
  · simp only [aligned, reach]
    rfl

/-! Retiring -/

theorem evt_clearNone (x : BitVec 6) : x &&& ~~~(0 : BitVec 6) = x := by
  revert x
  decide

/-- No commit point is due where the logs are as a quiet Burin has them. -/
theorem Burin.Quiet.due {b c : Burin} (q : b.Quiet) (commit : c.commitDue = b.commitDue)
    (undo : c.undo.length ≤ b.undo.length + 16) (outb : c.outb.length ≤ b.outb.length + 1)
    (read : c.readLog.length ≤ b.readLog.length + 1) : c.due false = false := by
  obtain ⟨h1, h2, h3, h4⟩ := q
  have : ¬ 2048 ≤ c.undo.length ∧ ¬ 256 ≤ c.outb.length ∧ ¬ 256 ≤ c.readLog.length := by omega
  simp [Burin.due, commit, h1, this]

/-- A boundary at which no commit point is due. -/
theorem State.boundary_notDue {s : State} {ask : Bool} (h : s.bu.due ask = false) : s.boundary ask = s := by
  rw [State.boundary, h, Bool.not_false, if_pos rfl]

/-- A command whose meaning is an instruction that loads from a memory. -/
theorem exec_loads {s : State} {i : Instr} {op : BuOp} (h : s.Executes) (q : s.burinNow.Quiet)
    (hi : exec i s = .next (s.burinStep op)) {rd : BitVec 5} {v w : Word} {cost : Nat}
    (ho : s.burinNow.op op = { ctx := s.burinNow.ctx, load := some (rd.toNat, v), cost := cost }) (l : Word)
    (hl : BitVec.ofNat 32 op.len = l) (hv : v = w) : BurinLoads s i rd w l cost := by
  subst hl hv
  intro hf
  have retired : s.burinNow.retire op.len { ctx := s.burinNow.ctx, load := some (rd.toNat, v), cost := cost } =
      { s.burinNow.next s.burinNow.ctx (s.burinNow.ctx.pc + BitVec.ofNat 32 op.len) cost with
        loads := s.burinNow.loads.map (fun l => { l with slotDone := true }) ++ [{ rd := rd.toNat, val := v }] } := by
    simp only [Burin.retire, Burin.next, List.foldl_nil, evt_clearNone]
  rw [exec_retires h hi ho rfl rfl rfl (q.due rfl (Nat.le_add_right _ _) (Nat.le_add_right _ _) (Nat.le_add_right _ _)) hf,
    retired]

/-- A load lands once its delay slot has passed: the command of it. -/
theorem exec_loadWriteback {s : State} {rd : BitVec 5} {v : Word} (runs : s.burinRuns = true) (q : s.bu.Quiet)
    (products : s.bu.products = []) (loads : s.bu.loads = [{ rd := rd.toNat, val := v, slotDone := true }]) :
    exec .loadWriteback s = .next { s with bu := { s.bu with ctx := s.bu.ctx.set rd v, loads := [] } } := by
  have settled : s.bu.settle = { s.bu with ctx := s.bu.ctx.set rd v, loads := [] } := by
    simp [Burin.settle, loads, products, landed, BuCtx.landLoads]
  have landed : s.loadLands = (s.modBu (fun b => b.settle)).boundary false := if_pos runs
  refine exec_next (u := s.loadLands) rfl (landed.trans ?_)
  have quiet : (s.modBu (fun b => b.settle)).bu.due false = false :=
    q.due rfl (Nat.le_add_right _ _) (Nat.le_add_right _ _) (Nat.le_add_right _ _)
  rw [State.boundary_notDue quiet, State.modBu, settled]

/-! Stores (R273, R276) -/

/-- Data SRAM is reached by any store, and lies within the first 256 KiB. -/
theorem dataArea_dsram {routine write : Bool} {a n : Nat} (h : dataArea routine true a n = .dsram) :
    dataArea routine write a n = .dsram ∧ a + n ≤ 0x40000 := by
  unfold dataArea at h ⊢
  cases routine with
  | true =>
    by_cases window : 0x34000 ≤ a ∧ a + n ≤ 0x40000
    · exact ⟨if_pos window, window.2⟩
    · simp [window] at h
  | false =>
    by_cases low : a + n ≤ 0x40000
    · exact ⟨if_pos low, low⟩
    · simp only [Bool.false_eq_true, if_false, low] at h
      split at h
      · split at h <;> cases h
      · split at h <;> cases h

theorem BuCtx.storeAt_dsram {c : BuCtx} {v a : Word} {n : Nat} (aligned : a.toNat % n = 0)
    (reach : dataArea (inArea c.pc) true a.toNat n = .dsram) :
    c.storeAt v a n = { ctx := c, stores := [(a.toNat, leBytes n v.toNat)] } := by
  unfold BuCtx.storeAt
  simp only [aligned, (dataArea_dsram reach).1]
  rfl

/-- A command whose meaning is an instruction that stores to data SRAM. -/
theorem exec_stores {s : State} {i : Instr} {op : BuOp} (h : s.Executes) (q : s.burinNow.Quiet)
    (hi : exec i s = .next (s.burinStep op)) {a n : Nat} {v : Word} (inside : a + n ≤ 0x40000) (some : 0 < n)
    (ho : s.burinNow.op op = { ctx := s.burinNow.ctx, stores := [(a, leBytes n v.toNat)] }) (l : Word)
    (hl : BitVec.ofNat 32 op.len = l) : BurinStores s i a (leBytes n v.toNat) l := by
  subst hl
  intro hf
  refine ⟨s.burinNow.dmem.writeBytes a (leBytes n v.toNat), ?_, fun k hk => Memory.read_writeBytes_inside _ _ _ _ hk,
    fun x hx => Memory.read_writeBytes_outside _ _ _ _ hx⟩
  have stored : s.burinNow.store a (leBytes n v.toNat) = { s.burinNow with
      dmem := s.burinNow.dmem.writeBytes a (leBytes n v.toNat),
      undo := (a / 4 * 4, BitVec.ofNat 32 (leNat (s.burinNow.dmem.readBytes (a / 4 * 4) 4))) :: s.burinNow.undo } :=
    if_pos (by omega)
  have retired : s.burinNow.retire op.len { ctx := s.burinNow.ctx, stores := [(a, leBytes n v.toNat)] } =
      { s.burinNow.next s.burinNow.ctx (s.burinNow.ctx.pc + BitVec.ofNat 32 op.len) 1 with
        dmem := s.burinNow.dmem.writeBytes a (leBytes n v.toNat),
        undo := (a / 4 * 4, BitVec.ofNat 32 (leNat (s.burinNow.dmem.readBytes (a / 4 * 4) 4))) :: s.burinNow.undo } := by
    simp only [Burin.retire, Burin.next, List.foldl_cons, List.foldl_nil, stored, List.append_nil, evt_clearNone]
  have quiet : (s.burinNow.retire op.len { ctx := s.burinNow.ctx, stores := [(a, leBytes n v.toNat)] }).due false = false := by
    rw [retired]
    exact q.due rfl (by simp) (Nat.le_add_right _ _) (Nat.le_add_right _ _)
  rw [exec_retires h hi ho rfl rfl rfl quiet hf, retired]

/-! Control flow (R283, R285, R286) -/

/-- A branch and the branch of the opposite condition: the one whose condition holds is taken, the other only passes. -/
theorem exec_branches {s : State} {i j : Instr} {op op' : BuOp} {n : Nat} {imm : BitVec n} {take take' : Bool} {p : Prop}
    [Decidable p] (h : s.Executes) (q : s.burinNow.Quiet) (hi : exec i s = .next (s.burinStep op))
    (hj : exec j s = .next (s.burinStep op')) (ho : s.burinNow.op op = s.burinNow.ctx.branch take imm)
    (ho' : s.burinNow.op op' = s.burinNow.ctx.branch take' imm) (l : Word) (hl : BitVec.ofNat 32 op.len = l)
    (hl' : BitVec.ofNat 32 op'.len = l) (hp : take = true ↔ p) (hp' : take' = true ↔ ¬p)
    (may : s.burinNow.ctx.mayGo (s.burinNow.ctx.pc + 2 * imm.signExtend 32) = true) :
    let t := s.burinNow.ctx.pc + 2 * imm.signExtend 32
    if p then BurinGoes s i (s.burinNow.ctx.arriving t) t l ∧ BurinPasses s j l
    else BurinGoes s j (s.burinNow.ctx.arriving t) t l ∧ BurinPasses s i l := by
  have goes := BuCtx.goto_eq may false
  by_cases holds : p
  · rw [if_pos holds]
    exact ⟨exec_goes h q hi (ho.trans ((if_pos (hp.mpr holds)).trans goes)) l hl,
      exec_plain h q hj (ho'.trans (if_neg (fun t => hp'.mp t holds))) l hl'⟩
  · rw [if_neg holds]
    exact ⟨exec_goes h q hj (ho'.trans ((if_pos (hp'.mpr holds)).trans goes)) l hl',
      exec_plain h q hi (ho.trans (if_neg (fun t => holds (hp.mp t)))) l hl⟩

theorem BuCtx.push_goes {c : BuCtx} {t : Word} (len : Nat) (room : c.stack.length < 64) (may : c.mayGo t = true) :
    c.push len t =
      { ctx := { c.arriving t with stack := (c.pc + BitVec.ofNat 32 len) :: c.stack }, nxt := .goto t, cost := 2 } := by
  rw [BuCtx.push, if_neg (by omega), BuCtx.goto_eq may false]

/-- A return goes wherever the stack says, out of the routine area also (R296). -/
theorem BuCtx.pop_goes {c : BuCtx} {t : Word} {r : List Word} (top : c.stack = t :: r) (even : t.toNat % 2 = 0) :
    c.pop = { ctx := { c.arriving t with stack := r }, nxt := .goto t, cost := 2 } := by
  have goes : c.goto t true = { ctx := c.arriving t, nxt := .goto t, cost := 2 } := by
    rw [BuCtx.goto, if_neg (by omega), if_neg (by simp)]
    rfl
  simp only [BuCtx.pop, top, goes]

theorem Burin.tret_goes {b : Burin} (may : b.ctx.mayGo b.ctx.epc = true) :
    b.op .tret = { ctx := { b.ctx.arriving b.ctx.epc with inTrap := false }, nxt := .goto b.ctx.epc, cost := 2 } := by
  simp only [Burin.op, BuCtx.goto_eq may false]

/-! Products (R282) -/

theorem product_append (signed : Bool) (x y : Word) :
    ((product signed x y).1 ++ (product signed x y).2 : BitVec 64) =
      BitVec.ofInt 64 (if signed then x.toInt * y.toInt else (x.toNat * y.toNat : Nat)) :=
  BitVec.extractLsb'_append_extractLsb' (w := 32) (len := 32)

theorem product_signed (x y : Word) :
    ((product true x y).1 ++ (product true x y).2 : BitVec 64).toInt = x.toInt * y.toInt := by
  have bounds (z : Word) : |z.toInt| ≤ 2 ^ 31 := by
    have := z.isLt
    rw [BitVec.toInt_eq_toNat_cond, abs_le]
    split <;> omega
  have small : |x.toInt * y.toInt| ≤ 2 ^ 31 * 2 ^ 31 := by
    rw [abs_mul]
    exact mul_le_mul (bounds x) (bounds y) (abs_nonneg _) (by decide)
  rw [abs_le] at small
  rw [product_append, if_pos rfl, BitVec.toInt_ofInt]
  exact Int.bmod_eq_of_le (by omega) (by omega)

theorem product_unsigned (x y : Word) :
    ((product false x y).1 ++ (product false x y).2 : BitVec 64).toNat = x.toNat * y.toNat := by
  have small : x.toNat * y.toNat < 2 ^ 32 * 2 ^ 32 := Nat.mul_lt_mul'' x.isLt y.isLt
  rw [product_append, if_neg Bool.false_ne_true, BitVec.ofInt_natCast, BitVec.toNat_ofNat, Nat.mod_eq_of_lt (by omega)]

/-- A command whose meaning is a multiplication: its product is on its way. -/
theorem exec_multiplies {s : State} {i : Instr} {op : BuOp} (h : s.Executes) (q : s.burinNow.Quiet)
    (hi : exec i s = .next (s.burinStep op)) {p : Word × Word}
    (ho : s.burinNow.op op = { ctx := s.burinNow.ctx, prod := some p }) (l : Word) (hl : BitVec.ofNat 32 op.len = l) :
    s.Fetches l → exec i s = .next (s.withBurin { s.burinNow.next s.burinNow.ctx (s.burinNow.ctx.pc + l) 1 with
      products := s.burinNow.products ++ [{ issued := s.burinNow.cycle, hi := p.1, lo := p.2 }] }) := by
  subst hl
  intro hf
  have retired : s.burinNow.retire op.len { ctx := s.burinNow.ctx, prod := some p } =
      { s.burinNow.next s.burinNow.ctx (s.burinNow.ctx.pc + BitVec.ofNat 32 op.len) 1 with
        products := s.burinNow.products ++ [{ issued := s.burinNow.cycle, hi := p.1, lo := p.2 }] } := by
    simp only [Burin.retire, Burin.next, List.foldl_nil, List.append_nil, evt_clearNone]
  rw [exec_retires h hi ho rfl rfl rfl (q.due rfl (Nat.le_add_right _ _) (Nat.le_add_right _ _) (Nat.le_add_right _ _)) hf,
    retired]

/-- A product lands at the end of its cycle t + 3: the command of it. -/
theorem exec_productLands {s : State} {p : Product} (runs : s.burinRuns = true) (q : s.bu.Quiet) (loads : s.bu.loads = [])
    (products : s.bu.products = [p]) :
    exec .productLands s = .next { s with bu := { s.bu with
      ctx := { s.bu.ctx with mhi := p.hi, mlo := p.lo }, products := [], cycle := max s.bu.cycle (p.issued + 4) } } := by
  have settled : ({ s.bu with cycle := max s.bu.cycle (p.issued + 4) } : Burin).settle = { s.bu with
      ctx := { s.bu.ctx with mhi := p.hi, mlo := p.lo }, products := [], cycle := max s.bu.cycle (p.issued + 4) } := by
    simp [Burin.settle, loads, products, landed, BuCtx.landLoads]
  have lands : s.productLands =
      (s.modBu (fun b => ({ b with cycle := max b.cycle (p.issued + 4) } : Burin).settle)).boundary false := by
    simp only [State.productLands, products, runs, if_true]
  refine exec_next (u := s.productLands) rfl (lands.trans ?_)
  have quiet : (s.modBu (fun b => ({ b with cycle := max b.cycle (p.issued + 4) } : Burin).settle)).bu.due false = false :=
    q.due rfl (Nat.le_add_right _ _) (Nat.le_add_right _ _) (Nat.le_add_right _ _)
  rw [State.boundary_notDue quiet, State.modBu, settled]

/-! Special registers (R279) -/

/-- The special registers, by number. -/
def Burin.special (b : Burin) (i : Nat) : Word :=
  match i with
  | 0 => b.ctx.dsp
  | 1 => b.ctx.mlo
  | 2 => b.ctx.mhi
  | 3 => b.ctx.epc
  | 4 => b.ctx.cause.setWidth 32
  | 5 => b.ctx.tvec
  | 6 => BitVec.ofNat 32 (b2n b.ctx.inTrap + 2 * b2n b.ctx.inRoutine)
  | 7 => BitVec.ofNat 32 b.ctx.stack.length
  | 8 => BitVec.ofNat 32 b.cycle
  | 9 => BitVec.ofNat 32 (b.cycle / 2 ^ 32)
  | 10 => b.evt.setWidth 32
  | _ => b.ctx.evtMask.setWidth 32

theorem Burin.readSpecial_firmware {b : Burin} {rd idx : BitVec 5} (area : inArea b.ctx.pc = false) (known : idx.toNat < 12) :
    b.readSpecial rd idx = b.ctx.result rd (b.special idx.toNat) :=
  (if_neg (Nat.not_le.mpr known)).trans (if_neg (by simp [area]))

/-- MFS of firmware reads each special register. -/
theorem exec_mfs {s : State} (h : s.Executes) (q : s.burinNow.Quiet) (area : inArea s.burinNow.ctx.pc = false)
    (rd idx : BitVec 5) (known : idx.toNat < 12) : BurinSets s (.mfs rd idx) rd (s.burinNow.special idx.toNat) 2 :=
  exec_sets (op := .mfs rd idx) h q rfl (Burin.readSpecial_firmware area known) _ rfl rfl

/-- MTS of firmware, past its checks. -/
theorem exec_mts {s : State} (h : s.Executes) (q : s.burinNow.Quiet) {c : BuCtx} (rd idx : BitVec 5)
    (writes : s.burinNow.ctx.writeSpecial rd idx = { ctx := c }) :
    s.Fetches 2 → exec (.mts rd idx) s = .next (s.withBurin (s.burinNow.next c (s.burinNow.ctx.pc + 2) 1)) :=
  exec_plain (op := .mts rd idx) h q rfl writes _ rfl

/-- MTS to EVT clears the events of its ones (R279). -/
theorem exec_mtsEvt {s : State} (h : s.Executes) (q : s.burinNow.Quiet) (area : inArea s.burinNow.ctx.pc = false)
    (rd : BitVec 5) :
    s.Fetches 2 → exec (.mts rd 10) s = .next (s.withBurin { s.burinNow.next s.burinNow.ctx (s.burinNow.ctx.pc + 2) 1 with
      evt := s.burinNow.evt &&& ~~~((s.burinNow.ctx.get rd).setWidth 6) }) := by
  have clears : s.burinNow.ctx.writeSpecial rd 10 =
      { ctx := s.burinNow.ctx, evtClear := (s.burinNow.ctx.get rd).setWidth 6 } := by
    simp [BuCtx.writeSpecial, area]
  have retired : s.burinNow.retire 2 { ctx := s.burinNow.ctx, evtClear := (s.burinNow.ctx.get rd).setWidth 6 } =
      { s.burinNow.next s.burinNow.ctx (s.burinNow.ctx.pc + 2) 1 with
        evt := s.burinNow.evt &&& ~~~((s.burinNow.ctx.get rd).setWidth 6) } := by
    simp only [Burin.retire, Burin.next, List.foldl_nil, List.append_nil]
    rfl
  intro hf
  rw [exec_retires (op := .mts rd 10) h rfl clears rfl rfl rfl
    (q.due rfl (Nat.le_add_right _ _) (Nat.le_add_right _ _) (Nat.le_add_right _ _)) hf]
  exact congrArg (fun b => Host.Outcome.next (s.withBurin b)) retired

end Sys2Proof.Machine

namespace Sys2Proof

open Machine

/-- Settles O5: every load is one of a memory's bytes, extended as the form says; its landing is the settling of what is in
flight. -/
theorem burinLoadForms : Obligations.BurinLoadForms := by
  unfold Obligations.BurinLoadForms
  refine ⟨fun s h q m cost n a area place aligned reach => ⟨?_, ?_⟩, fun s rd v => exec_loadWriteback⟩
  · rintro rd imm rfl rfl
    exact exec_loads (op := .lws rd imm) h q rfl (Burin.loadAt_area place aligned reach) _ rfl rfl
  · rintro rd base imm rfl
    refine ⟨?_, ?_, ?_, ?_, ?_⟩
    · rintro rfl
      exact exec_loads (op := .lw rd base imm) h q rfl (Burin.loadAt_area place aligned reach) _ rfl rfl
    · rintro rfl
      exact exec_loads (op := .lhu rd base imm) h q rfl (Burin.loadAt_area place aligned reach) _ rfl
        (loadValue_unsigned (leNat_readBytes_two _ _))
    · rintro rfl
      exact exec_loads (op := .lh rd base imm) h q rfl (Burin.loadAt_area place aligned reach) _ rfl
        (loadValue_signed (by decide) (leNat_readBytes_two _ _))
    · rintro rfl
      exact exec_loads (op := .lbu rd base imm) h q rfl (Burin.loadAt_area place aligned reach) _ rfl
        (loadValue_unsigned (size := 1) (leNat_readBytes_one _ _))
    · rintro rfl
      exact exec_loads (op := .lb rd base imm) h q rfl (Burin.loadAt_area place aligned reach) _ rfl
        (loadValue_signed (size := 1) (by decide) (leNat_readBytes_one _ _))

/-- Settles O6: every store is one of the source's low bytes in data SRAM. -/
theorem burinStoreForms : Obligations.BurinStoreForms := by
  unfold Obligations.BurinStoreForms
  intro s h q a n aligned reach
  have inside := (dataArea_dsram (write := true) reach).2
  refine ⟨?_, ?_⟩
  · rintro rd imm rfl rfl
    exact exec_stores (op := .sws rd imm) h q rfl inside (by decide) (BuCtx.storeAt_dsram aligned reach) _ rfl
  · rintro rs base imm rfl
    refine ⟨?_, ?_, ?_⟩
    · rintro rfl
      exact exec_stores (op := .sw rs base imm) h q rfl inside (by decide) (BuCtx.storeAt_dsram aligned reach) _ rfl
    · rintro rfl
      exact exec_stores (op := .sh rs base imm) h q rfl inside (by decide) (BuCtx.storeAt_dsram aligned reach) _ rfl
    · rintro rfl
      exact exec_stores (op := .sb rs base imm) h q rfl inside (by decide) (BuCtx.storeAt_dsram aligned reach) _ rfl

/-- Settles O7: each branch with the one of the opposite condition, and jumps, calls and returns by where they go. -/
theorem burinControlFlow : Obligations.BurinControlFlow := by
  unfold Obligations.BurinControlFlow
  refine ⟨fun s h q => ⟨fun rd imm may => ?_, fun ra rb imm may => ⟨?_, ?_, ?_⟩⟩,
    fun s h q => ⟨fun imm may => ?_, fun imm may => ⟨?_, ?_⟩, fun rb may => ⟨?_, ?_⟩, fun t r top even => ?_, fun may => ?_⟩⟩
  · exact exec_branches h q rfl rfl rfl rfl _ rfl rfl (by simp) (by simp) may
  · exact exec_branches h q rfl rfl rfl rfl _ rfl rfl (by simp) (by simp) may
  · exact exec_branches h q rfl rfl rfl rfl _ rfl rfl (by simp [BitVec.slt]) (by simp [BitVec.slt]) may
  · exact exec_branches h q rfl rfl rfl rfl _ rfl rfl (by simp [BitVec.ult]) (by simp [BitVec.ult]) may
  · exact exec_goes (op := .jump (.short imm)) h q rfl (BuCtx.goto_eq may false) _ rfl
  · exact exec_goes (op := .jump (.long imm)) h q rfl (BuCtx.goto_eq may false) _ rfl
  · exact fun room => exec_goes (op := .call imm) h q rfl (BuCtx.push_goes 4 room may) _ rfl
  · exact exec_goes (op := .jr rb) h q rfl (BuCtx.goto_eq may false) _ rfl
  · exact fun room => exec_goes (op := .callr rb) h q rfl (BuCtx.push_goes 2 room may) _ rfl
  · exact exec_goes (op := .ret) h q rfl (BuCtx.pop_goes top even) _ rfl
  · exact exec_goes (op := .tret) h q rfl (Burin.tret_goes may) _ rfl

/-- Settles O8: the product's two words make up a word that holds it, and special registers by their number. -/
theorem burinMultiplyAndSpecials : Obligations.BurinMultiplyAndSpecials := by
  unfold Obligations.BurinMultiplyAndSpecials
  refine ⟨⟨fun s h q i x y len signed forms hf => ?products, fun s p => exec_productLands⟩,
    fun s h q => ⟨fun area rd => ?specials, fun imm => ?_, fun imm => ?_, ?_⟩⟩
  case products =>
    rcases forms with ⟨rd, rb, rfl, rfl, rfl, rfl, rfl⟩ | ⟨ra, rb, rfl, rfl, rfl, rfl, rfl⟩ |
      ⟨rd, rb, rfl, rfl, rfl, rfl, rfl⟩ |
      ⟨ra, rb, rfl, rfl, rfl, rfl, rfl⟩
    · exact ⟨_, _, exec_multiplies h q rfl rfl _ rfl hf, product_signed _ _⟩
    · exact ⟨_, _, exec_multiplies h q rfl rfl _ rfl hf, product_signed _ _⟩
    · exact ⟨_, _, exec_multiplies h q rfl rfl _ rfl hf, product_unsigned _ _⟩
    · exact ⟨_, _, exec_multiplies h q rfl rfl _ rfl hf, product_unsigned _ _⟩
  case specials =>
    have mfs (idx : BitVec 5) (known : idx.toNat < 12) := exec_mfs h q area rd idx known
    refine ⟨mfs 0 (by decide), mfs 1 (by decide), mfs 2 (by decide), mfs 3 (by decide), mfs 4 (by decide),
      mfs 5 (by decide), mfs 6 (by decide), mfs 7 (by decide), mfs 8 (by decide), mfs 9 (by decide), mfs 10 (by decide),
      mfs 11 (by decide), ?_, ?_, ?_, ?_, ?_, ?_, exec_mtsEvt h q area rd, ?readOnly⟩
    case readOnly =>
      rintro idx (rfl | rfl | rfl | rfl | rfl)
      all_goals exact exec_mts h q rd _ (by simp [BuCtx.writeSpecial, area])
    all_goals exact exec_mts h q rd _ (by simp [BuCtx.writeSpecial, area])
  · exact exec_plain (op := .adj imm) h q rfl rfl _ rfl
  · exact exec_plain (op := .adjl imm) h q rfl rfl _ rfl
  · exact exec_plain (op := .nop) h q rfl rfl _ rfl

end Sys2Proof
end

section
/-! SUPPORT. Burin's traps, commit points, rollback, etched instruction and register window (11_burin.md R273–R278, R280, R285,
R290–R292), and the statements about them. -/

namespace Sys2Proof

/-- The first entry of a number after one of number `k` is put in. -/
theorem Tab.find?_insert {α : Type} (t : Tab α) (k j : Nat) (v : α) :
    (Tab.insert t k v).find? (fun p => p.1 == j) = if j = k then some (k, v) else t.find? (fun p => p.1 == j) := by
  induction t with
  | nil =>
    by_cases h : j = k
    · simp [Tab.insert, h]
    · simp [Tab.insert, h, Ne.symm h]
  | cons p r ih =>
    obtain ⟨i, u⟩ := p
    unfold Tab.insert
    split
    · by_cases h : j = k
      · simp [h]
      · simp [h, Ne.symm h]
    · split
      · rename_i same
        by_cases hj : j = k
        · simp [hj]
        · simp [same, hj, Ne.symm hj]
      · rename_i h
        by_cases hi : i = j
        · simp [hi, show j ≠ k by omega]
        · simp [hi, ih]

end Sys2Proof

namespace Sys2Proof.Machine

/-! Traps (R285, R333) -/

/-- The message of a trap of cause `n` at `pc`: a trap of the fetch itself carries its access (R333). -/
def State.trapMessage (s : State) (fetch : Bool) (k n : Nat) (pc : Word) : State :=
  if fetch then s.raiseFetch 0x003 k (formB pc.toNat n) burinId pc else s.raise 0x003 k (formB pc.toNat n)

@[simp] theorem State.trapMessage_bu (s : State) (fetch : Bool) (k n : Nat) (pc : Word) :
    (s.trapMessage fetch k n pc).bu = s.bu := by
  cases fetch <;> rfl

theorem Burin.takeTrap_first {b : Burin} (n : Nat) (loads : b.loads = []) (first : b.ctx.inTrap = false) :
    b.takeTrap n = b.trapped n := by
  simp [Burin.takeTrap, Burin.trapped, loads, BuCtx.landLoads, first]

theorem Burin.takeTrap_second {b : Burin} (n : Nat) (loads : b.loads = []) (second : b.ctx.inTrap = true) :
    b.takeTrap n = { b with state := .halted } := by
  simp [Burin.takeTrap, loads, BuCtx.landLoads, second]

/-- A trap while INTRAP is 0. -/
theorem State.buTraps_first {s : State} {n : Nat} {fetch : Bool} (q : s.bu.Quiet) (loads : s.bu.loads = [])
    (first : s.bu.ctx.inTrap = false) :
    let routine := inArea s.bu.ctx.pc || s.bu.ctx.inRoutine
    let u := ({ s with bu := s.bu.trapped n } : State).trapMessage fetch (if routine then 0x35 else 0x34) n s.bu.ctx.pc
    s.buTraps n fetch = if routine then u.routineEnds n else u := by
  extract_lets routine u
  have quiet : u.bu.due false = false := by
    rw [State.trapMessage_bu]
    exact q.due rfl (Nat.le_add_right _ _) (Nat.le_add_right _ _) (Nat.le_add_right _ _)
  have said : s.buTraps n fetch = if routine then (u.boundary false).routineEnds n else u.boundary false := by
    unfold State.buTraps
    simp only [first, State.modBu, Burin.takeTrap_first n loads first]
    rfl
  rw [said, State.boundary_notDue quiet]

/-- A trap while INTRAP is 1 halts Burin. -/
theorem State.buTraps_second {s : State} {n : Nat} {fetch : Bool} (loads : s.bu.loads = []) (second : s.bu.ctx.inTrap = true) :
    let routine := inArea s.bu.ctx.pc || s.bu.ctx.inRoutine
    let u := s.burinHalts.trapMessage fetch 0x37 n s.bu.ctx.pc
    s.buTraps n fetch = if routine then u.routineEnds n else u := by
  unfold State.buTraps
  simp only [second, if_true, State.modBu, Burin.takeTrap_second n loads second]
  rfl

/-- An instruction that traps by what it is. -/
theorem State.burinStep_traps {s : State} {op : BuOp} {n : Nat} (h : s.Executes)
    (hf : fetches s.burinNow.ctx.pc op.len = true) (ho : s.burinNow.op op = s.burinNow.ctx.trap n) :
    s.burinStep op = ({ s with bu := s.burinNow } : State).buTraps n := by
  have h' : s.rolledBack.burinRuns = true := h
  unfold State.burinStep
  simp only [h', Bool.not_true, Bool.false_eq_true, if_false, State.burinNow_eq, hf, ho]
  rfl

/-- An instruction of which a halfword lies where nothing is fetched from. -/
theorem State.burinStep_fetchTraps {s : State} {op : BuOp} (h : s.Executes)
    (hf : fetches s.burinNow.ctx.pc op.len = false) :
    s.burinStep op = ({ s with bu := s.burinNow } : State).buTraps 3 true := by
  have h' : s.rolledBack.burinRuns = true := h
  unfold State.burinStep
  simp only [h', Bool.not_true, Bool.false_eq_true, if_false, State.burinNow_eq, hf]
  rfl

/-- A reserved encoding. -/
theorem State.burinIllegal_traps {s : State} {h0 h1 : BitVec 16} (h : s.Executes) (reserved : decodeBu h0 h1 = none)
    (hf : fetches s.burinNow.ctx.pc (buLen h0) = true) :
    s.burinIllegal h0 h1 = ({ s with bu := s.burinNow } : State).buTraps 1 := by
  have h' : s.rolledBack.burinRuns = true := h
  unfold State.burinIllegal
  simp only [h', reserved, Option.isNone_none, Bool.and_true, if_true, State.burinNow_eq, hf]

theorem State.tag?_setTag (s : State) (t n : Nat) (e : TagEnt) :
    (s.setTag t e).tag? n = if n = t then some e else s.tag? n := by
  have tags : (s.setTag t e).sq.tags = s.sq.tags.insert t e := rfl
  unfold State.tag?
  rw [tags, Tab.find?_insert]
  by_cases h : n = t
  · simp [h]
  · simp only [if_neg h]

@[simp] theorem State.tag?_setTag_same (s : State) (t : Nat) (e : TagEnt) : (s.setTag t e).tag? t = some e := by
  rw [State.tag?_setTag, if_pos rfl]

/-! Commit points (R275, R276, R280) -/

theorem Burin.settle_idle {b : Burin} (loads : b.loads = []) (products : b.products = []) : b.settle = b := by
  cases b
  cases loads
  cases products
  rfl

theorem Burin.stall_idle {b : Burin} (loads : b.loads = []) (products : b.products = []) : b.stall = b := by
  have same : ({ b with cycle := b.products.foldl (fun m q => max m (q.issued + 4)) b.cycle } : Burin) = b := by
    cases b
    cases products
    rfl
  rw [Burin.stall, same, Burin.settle_idle loads products]

/-- Burin as a commit point leaves it, nothing being in flight. -/
def Burin.committed (b : Burin) : Burin :=
  { b with
    saved := b.ctx, savedEvt := b.evt, evtNew := 0, savedLow := b.lowHalf, savedHalf := b.loadHalf, outb := [], undo := [],
    readLog := [], mismatched := false, commitDue := false, cycle := b.cycle + 2 }

theorem State.commit_idle {s : State} (loads : s.bu.loads = []) (products : s.bu.products = []) :
    s.commit = s.bu.outb.foldl (fun s w => s.releaseWrite w) (s.modBu Burin.committed) := by
  unfold State.commit
  rw [Burin.settle_idle loads products]
  rfl

/-- WFE's commit point, where nothing is in flight and nothing waits to go out. -/
theorem State.stall_commit_idle {s : State} (loads : s.bu.loads = []) (products : s.bu.products = []) (empty : s.bu.outb = []) :
    (s.modBu (fun b => b.stall)).commit = s.modBu Burin.committed := by
  have stalled : s.modBu (fun b => b.stall) = s := by rw [State.modBu, Burin.stall_idle loads products]
  rw [stalled, State.commit_idle loads products, empty]
  rfl

/-- Burin waits in WFE where no event that it masks in stands. -/
theorem State.commit_waits (t : State) :
    (t.modBu Burin.committed).modBu (fun b => { b with waiting := !b.woken }) =
      { t with bu := { t.bu.committed with waiting := decide (t.bu.evt &&& t.bu.ctx.evtMask = 0) } } := by
  have stays : (!t.bu.committed.woken) = decide (t.bu.evt &&& t.bu.ctx.evtMask = 0) := by
    show (!decide (t.bu.evt &&& t.bu.ctx.evtMask ≠ 0)) = _
    by_cases h : t.bu.evt &&& t.bu.ctx.evtMask = 0 <;> simp [h]
  rw [← stays]
  rfl

/-- A commit point that is asked for where nothing is in flight is taken at once. -/
theorem State.boundary_asked {s : State} (loads : s.bu.loads = []) (products : s.bu.products = []) :
    s.boundary true = s.bu.outb.foldl (fun s w => s.releaseWrite w) (s.modBu Burin.committed) := by
  have may : s.bu.mayCommit = true := by simp [Burin.mayCommit, loads, products]
  have due : s.bu.due true = true := rfl
  rw [State.boundary, due, Bool.not_true, if_neg Bool.false_ne_true, if_pos may, State.commit_idle loads products]

/-- COMMIT and WFE retire like the NOP, before their commit point. -/
theorem State.burinStep_asks {s : State} {op : BuOp} {wfe : Bool} (h : s.Executes) (hf : fetches s.burinNow.ctx.pc op.len = true)
    (ho : s.burinNow.op op = { ctx := s.burinNow.ctx, isWfe := wfe, isCommit := true }) {t : State}
    (ht : s.withBurin (s.burinNow.next s.burinNow.ctx (s.burinNow.ctx.pc + BitVec.ofNat 32 op.len) 1) = t) :
    (wfe = false → s.burinStep op = t.boundary true) ∧
    (wfe = true → s.burinStep op =
      (t.modBu (fun b => b.stall)).commit.modBu (fun b => { b with waiting := !b.woken })) := by
  have h' : s.rolledBack.burinRuns = true := h
  have retired : s.burinNow.retire op.len { ctx := s.burinNow.ctx, isWfe := wfe, isCommit := true } =
      s.burinNow.next s.burinNow.ctx (s.burinNow.ctx.pc + BitVec.ofNat 32 op.len) 1 := by
    simp only [Burin.retire, Burin.next, List.foldl_nil, List.append_nil, evt_clearNone]
  have step : s.burinStep op =
      if wfe then (t.modBu (fun b => b.stall)).commit.modBu (fun b => { b with waiting := !b.woken }) else t.boundary true := by
    subst ht
    unfold State.burinStep
    simp only [h', Bool.not_true, Bool.false_eq_true, if_false, State.burinNow_eq, hf, ho, State.retireOut]
    simp only [State.modBu, retired]
    rfl
  exact ⟨fun no => step.trans (if_neg (ne_true_of_eq_false no)), fun yes => step.trans (if_pos yes)⟩

theorem State.burinRuns_iff {s : State} :
    s.burinRuns = true ↔ s.bu.state = .run ∧ s.bu.waiting = false ∧ s.fc.halted = false := by
  simp [State.burinRuns, and_assoc]

/-- Burin in RUN is in no rollback. -/
theorem State.rolledBack_run {s : State} (h : s.bu.state = .run) : s.rolledBack = s :=
  if_neg (by simp [h])

/-! Rollback (R277, R278) -/

/-- An armed injection that is used up changes the collector only. -/
theorem State.armedCheck_eq (s : State) (n k : Nat) : s.armedCheck n k = { s with fc := (s.armedCheck n k).fc } := by
  unfold State.armedCheck
  split <;> rfl

/-- Burin as its first mismatch since a commit point leaves it. -/
def Burin.toCommitPoint (b : Burin) : Burin :=
  { b with
    state := .rollback, ctx := b.saved, evt := b.savedEvt ||| b.evtNew, loads := [], products := [], outb := [], undo := [],
    lowHalf := b.savedLow, loadHalf := b.savedHalf, replay := b.readLog ++ b.replay, readLog := [], mismatched := true,
    commitDue := false, rollbacks := satAdd b.rollbacks 1,
    dmem := b.undo.foldl (fun m p => m.writeBytes p.1 (leBytes 4 p.2.toNat)) b.dmem }

/-- The link that Burin works on is marked REPLAYED. -/
def State.replayLink (s : State) : State :=
  match (s.unit 0x003).busy with
  | some t =>
    match s.tag? t with
    | some e => s.setTag t { e with replayed := true }
    | none => s
  | none => s

theorem State.replayLink_eq (s : State) : s.replayLink = { s with sq := s.replayLink.sq } := by
  unfold State.replayLink
  split
  · split <;> rfl
  · rfl

theorem State.replayLink_tag {s : State} {n : Nat} {e : TagEnt} (busy : (s.unit 0x003).busy = some n)
    (held : s.tag? n = some e) : s.replayLink.tag? n = some { e with replayed := true } := by
  simp [State.replayLink, busy, held]

/-- The first mismatch since a commit point. -/
theorem State.lockstepMismatch_first {s : State} (run : s.bu.state = .run) (halted : s.fc.halted = false)
    (first : s.bu.mismatched = false) :
    s.lockstepMismatch =
      (((s.armedCheck 0x003 0x30).modBu Burin.toCommitPoint).replayLink).raise 0x003 0x30
        (formB s.bu.ctx.pc.toNat s.bu.ctx.cause.toNat) := by
  unfold State.lockstepMismatch
  rw [if_neg (by simp [run, halted]), if_neg (by simp [first]), State.armedCheck_eq]
  rfl

/-- A second mismatch before a new commit point. -/
theorem State.lockstepMismatch_second {s : State} (run : s.bu.state = .run) (halted : s.fc.halted = false)
    (second : s.bu.mismatched = true) : s.lockstepMismatch = (s.armedCheck 0x003 0x30).secondMismatch := by
  unfold State.lockstepMismatch
  rw [if_neg (by simp [run, halted]), if_pos second]

/-! ETCH (R290–R292) -/

/-- An entry whose first word is a one-cycle operation of ra and rb into rd that ends there. -/
theorem Burin.etchOp_oneWord {b : Burin} {rd ra rb : BitVec 5} {index : BitVec 6} {v : Word} {w : BitVec 64}
    (closed : b.etch.isOpen = false) (valid : bit (b.etch.entries.get 0 index.toNat) 12 = true)
    (word : b.etch.words.get 0 (fld (b.etch.entries.get 0 index.toNat) 0 12).toNat = w)
    (last : bit w 45 = true) (dst : fld w 54 4 = 0) (srcA : fld w 50 4 = 1) (srcB : fld w 46 4 = 2)
    (value : etchValue (fld w 58 6).toNat (b.ctx.get ra) (b.ctx.get rb) = some v) :
    b.etchOp rd ra rb index = { ctx := b.ctx.set rd v, cost := 2 } := by
  have start : (fld (b.etch.entries.get 0 index.toNat) 0 12).toNat < 4096 := BitVec.isLt _
  have run (limit n : Nat) : etchLoop b (b.ctx.get rd) (b.ctx.get ra) (b.ctx.get rb) (limit + 1) (n + 1)
      (fld (b.etch.entries.get 0 index.toNat) 0 12).toNat {} = .ok { rd := some v, words := 1, cycles := 1 } := by
    unfold etchLoop
    rw [if_neg (by simp only [not_or]; omega)]
    simp only [word, dst, srcA, srcB, last]
    have value' : etchValue (fld w 58 6).toNat (etchSrc b (b.ctx.get rd) (b.ctx.get ra) (b.ctx.get rb) (loHalf w) {} 1)
      (etchSrc b (b.ctx.get rd) (b.ctx.get ra) (b.ctx.get rb) (loHalf w) {} 2) = some v := value
    simp [etchSrc, value, EtchRun.put]
  unfold Burin.etchOp
  simp only [closed, valid, run]
  rfl

/-- An entry that is not valid, or an etch state that is open. -/
theorem Burin.etchOp_invalid {b : Burin} (rd ra rb : BitVec 5) {index : BitVec 6}
    (invalid : b.etch.isOpen = true ∨ bit (b.etch.entries.get 0 index.toNat) 12 = false) :
    b.etchOp rd ra rb index = b.ctx.trap 6 :=
  if_pos (by simpa using invalid)

/-! The register window (R273, R274, R276, R277) -/

/-- Firmware reaches the register window by aligned words there. -/
theorem dataArea_window {write : Bool} {off : Nat} (inside : off < 0x1400000) (aligned : off % 4 = 0) :
    dataArea false write (0x10000000 + off) 4 = .window := by
  unfold dataArea
  rw [if_neg Bool.false_ne_true, if_neg (by omega), if_neg (by omega), if_pos (by omega)]

theorem BuCtx.storeAt_window {c : BuCtx} {v a : Word} {off : Nat} (area : inArea c.pc = false)
    (place : a.toNat = 0x10000000 + off) (inside : off < 0x1400000) (aligned : off % 4 = 0) :
    c.storeAt v a 4 = { ctx := c, win := some (.store off v) } := by
  unfold BuCtx.storeAt
  rw [place, area, if_neg (by omega), dataArea_window inside aligned]
  simp only [Nat.add_sub_cancel_left]

theorem Burin.loadAt_window {b : Burin} {rd : BitVec 5} {a : Word} {off : Nat} (area : inArea b.ctx.pc = false)
    (place : a.toNat = 0x10000000 + off) (inside : off < 0x1400000) (aligned : off % 4 = 0) :
    b.loadAt rd a 4 false = { ctx := b.ctx, win := some (.load rd off) } := by
  have fits : ¬(0x10000000 + off) % 4 ≠ 0 := by omega
  unfold Burin.loadAt
  simp only [place, area, if_neg fits, dataArea_window inside aligned, Nat.add_sub_cancel_left]

/-- An instruction that goes on at the next one, and asks for no commit point, only retires. -/
theorem State.retireOut_plain {s : State} {len : Nat} {o : BuOut} (seq : o.nxt = .seq) (wfe : o.isWfe = false)
    (due : (s.bu.retire len o).due o.isCommit = false) : s.retireOut len o = (s.modBu (fun b => b.retire len o)).evtSync := by
  unfold State.retireOut
  simp only [seq, wfe, Bool.false_eq_true, if_false]
  exact State.boundary_notDue due

/-- A store to a register that is one word by itself waits in the outbound buffer. -/
theorem Burin.viewStore_single {b : Burin} {off : Nat} (v : Word) (narrow : wide64 (off / 8 * 8) = false) :
    b.viewStore off v = { b with outb := b.outb ++ [(off, v.setWidth 64, false)] } := by
  unfold Burin.viewStore
  simp only [narrow, Bool.not_false, if_true]

/-- The upper word of a 64-bit register joins the lower word that waits for it. -/
theorem Burin.viewStore_pair {b : Burin} {off : Nat} (v : Word) {x : Word} (wide : wide64 (off / 8 * 8) = true)
    (upper : off % 8 = 4) (low : b.lowHalf = some (off - 4, x)) :
    b.viewStore off v = { b with lowHalf := none, outb := b.outb ++ [(off - 4, v ++ x, true)] } := by
  have base : off - 4 = off / 8 * 8 := by omega
  unfold Burin.viewStore
  simp only [wide, Bool.not_true, Bool.false_eq_true, if_false, show ¬off % 8 = 0 by omega, low, base, if_true]
  rfl

/-- A store to the window, by what the outbound buffer makes of it. -/
theorem exec_viewStore {s : State} {r base : BitVec 5} {imm : BitVec 14} {off : Nat} (h : s.Executes) (hf : s.Fetches 4)
    (q : s.burinNow.Quiet) (area : inArea s.burinNow.ctx.pc = false)
    (place : (s.burinNow.ctx.base base + imm.signExtend 32).toNat = 0x10000000 + off) (inside : off < 0x1400000)
    (aligned : off % 4 = 0) {low : Option (Nat × Word)} {w : Nat × DWord × Bool}
    (stored : s.burinNow.viewStore off (s.burinNow.ctx.get r) =
      { s.burinNow with lowHalf := low, outb := s.burinNow.outb ++ [w] }) :
    exec (.sw r base imm) s = .next (s.withBurin { s.burinNow.next s.burinNow.ctx (s.burinNow.ctx.pc + 4) 1 with
      lowHalf := low, outb := s.burinNow.outb ++ [w] }) := by
  have op : s.burinNow.op (.sw r base imm) = { ctx := s.burinNow.ctx, win := some (.store off (s.burinNow.ctx.get r)) } :=
    BuCtx.storeAt_window area place inside aligned
  have h' : s.rolledBack.burinRuns = true := h
  have hf' : fetches s.burinNow.ctx.pc (BuOp.len (.sw r base imm)) = true := hf
  have viewed : s.burinStep (.sw r base imm) =
      ({ s with bu := { s.burinNow with lowHalf := low, outb := s.burinNow.outb ++ [w] } } : State).retireOut 4
        { ctx := s.burinNow.ctx, win := some (.store off (s.burinNow.ctx.get r)) } := by
    unfold State.burinStep
    simp only [h', Bool.not_true, Bool.false_eq_true, if_false, State.burinNow_eq, hf', op]
    rw [State.modBu, stored]
    rfl
  have retired : ({ s.burinNow with lowHalf := low, outb := s.burinNow.outb ++ [w] } : Burin).retire 4
      { ctx := s.burinNow.ctx, win := some (.store off (s.burinNow.ctx.get r)) } =
      { s.burinNow.next s.burinNow.ctx (s.burinNow.ctx.pc + 4) 1 with lowHalf := low, outb := s.burinNow.outb ++ [w] } := by
    simp only [Burin.retire, Burin.next, List.foldl_nil, List.append_nil, evt_clearNone]
    rfl
  have quiet : ({ s.burinNow.next s.burinNow.ctx (s.burinNow.ctx.pc + 4) 1 with
      lowHalf := low, outb := s.burinNow.outb ++ [w] } : Burin).due false = false :=
    q.due rfl (Nat.le_add_right _ _) (by simp) (Nat.le_add_right _ _)
  refine exec_next rfl (viewed.trans ((State.retireOut_plain rfl rfl ?_).trans ?_))
  · exact (congrArg (Burin.due · false) retired).trans quiet
  · rw [State.modBu, retired]
    rfl

/-- A load from the window in a re-execution, with nothing in the outbound buffer: the logged load that is next decides. -/
theorem State.execLoad_replay {s : State} {rd : BitVec 5} {off len : Nat} {o : BuOut} (empty : s.bu.outb = []) {a : Nat}
    {v : Word} {held : Option (Nat × Word)} {rest : List (Nat × Word × Option (Nat × Word))}
    (log : s.bu.replay = (a, v, held) :: rest) :
    s.execLoad rd off len o =
      if a = off then
        (s.modBu (fun b => { b with replay := rest, loadHalf := held, readLog := b.readLog ++ [(off, v, held)] })).retireOut len
          { o with ctx := s.bu.ctx, load := some (rd.toNat, v) }
      else s.secondMismatch := by
  unfold State.execLoad
  simp only [empty, List.isEmpty_nil, if_true, log]
  rfl

/-- A command that loads from the window. -/
theorem exec_viewLoad {s : State} {r base : BitVec 5} {imm : BitVec 14} {off : Nat} (h : s.Executes)
    (hf : s.Fetches 4) (area : inArea s.burinNow.ctx.pc = false)
    (place : (s.burinNow.ctx.base base + imm.signExtend 32).toNat = 0x10000000 + off) (inside : off < 0x1400000)
    (aligned : off % 4 = 0) :
    exec (.lw r base imm) s = .next (({ s with bu := s.burinNow } : State).execLoad r off 4 {
      ctx := s.burinNow.ctx, win := some (.load r off) }) := by
  have op : s.burinNow.op (.lw r base imm) = { ctx := s.burinNow.ctx, win := some (.load r off) } :=
    Burin.loadAt_window area place inside aligned
  have h' : s.rolledBack.burinRuns = true := h
  have hf' : fetches s.burinNow.ctx.pc (BuOp.len (.lw r base imm)) = true := hf
  refine exec_next (u := s.burinStep (.lw r base imm)) rfl ?_
  unfold State.burinStep
  simp only [h', Bool.not_true, Bool.false_eq_true, if_false, State.burinNow_eq, hf', op]
  rfl

/-- The logged value is on its way to the register, and enters the read log again. -/
theorem State.execLoad_logged {s : State} {rd : BitVec 5} {off : Nat} {win : Option WinReq} (q : s.bu.Quiet)
    (empty : s.bu.outb = []) {v : Word} {held : Option (Nat × Word)} {rest : List (Nat × Word × Option (Nat × Word))}
    (log : s.bu.replay = (off, v, held) :: rest) :
    s.execLoad rd off 4 { ctx := s.bu.ctx, win := win } =
      s.withBurin { s.bu.next s.bu.ctx (s.bu.ctx.pc + 4) 1 with
        loads := s.bu.loads.map (fun l => { l with slotDone := true }) ++ [{ rd := rd.toNat, val := v }],
        replay := rest, loadHalf := held, readLog := s.bu.readLog ++ [(off, v, held)] } := by
  have retired : ({ s.bu with replay := rest, loadHalf := held, readLog := s.bu.readLog ++ [(off, v, held)] } : Burin).retire 4
      { ctx := s.bu.ctx, win := win, load := some (rd.toNat, v) } =
      { s.bu.next s.bu.ctx (s.bu.ctx.pc + 4) 1 with
        loads := s.bu.loads.map (fun l => { l with slotDone := true }) ++ [{ rd := rd.toNat, val := v }],
        replay := rest, loadHalf := held, readLog := s.bu.readLog ++ [(off, v, held)] } := by
    simp only [Burin.retire, Burin.next, List.foldl_nil, evt_clearNone]
    rfl
  have quiet : ({ s.bu.next s.bu.ctx (s.bu.ctx.pc + 4) 1 with
        loads := s.bu.loads.map (fun l => { l with slotDone := true }) ++ [{ rd := rd.toNat, val := v }],
        replay := rest, loadHalf := held, readLog := s.bu.readLog ++ [(off, v, held)] } : Burin).due false = false :=
    q.due rfl (Nat.le_add_right _ _) (Nat.le_add_right _ _) (by simp)
  refine (State.execLoad_replay empty log).trans ((if_pos rfl).trans ((State.retireOut_plain rfl rfl ?_).trans ?_))
  · exact (congrArg (Burin.due · false) retired).trans quiet
  · rw [State.modBu, State.modBu, retired]
    rfl

end Sys2Proof.Machine

namespace Sys2Proof

open Machine

/-- Settles O9: what traps takes Burin's trap; a first trap goes on at TVEC, one while INTRAP is 1 halts Burin. -/
theorem burinTraps : Obligations.BurinTraps := by
  unfold Obligations.BurinTraps
  intro s h q i n len fetch form
  have traps : exec i s = .next (({ s with bu := s.burinNow } : State).buTraps n fetch) := by
    rcases form with ⟨⟨rfl, rfl, rfl⟩ | ⟨h0, h1, rfl, reserved, rfl, rfl⟩, hf, rfl⟩ |
      ⟨⟨rfl, rfl⟩ | ⟨rd, imm, rfl, rfl⟩, hf, rfl, rfl⟩
    · exact exec_next rfl (State.burinStep_traps (op := .brk) h hf rfl)
    · exact exec_next rfl (State.burinIllegal_traps h reserved hf)
    · exact exec_next rfl (State.burinStep_fetchTraps (op := .brk) h hf)
    · exact exec_next rfl (State.burinStep_fetchTraps (op := .lui rd imm) h hf)
  exact ⟨fun loads first => exec_next traps (State.buTraps_first q loads first),
    fun loads second => exec_next traps (State.buTraps_second loads second)⟩

/-- Settles O10: where nothing is in flight, a commit point that is asked for is taken at once. -/
theorem burinCommitPoints : Obligations.BurinCommitPoints := by
  unfold Obligations.BurinCommitPoints
  intro s
  refine ⟨?commits, ?timer, ?wakes⟩
  case commits =>
    intro h hf q loads products b saved
    have inFlight : (s.withBurin b).bu.loads = [] := congrArg (List.map _) loads
    have now : (s.withBurin b).modBu Burin.committed = { s with bu := saved (s.withBurin b).bu } := rfl
    constructor
    · have step := (State.burinStep_asks (op := .commit) h hf rfl (t := s.withBurin b) rfl).1 rfl
      rw [State.boundary_asked inFlight products, now] at step
      exact exec_next rfl step
    · intro empty
      have step := (State.burinStep_asks (op := .wfe) h hf rfl (t := s.withBurin b) rfl).2 rfl
      rw [State.stall_commit_idle inFlight products empty, State.commit_waits] at step
      exact exec_next rfl step
  case timer =>
    intro runs loads products empty
    have run := (State.burinRuns_iff.mp runs).1
    refine exec_next (u := s.commitTimer) rfl ?_
    rw [State.commitTimer, State.rolledBack_run run, if_pos runs, State.boundary_asked loads products, empty]
    rfl
  case wakes =>
    intro run waiting halted event
    refine exec_next (u := s.wfeWake) rfl ?_
    rw [State.wfeWake, State.rolledBack_run run]
    have woken : s.evtSync.bu.woken = true := decide_eq_true event
    simp only [run, waiting, halted, woken, decide_true, Bool.not_false, Bool.and_true, if_true]
    rfl

/-- Settles O11: a first mismatch goes back to the commit point, a second one halts Burin; the rest of the block is as it
was. -/
theorem burinLockstep : Obligations.BurinLockstep := by
  unfold Obligations.BurinLockstep
  intro s run halted
  refine ⟨fun first => ⟨_, exec_next rfl (State.lockstepMismatch_first run halted first), ?_⟩,
    fun second => ⟨_, exec_next rfl (State.lockstepMismatch_second run halted second), ?_⟩⟩
  · refine ⟨?_, ?_, ?_, ?_, ?_, ?_, ?_, ?_, fun n e busy held => ?link, ?_, ?_, ?_, ?_, ?_, ?_⟩
    case link =>
      rw [State.armedCheck_eq]
      exact State.replayLink_tag busy held
    all_goals
      rw [State.replayLink_eq, State.armedCheck_eq]
      rfl
  · rw [State.armedCheck_eq]
    exact ⟨rfl, rfl, rfl, rfl, rfl, rfl⟩

/-- Settles O12: an entry of one word ends after it, and one that is not valid traps. -/
theorem burinEtched : Obligations.BurinEtched := by
  unfold Obligations.BurinEtched
  rintro s h hf q rd ra rb index e w rfl
  refine ⟨fun closed valid word last dst srcA srcB v value => ?_, fun invalid loads first => ?_⟩
  · have op := Burin.etchOp_oneWord (rd := rd) closed valid word last dst srcA srcB value
    have retired : s.burinNow.retire 4 { ctx := s.burinNow.ctx.set rd v, cost := 2 } =
        s.burinNow.next (s.burinNow.ctx.set rd v) (s.burinNow.ctx.pc + 4) 2 := by
      simp only [Burin.retire, Burin.next, List.foldl_nil, List.append_nil, evt_clearNone]
      rfl
    rw [exec_retires (op := .etch rd ra rb index) h rfl op rfl rfl rfl
      (q.due rfl (Nat.le_add_right _ _) (Nat.le_add_right _ _) (Nat.le_add_right _ _)) hf]
    exact congrArg (fun b => Host.Outcome.next (s.withBurin b)) retired
  · exact exec_next rfl ((State.burinStep_traps (op := .etch rd ra rb index) h hf (Burin.etchOp_invalid rd ra rb invalid)).trans
      (State.buTraps_first q loads first))

/-- Settles O13: a store by what the outbound buffer makes of it, a load in a re-execution by the logged load that is next. -/
theorem burinWindow : Obligations.BurinWindow := by
  unfold Obligations.BurinWindow
  intro s h hf q area r base imm off place inside aligned
  have loads := exec_viewLoad (r := r) h hf area place inside aligned
  refine ⟨fun narrow => ?_, fun x wide upper low => ?_, fun v held rest empty log => ?_, fun a v held rest empty log other => ?_⟩
  · exact exec_viewStore h hf q area place inside aligned (Burin.viewStore_single _ narrow)
  · exact exec_viewStore h hf q area place inside aligned (Burin.viewStore_pair _ wide upper low)
  · exact exec_next loads (State.execLoad_logged (s := { s with bu := s.burinNow }) q empty log)
  · exact ⟨_, exec_next loads ((State.execLoad_replay (s := { s with bu := s.burinNow }) empty log).trans (if_neg other)),
      rfl⟩

end Sys2Proof
end

section
/-! SUPPORT. The start and the end of a link: its checks in the order of R84 and R250, and what a link whose work succeeds
leaves (R76, R84, R90, R98, R176, R250, R255, R267). -/

namespace Sys2Proof.Machine

/-! What the end of a link's work leaves -/

/-- No output write of a link fails while the host answers them all. -/
theorem Link.outFailure_ok {l : Link} (h : l.data.access = .ok) (out : List Byte) : l.outFailure out = none := by
  simp [Link.outFailure, h]

theorem State.Works.answered {s u : State} {l : Link} {p : Plan} {sup : List Byte} {e w : SlotEnt} {iv : Iv} {x : List Byte}
    (h : s.Works l p sup e w iv x u) : l.data.access = .ok :=
  h.elim (·.answered) (·.answered)

/-- Work that ends well and whose output is written ends its link with OK. -/
theorem State.conclude_good {s y : State} {l : Link} {out : List Byte} {res : DWord} (ha : l.data.access = .ok)
    (hw : s.writeOut l out = (true, y)) : s.conclude l (.good out res) = y.finish l.tag .ok out.length res := by
  simp [State.conclude, hw, Link.outFailure_ok ha]

/-- Work that changes one slot, whose output and blob are written while the vault is open, waits for the slot's batch. -/
theorem State.conclude_writes {s y : State} {l : Link} {out : List Byte} {res : DWord} {slot : Nat} {ent : SlotEnt}
    (ha : l.data.access = .ok) (hw : s.writeOut l out = (true, y)) (hb : (y.writeBlob slot ent).1 = true)
    (hi : (y.writeBlob slot ent).2.imageReady = true) :
    s.conclude l (.writes [(slot, ent)] none out res) =
      ((y.writeBlob slot ent).2.toCommit l (if ent.attr.binding ≠ 0 then some slot else none) out.length res).joinBatch
        slot ent (some l.tag) := by
  have fills : (([(slot, ent)].filter (fun p => decide (p.2.attr.binding ≠ 0))).map (fun p => p.1)).head? =
      if ent.attr.binding ≠ 0 then some slot else none := by
    by_cases h : ent.attr.binding = 0
    · simp [h]
    · rw [List.filter_cons_of_pos (by simpa using h), if_pos h]; rfl
  unfold State.conclude
  simp only [hw, List.foldl, hb, Link.outFailure_ok ha, hi, fills]
  rfl

/-! The start of a link -/

/-- The start of a link without a mark whose parameters are read: an opcode it does not support ends it. -/
theorem State.beginLink_unsupported {s : State} {l : Link} {p : Plan} {sup : List Byte} (hm : l.mark = none)
    (ha : l.data.access = .ok) (hr : (s.paramsRead l p).1 = true) (hu : p.unsupported = true) :
    s.beginLink l p sup = .stays ((s.paramsRead l p).2.finish l.tag .unsupported 0 0) := by
  unfold State.beginLink
  simp only [hm, hr, Link.paramFailure_ok ha, hu]
  rfl

/-- A link that its opcode supports and whose checks deny it ends with their status. -/
theorem State.beginLink_denied {s : State} {l : Link} {p : Plan} {sup : List Byte} {st : Status} (hm : l.mark = none)
    (ha : l.data.access = .ok) (hr : (s.paramsRead l p).1 = true) (hu : p.unsupported = false)
    (hd : (s.paramsRead l p).2.preChecks l p = .deny st) :
    s.beginLink l p sup = .stays ((s.paramsRead l p).2.finish l.tag st 0 0) := by
  unfold State.beginLink
  simp only [hm, hr, Link.paramFailure_ok ha, hu, hd]
  rfl

/-- A link whose start ends it has run. -/
theorem State.runPlan_stays {s u : State} {l : Link} {p : Plan} {sup : List Byte} (h : s.beginLink l p sup = .stays u) :
    s.runPlan l p sup = u.readsDone l.tag := by
  simp only [State.runPlan, h]

/-! The order of the checks -/

/-- What the slot's checks come to once the plan's own denial is added (R84). -/
def SlotCheck.asPre (c : SlotCheck) (n : Nat) (denied : SlotEnt → Bool) (live : SlotEnt) : Pre :=
  match c with
  | .ok e => if denied e then .deny .keyDenied else .ok e {}
  | .deny .keyLimit => if denied live then .deny .keyDenied else .deny .keyLimit
  | .deny st => .deny st
  | .wait => .wait n

/-- The checks of a link of one slot: the slot first, the lengths last. -/
theorem State.preChecks_oneSlot {s : State} {l : Link} {p : Plan} {n : Nat} {use : SlotUse} (h0 : l.e.passed = none)
    (hd : p.dest = none) (hs : p.slot = some (n, use)) (hw : p.wrap = none) :
    s.preChecks l p = match (s.checkSlot n l.fn l.auth use).asPre n p.denied ((assoc s.vt.slots n).getD {}) with
      | .ok e w => if !l.chainOk || p.badLen e || decide (l.outLen < p.out e) then .deny .lenMismatch else .ok e w
      | x => x := by
  unfold State.preChecks State.preSlot SlotCheck.asPre
  simp only [h0, hd, hs, hw]
  cases s.checkSlot n l.fn l.auth use with
  | ok e =>
    by_cases hden : p.denied e = true
    · simp only [if_pos hden]; rfl
    · simp only [if_neg hden]; rfl
  | wait => rfl
  | deny st =>
    cases st with
    | keyLimit =>
      by_cases hden : p.denied ((assoc s.vt.slots n).getD {}) = true
      · simp only [if_pos hden]; rfl
      · simp only [if_neg hden]; rfl
    | _ => rfl

/-- The checks of a slot of the cache that no blob belongs to, one after the other (R250). -/
theorem State.checkSlot_hit {s : State} {slot fn : Nat} {auth : Bool} {u : SlotUse} {e : SlotEnt} (hslot : 256 ≤ slot)
    (hl : s.look slot = .hit e) (hb : e.attr.blob = false) (h1 : u.anyFn = false) (h2 : u.ownerOnly = false)
    (h3 : u.query = false) :
    s.checkSlot slot fn auth u =
      if e.attr.owner ≠ fn ∧ (e.attr.share = 0 ∨ (s.fn fn).entry.shareGroup ≠ e.attr.share) then .deny .keyDenied
      else if e.attr.world ≠ 2 ∧ e.attr.world ≠ (s.fn fn).entry.world then .deny .keyDenied
      else if e.attr.lcMask.getLsbD s.ts.lcs.toNat = false then .deny .keyDenied
      else if u.suits e = false ∨ u.allowed e = false then .deny .keyDenied
      else if e.attr.notAfter ≠ 0 ∧ e.attr.notAfter.toNat < s.po.tm.toNat then .deny .keyDenied
      else if u.consumes = true ∧ e.attr.usageLimit ≠ 0 ∧ e.attr.usageLimit ≤ e.attr.usageCount then .deny .keyLimit
      else .ok e := by
  have hn : ¬ slot < 256 := by omega
  unfold State.checkSlot
  simp [hn, hl, hb, h1, h2, h3]

theorem SlotUse.allowed_some {u : SlotUse} {e : SlotEnt} {p : Nat} (h : u.perm = some p) :
    u.allowed e = e.attr.perms.getLsbD p := by
  simp [SlotUse.allowed, h]

theorem SlotUse.allowed_of_all {u : SlotUse} {e : SlotEnt} (h : ∀ p, u.perm = some p → e.attr.perms.getLsbD p = true) :
    u.allowed e = true := by
  cases hp : u.perm with
  | none => simp [SlotUse.allowed, hp]
  | some p => rw [SlotUse.allowed_some hp, h p hp]

end Sys2Proof.Machine

namespace Sys2Proof
open Machine

/-- Settles O16: the work runs to `conclude`, which writes the output and ends the link or hands it to its batch. -/
theorem linksComplete : Obligations.LinksComplete := by
  intro i t d ops plan sup s u v y l e w iv x out res hrow hlink hrest hworks hout
  have ends : ∀ r, (plan s l).body u e w iv x = (r, v) → r ≠ .later → l.checkFails (plan s l) e x r = false →
      exec i s = .next (rowEnd i l.n (((v.drbgClose l.tag false).conclude l r).readsDone l.tag)) := by
    intro r hb hr hc
    rw [exec_linkRow hrow hlink hrest, State.runPlan_works hworks hb hr hc]
  refine ⟨fun hb hc => ?good, fun slot ent hb hc hblob hready => ?writes⟩
  case good => rw [ends _ hb (by simp) hc, State.conclude_good hworks.answered hout]
  case writes => rw [ends _ hb (by simp) hc, State.conclude_writes hworks.answered hout hblob hready]

/-- Settles O17: a link without a mark whose checks fail stays where `beginLink` ends it. -/
theorem linkChecksInOrder : Obligations.LinkChecksInOrder := by
  intro i t d ops plan sup s l hrow hlink hrest hm ha hr
  refine ⟨fun hu => ?_, fun hu st hd => ?_⟩
  · rw [exec_linkRow hrow hlink hrest, State.runPlan_stays (State.beginLink_unsupported hm ha hr hu)]
  · rw [exec_linkRow hrow hlink hrest, State.runPlan_stays (State.beginLink_denied hm ha hr hu hd)]

/-- Settles O18: the slot's checks, the plan's denial and the lengths, each by what `checkSlot` answers. -/
theorem checkOrder : Obligations.CheckOrder := by
  intro s l p h0 hd n use hs hw
  rw [State.preChecks_oneSlot h0 hd hs hw]
  refine ⟨fun e he => ?ok, fun he => ?denied, fun he => ?limit, fun he => ?wait⟩
  case ok =>
    rw [he]
    refine ⟨fun hden => ?_, fun hden hlen => ?_, fun hden hlen => ⟨{}, ?_⟩⟩
    · simp [SlotCheck.asPre, hden]
    · simp [SlotCheck.asPre, hden, hlen]
    · simp [SlotCheck.asPre, hden, hlen]
  case denied => rw [he]; rfl
  case limit =>
    rw [he]
    by_cases hden : p.denied ((assoc s.vt.slots n).getD {}) = true
    · simp only [SlotCheck.asPre, if_pos hden]
    · simp only [SlotCheck.asPre, if_neg hden]
  case wait => rw [he]; rfl

/-- Settles O19: each check of R250 is a branch of `checkSlot`, and every branch before it gives KEY_DENIED too. -/
theorem slotChecksInOrder : Obligations.SlotChecksInOrder := by
  intro s slot fn auth u e hslot hl hb h1 h2 h3
  rw [State.checkSlot_hit hslot hl hb h1 h2 h3]
  refine ⟨fun h => ?owner, fun h => ?world, fun h => ?life, fun h => ?suits, fun p hp h => ?perm, fun h => ?time,
    fun ho hwd hlc hsu hpe hna => ?passes⟩
  case owner => rw [if_pos h]
  case world => simp only [if_pos h, ite_self]
  case life => simp only [if_pos h, ite_self]
  case suits => simp only [h, true_or, if_true, ite_self]
  case perm => simp only [SlotUse.allowed_some hp, h, or_true, if_true, ite_self]
  case time => simp only [if_pos h, ite_self]
  case passes =>
    have hworld : ¬ (e.attr.world ≠ 2 ∧ e.attr.world ≠ (s.fn fn).entry.world) := by tauto
    have htime : ¬ (e.attr.notAfter ≠ 0 ∧ e.attr.notAfter.toNat < s.po.tm.toNat) := by
      rintro ⟨hne, hlt⟩
      rcases hna with h | h
      · exact hne h
      · omega
    have howner : ¬ (e.attr.owner ≠ fn ∧ (e.attr.share = 0 ∨ (s.fn fn).entry.shareGroup ≠ e.attr.share)) := fun h => h.1 ho
    rw [if_neg howner, if_neg hworld, if_neg (by simp [hlc]), if_neg (by simp [hsu, SlotUse.allowed_of_all hpe]), if_neg htime]

end Sys2Proof
end

section
/-! SUPPORT. The halt of the block (R326), the lockdown latch (R327) and the up signal of the register port (R409): hardly any
operation moves them. Here, in the order of the model, the operations of the fabric, event records, the journal, protection, digest contexts and the
schedule. -/

namespace Sys2Proof.Machine

/-- What hardly any operation moves: the halt of the block, the lockdown latch, and the register port's up signal. -/
def State.latches (s : State) : Bool × Bool × Bool := (s.fc.halted, s.fc.lockdown, s.po.rpUp)

theorem State.halted_of_latches {s t : State} (h : t.latches = s.latches) : t.fc.halted = s.fc.halted := congrArg Prod.fst h

theorem State.lockdown_of_latches {s t : State} (h : t.latches = s.latches) : t.fc.lockdown = s.fc.lockdown :=
  congrArg (·.2.1) h

theorem State.up_of_latches {s t : State} (h : t.latches = s.latches) : t.po.rpUp = s.po.rpUp := congrArg (·.2.2) h

/-- A state written out has the latches of its collector and its ports. -/
@[simp] theorem State.latches_mk (pending : List Instr) (freeCount : Nat) (fx : FnTable) (rt : RingTable) (sq : Seq)
    (pf : Profile) (vecs : Tab Vec) (units : Tab Lane) (fc : Collector) (pr : Prot) (jn : Journal) (d0 : D0) (ts : Tamper)
    (pw : Power) (po : Ports) (cl : CipherSt) (dg : DigestSt) (pk : PkSt) (sp : StippleSt) (st : StreamSt) (vt : VaultSt)
    (bu : Burin) (mb : Mailboxes) (dm : Dma) :
    State.latches ⟨pending, freeCount, fx, rt, sq, pf, vecs, units, fc, pr, jn, d0, ts, pw, po, cl, dg, pk, sp, st, vt, bu, mb,
      dm⟩ = (fc.halted, fc.lockdown, po.rpUp) := rfl
@[simp] theorem State.latches_fold (s : State) : (s.fc.halted, s.fc.lockdown, s.po.rpUp) = s.latches := rfl

/-- A fold of steps that leave the latches alone. -/
@[simp] theorem State.latches_foldl {α : Type} {f : State → α → State} (h : ∀ s a, (f s a).latches = s.latches) (l : List α)
    (s : State) : (l.foldl f s).latches = s.latches := by
  induction l generalizing s with
  | nil => rfl
  | cons a r ih => rw [List.foldl_cons, ih, h]

/-- An operation on `s` that answers something and the next state leaves the latches alone. -/
def State.KeepsLatches {α : Type} (s : State) (r : α × State) : Prop := r.2.latches = s.latches

/-- A fold of steps that also answer something. -/
theorem State.KeepsLatches.foldl {α β : Type} {f : β × State → α → β × State}
    (h : ∀ (r : β × State) a, r.2.KeepsLatches (f r a)) (l : List α) (r : β × State) : r.2.KeepsLatches (l.foldl f r) := by
  induction l generalizing r with
  | nil => exact rfl
  | cons a t ih => exact (ih (f r a)).trans (h r a)

/-- The state that comes with an answer. -/
theorem State.latches_snd {α : Type} {r : α × State} {a : α} {t : State} (h : r = (a, t)) : t.latches = r.2.latches := by rw [h]

@[simp] theorem State.latches_setFn (s : State) (f : Nat) (v : Fn) : (s.setFn f v).latches = s.latches := rfl
@[simp] theorem State.latches_modFn (s : State) (f : Nat) (g : Fn → Fn) : (s.modFn f g).latches = s.latches := rfl
@[simp] theorem State.latches_setRing (s : State) (r : Nat) (v : Ring) : (s.setRing r v).latches = s.latches := rfl
@[simp] theorem State.latches_modRing (s : State) (r : Nat) (g : Ring → Ring) : (s.modRing r g).latches = s.latches := rfl
@[simp] theorem State.latches_setVec (s : State) (v : Nat) (x : Vec) : (s.setVec v x).latches = s.latches := rfl
@[simp] theorem State.latches_setUnit (s : State) (u : Nat) (x : Lane) : (s.setUnit u x).latches = s.latches := rfl
@[simp] theorem State.latches_modUnit (s : State) (u : Nat) (g : Lane → Lane) : (s.modUnit u g).latches = s.latches := rfl
@[simp] theorem State.latches_setSrc (s : State) (n : Nat) (x : Src) : (s.setSrc n x).latches = s.latches := rfl
@[simp] theorem State.latches_setDom (s : State) (d : Nat) (x : Dom) : (s.setDom d x).latches = s.latches := rfl
@[simp] theorem State.latches_setTag (s : State) (t : Nat) (e : TagEnt) : (s.setTag t e).latches = s.latches := rfl
@[simp] theorem State.latches_setFlight (s : State) (n : Nat) (x : Flight) : (s.setFlight n x).latches = s.latches := rfl
@[simp] theorem State.latches_draw (s : State) : (s.draw).2.latches = s.latches := rfl
@[simp] theorem State.latches_raiseMsg (s : State) (m : FMsg) : (s.raiseMsg m).latches = s.latches := rfl
@[simp] theorem State.latches_raise (s : State) (source kind : Nat) (addr : BitVec 44) :
    (s.raise source kind addr).latches = s.latches := rfl
@[simp] theorem State.latches_raiseFabric (s : State) (source kind fn addr : Nat) (write : Bool) :
    (s.raiseFabric source kind fn addr write).latches = s.latches := rfl
@[simp] theorem State.latches_raiseFetch (s : State) (source kind : Nat) (addr : BitVec 44) (initiator : BitVec 16) (pc : Word) :
    (s.raiseFetch source kind addr initiator pc).latches = s.latches := rfl
@[simp] theorem State.latches_raiseReg (s : State) (source kind off init : Nat) (world write : Bool) :
    (s.raiseReg source kind off init world write).latches = s.latches := rfl
@[simp] theorem State.latches_pushChan (s : State) (c : Channel) (n : Nat) (x : Xfer) (single : Bool) :
    (s.pushChan c n x single).latches = s.latches := rfl

@[simp] theorem State.latches_transmit (s : State) (q : FabReq) (again : Bool) :
    (s.transmit q again).latches = s.latches := by
  simp [State.transmit, apply_ite State.latches]

@[simp] theorem State.latches_send (s : State) (q : FabReq) : (s.send q).latches = s.latches := by
  simp [State.send]

@[simp] theorem State.latches_issue1 (s : State) (a : Access) (addr len : Nat) (data : List Byte) :
    (s.issue1 a addr len data).2.latches = s.latches := by
  unfold State.issue1
  (repeat' split) <;> simp

@[simp] theorem State.latches_issueAll (s : State) (a : Access) (pieces : List (Nat × Nat)) (data : List Byte) :
    (s.issueAll a pieces data).2.latches = s.latches := by
  induction pieces generalizing s data with
  | nil => rfl
  | cons p r ih => simp [State.issueAll, ih]

@[simp] theorem State.latches_fabRead (s : State) (who : Who) (fn addr len : Nat) (ctrl : Bool) :
    (s.fabRead who fn addr len ctrl).2.latches = s.latches := by
  simp [State.fabRead]

@[simp] theorem State.latches_fabWrite (s : State) (who : Who) (fn addr : Nat) (data : List Byte) (ctrl : Bool) (durable : Bool) :
    (s.fabWrite who fn addr data ctrl durable).2.latches = s.latches := by
  simp [State.fabWrite]

@[simp] theorem State.latches_answered (s : State) (p : Who → Bool) : (s.answered p).latches = s.latches := rfl
@[simp] theorem State.latches_signal (s : State) (f v : Nat) : (s.signal f v).latches = s.latches := rfl
@[simp] theorem State.latches_sendFi (s : State) (m : FiMsg) : (s.sendFi m).latches = s.latches := rfl

@[simp] theorem State.latches_offerVec (s : State) (v : Nat) (flush : Bool) : (s.offerVec v flush).latches = s.latches := by
  unfold State.offerVec
  (repeat' split) <;> simp [apply_ite State.latches]

@[simp] theorem State.latches_offerNow (s : State) (v : Nat) (flush : Bool) : (s.offerNow v flush).latches = s.latches := by
  simp [State.offerNow, apply_ite State.latches]

@[simp] theorem State.latches_putEvent (s : State) (q type about ring : Nat) (time : DWord) (detail : List Byte) :
    (s.putEvent q type about ring time detail).latches = s.latches := by
  simp [State.putEvent, apply_ite State.latches]

@[simp] theorem State.latches_event (s : State) (q type about ring : Nat) (detail : List Byte) :
    (s.event q type about ring detail).latches = s.latches := by
  simp [State.event, apply_ite State.latches]

@[simp] theorem State.latches_keyEvent (s : State) (recips : List Nat) (slot code mode space kmEntry : Nat) :
    (s.keyEvent recips slot code mode space kmEntry).latches = s.latches := by
  simp [State.keyEvent]

@[simp] theorem State.latches_journalOut (s : State) (e : JEntry) (rest : List JEntry) :
    (s.journalOut e rest).latches = s.latches := by
  simp [State.journalOut, apply_ite State.latches]

@[simp] theorem State.latches_drainJournal (fuel : Nat) (s : State) : (State.drainJournal fuel s).latches = s.latches := by
  induction fuel generalizing s with
  | zero => rfl
  | succ n ih =>
    unfold State.drainJournal
    (repeat' split) <;> simp [ih]

@[simp] theorem State.latches_journal (s : State) (type : Nat) (flags : Nat) (initiator : BitVec 16) (detail : List Byte) :
    (s.journal type flags initiator detail).latches = s.latches := by
  unfold State.journal
  dsimp only
  (repeat' split) <;> simp

@[simp] theorem State.latches_traceRec (s : State) (type : BitVec 4) (payload : DWord) :
    (s.traceRec type payload).latches = s.latches := by
  simp [State.traceRec, apply_ite State.latches]

@[simp] theorem State.latches_traceOut (s : State) (n : Nat) : (s.traceOut n).latches = s.latches := by
  simp [State.traceOut, apply_ite State.latches]

@[simp] theorem State.latches_lockViolation (s : State) (q : WReq) : (s.lockViolation q).latches = s.latches := rfl
@[simp] theorem State.latches_modPr (s : State) (f : Prot → Prot) : (s.modPr f).latches = s.latches := rfl
@[simp] theorem State.latches_arLoad (s : State) : s.arLoad.latches = s.latches := rfl
@[simp] theorem State.latches_newEpoch (s : State) (r : Region) : (s.newEpoch r).latches = s.latches := rfl

@[simp] theorem State.latches_arCommit (s : State) (q : WReq) : (s.arCommit q).latches = s.latches := by
  simp [State.arCommit, apply_ite State.latches]

@[simp] theorem State.latches_arInvalidate (s : State) (q : WReq) : (s.arInvalidate q).latches = s.latches := by
  simp [State.arInvalidate, apply_ite State.latches]

@[simp] theorem State.latches_arCmd (s : State) (q : WReq) : (s.arCmd q).latches = s.latches := by
  unfold State.arCmd
  split <;> simp

@[simp] theorem State.latches_syncDone (s : State) : s.syncDone.latches = s.latches := rfl

@[simp] theorem State.latches_poWrite (s : State) (q : WReq) : (s.poWrite q).latches = s.latches := by
  simp [State.poWrite, apply_ite State.latches]

@[simp] theorem State.latches_dgWrite (s : State) (x : DWord) : (s.dgWrite x).latches = s.latches := rfl
@[simp] theorem State.latches_modJn (s : State) (f : Journal → Journal) : (s.modJn f).latches = s.latches := rfl

@[simp] theorem State.latches_jnBase (s : State) (x : DWord) : (s.jnBase x).latches = s.latches := by
  simp [State.jnBase, apply_ite State.latches]

@[simp] theorem State.latches_jnCtrl (s : State) (q : WReq) : (s.jnCtrl q).latches = s.latches := by
  simp [State.jnCtrl, apply_ite State.latches]

@[simp] theorem State.latches_jnCons (s : State) (v : Word) : (s.jnCons v).latches = s.latches := by
  simp [State.jnCons]

@[simp] theorem State.latches_arWrite (s : State) (off : Nat) (q : WReq) : (arWrite s off q).latches = s.latches := by
  unfold arWrite
  (repeat' split) <;> simp

@[simp] theorem State.latches_dgPageWrite (s : State) (off : Nat) (q : WReq) : (dgPageWrite s off q).latches = s.latches := by
  unfold dgPageWrite
  (repeat' split) <;> simp

@[simp] theorem State.latches_jnWrite (s : State) (off : Nat) (q : WReq) : (jnWrite s off q).latches = s.latches := by
  unfold jnWrite
  (repeat' split) <;> simp

@[simp] theorem State.latches_jnTake (s : State) (off : Nat) (lo : Bool) : (jnTake s off lo).latches = s.latches := by
  unfold jnTake
  (repeat' split) <;> simp

@[simp] theorem State.latches_modDg (s : State) (f : DigestSt → DigestSt) : (s.modDg f).latches = s.latches := rfl
@[simp] theorem State.latches_putDctx (s : State) (k : Nat) (c : DCtx) : (s.putDctx k c).latches = s.latches := rfl
@[simp] theorem State.latches_dropDctx (s : State) (k : Nat) : (s.dropDctx k).latches = s.latches := rfl

@[simp] theorem State.latches_clearCtxs (s : State) (p : Nat → DCtx → Bool) : (s.clearCtxs p).2.latches = s.latches := by
  unfold State.clearCtxs
  refine (State.latches_foldl (fun u t => ?_) _ _).trans (s.latches_modDg _)
  split
  · split <;> simp
  · rfl

@[simp] theorem State.latches_clearLane (s : State) (u : Nat) : (s.clearLane u).latches = s.latches := by
  simp [State.clearLane]

theorem State.latches_of_fabRead {s t : State} {w : Who} {fn addr len : Nat} {c ok : Bool}
    (h : s.fabRead w fn addr len c = (ok, t)) : t.latches = s.latches :=
  (congrArg (fun r => r.2.latches) h).symm.trans (s.latches_fabRead _ _ _ _ _)

theorem State.latches_of_fabWrite {s t : State} {w : Who} {fn addr : Nat} {d : List Byte} {c du ok : Bool}
    (h : s.fabWrite w fn addr d c du = (ok, t)) : t.latches = s.latches :=
  (congrArg (fun r => r.2.latches) h).symm.trans (s.latches_fabWrite _ _ _ _ _ _)

theorem State.spillOne_keepsLatches (s : State) (u running : Nat) : s.KeepsLatches (s.spillOne u running) := by
  unfold State.spillOne
  split
  · exact rfl
  · extract_lets best ctr
    refine holds_of_optionArms (P := s.KeepsLatches) best (x := (true, s)) rfl (fun k c => ?_)
    extract_lets t
    split
    next ok v access =>
      have kept : v.latches = s.latches := (State.latches_of_fabWrite access).trans (s.latches_modDg _)
      show State.latches (if ok then v else v.clearLane u) = s.latches
      split <;> simp [kept]

@[simp] theorem State.latches_spillOne (s : State) (u running : Nat) : (s.spillOne u running).2.latches = s.latches :=
  s.spillOne_keepsLatches u running

@[simp] theorem State.latches_spillDone (s : State) (k : Nat) : (s.spillDone k).latches = s.latches := by
  unfold State.spillDone
  (repeat' split) <;> simp

@[simp] theorem State.latches_restoreFails (s : State) (k u : Nat) : (s.restoreFails k u).latches = s.latches := by
  simp [State.restoreFails, apply_ite State.latches]

theorem State.ctxTo_keepsLatches (s : State) (k u : Nat) : s.KeepsLatches (s.ctxTo k u) := by
  unfold State.ctxTo
  split
  · exact rfl
  · split
    · exact rfl
    · refine CtxPlace.holds_of_arms _ (fun _ => s.latches_putDctx _ _) (fun _ _ => s.latches_putDctx _ _)
        (fun ctr => ?spilled) (fun _ => rfl)
      extract_lets t
      split
      next ok v access =>
        have kept : v.latches = s.latches := (State.latches_of_fabRead access).trans (s.latches_putDctx _ _)
        show State.latches (if ok then v else v.restoreFails k u) = s.latches
        split <;> simp [kept]

@[simp] theorem State.latches_ctxTo (s : State) (k u : Nat) : (s.ctxTo k u).2.latches = s.latches :=
  s.ctxTo_keepsLatches k u

@[simp] theorem State.latches_digestStart (s : State) (t u : Nat) (e : TagEnt) :
    (s.digestStart t u e).2.latches = s.latches := by
  unfold State.digestStart
  dsimp only
  (repeat' split) <;> simp

@[simp] theorem State.latches_restoreCtx (s : State) (k u : Nat) (b : List Byte) :
    (s.restoreCtx k u b).2.latches = s.latches := by
  unfold State.restoreCtx
  dsimp only
  (repeat' split) <;> simp

@[simp] theorem State.latches_markReserve (units : List Nat) (r : Nat) (s : State) :
    (markReserve units r s).latches = s.latches := by
  induction units generalizing r s with
  | nil => rfl
  | cons u l ih =>
    unfold markReserve
    split <;> simp [ih]

@[simp] theorem State.latches_renewReserve (s : State) : s.renewReserve.latches = s.latches := by
  simp [State.renewReserve]

@[simp] theorem State.latches_estimate (s : State) : s.estimate.latches = s.latches := rfl

@[simp] theorem State.latches_holdImpression (s : State) (k : Kind) (t : Nat) :
    (s.holdImpression k t).latches = s.latches := by
  simp [State.holdImpression, apply_ite State.latches]

@[simp] theorem State.latches_endLink (s : State) (t : Nat) (st : Status) (out : Nat) (result : DWord) :
    (s.endLink t st out result).latches = s.latches := by
  unfold State.endLink
  split <;> simp

@[simp] theorem State.latches_startLink (s : State) (k : Kind) (t u : Nat) (e : TagEnt) :
    (s.startLink k t u e).latches = s.latches := by
  unfold State.startLink
  dsimp only
  (repeat' split) <;> simp

@[simp] theorem State.latches_serve (fuel : Nat) (k : Kind) (s : State) : (State.serve fuel k s).latches = s.latches := by
  induction fuel generalizing s with
  | zero => rfl
  | succ n ih =>
    unfold State.serve
    (repeat' split) <;> simp [ih]

@[simp] theorem State.latches_pumpDom (s : State) (d : Nat) : (s.pumpDom d).latches = s.latches := by
  simp [State.pumpDom, apply_ite State.latches]

@[simp] theorem State.latches_pump (s : State) : s.pump.latches = s.latches := by
  simp [State.pump]

@[simp] theorem State.latches_wakeLane (s : State) (k : Kind) : (s.wakeLane k).latches = s.latches := by
  unfold State.wakeLane
  (repeat' split) <;> simp

@[simp] theorem State.latches_schedule (s : State) : s.schedule.latches = s.latches := by
  simp [State.schedule, apply_ite State.latches]

@[simp] theorem State.latches_freeOf (s : State) (u : Nat) : (s.freeOf u).latches = s.latches := rfl

@[simp] theorem State.latches_releaseOut (s : State) (t : Nat) : (s.releaseOut t).latches = s.latches := by
  unfold State.releaseOut
  split <;> simp

@[simp] theorem State.latches_releaseTag (s : State) (t : Nat) : (s.releaseTag t).latches = s.latches := by
  unfold State.releaseTag
  (repeat' split) <;> simp

@[simp] theorem State.latches_finish (s : State) (t : Nat) (st : Status) (out : Nat) (result : DWord) :
    (s.finish t st out result).latches = s.latches := by
  unfold State.finish
  (repeat' split) <;> simp

@[simp] theorem State.latches_requeue (s : State) (t : Nat) (replay : Bool) : (s.requeue t replay).latches = s.latches := by
  unfold State.requeue
  (repeat' split) <;> simp

@[simp] theorem State.latches_enqueue (s : State) (t : Nat) : (s.enqueue t).latches = s.latches := by
  unfold State.enqueue
  split <;> simp

@[simp] theorem State.latches_abandon (s : State) (p : TagEnt → Bool) : (s.abandon p).latches = s.latches := by
  simp [State.abandon]

end Sys2Proof.Machine
end

section
/-! SUPPORT. The function table and function-level reset (02_functions.md R28–R47): what FT_CMD does by its OP, what a reset
point and its end leave, and the statements about them. -/

namespace Sys2Proof.Machine

/-! Commands of a lower 32-bit register outside the FC_ page -/

/-- A command whose code the page reads in a field of the low half does what the page does with that code. -/
theorem PortDoes.of_code {s u : State} {i : Instr} {off lo n v : Nat} {q : PortReq} {f : Nat → State}
    (hi : exec i s = .next (s.command off lo n v q)) (ho : off < 0x400000 ∧ off / 0x10000 ≠ 0x0E) (hv : v < 2 ^ n ∧ lo + n ≤ 32)
    (page : ∀ r : WReq, r.lo = true → s.fc.halted = false → regWrite s off r = f (fld r.x lo n).toNat)
    (does : s.fc.halted = false → f v = u) (up : u.latches = s.latches) : PortDoes s i off (q.lower.force lo n v) u := by
  refine .of_page hi ho.1 (fun acc => ?_) (fun acc => (State.up_of_latches up).trans acc.up)
  have low : LowWord s off (q.lower.force lo n v) := acc.forced
  have runs := acc.notHalted ho.2
  rw [page _ low.lo runs, low.fld lo n hv.2, fld_force _ (by omega), BitVec.toNat_ofNat, Nat.mod_eq_of_lt hv.1, does runs]

@[simp] theorem PortReq.undefinedOp_be (q : PortReq) (lo n v : Nat) (p : Nat → Bool) : (q.undefinedOp lo n v p).be = q.be := by
  unfold PortReq.undefinedOp
  split <;> rfl

theorem fld_toNat (x : DWord) (lo n : Nat) : (fld x lo n).toNat = x.toNat / 2 ^ lo % 2 ^ n := by
  rw [fld, BitVec.extractLsb'_toNat, Nat.shiftRight_eq_div_pow]

/-- The code of an undefined command is none of the defined ones. -/
theorem PortReq.undefinedOp_code {q : PortReq} {lo n v : Nat} {p : Nat → Bool} (hv : v < 2 ^ n) (hlo : lo + n ≤ 64)
    (hp : p v = false) : p (fld (q.undefinedOp lo n v p).wdata lo n).toNat = false := by
  unfold PortReq.undefinedOp
  split
  · rw [fld_force _ hlo, BitVec.toNat_ofNat, Nat.mod_eq_of_lt hv, hp]
  · next h => rw [fld_toNat]; simpa using h

/-- A command with no defined code does what the page does with each of the other codes. -/
theorem PortDoes.of_undefined {s u : State} {i : Instr} {off lo n v : Nat} {q : PortReq} {p : Nat → Bool} {f : Nat → State}
    (hi : exec i s = .next (s.portWrite off (q.lower.undefinedOp lo n v p))) (ho : off < 0x400000 ∧ off / 0x10000 ≠ 0x0E)
    (hv : v < 2 ^ n ∧ lo + n ≤ 32) (hp : p v = false)
    (page : ∀ r : WReq, r.lo = true → s.fc.halted = false → regWrite s off r = f (fld r.x lo n).toNat)
    (does : ∀ m < 2 ^ n, p m = false → f m = u) (up : u.latches = s.latches) :
    PortDoes s i off (q.lower.undefinedOp lo n v p) u := by
  refine .of_page hi ho.1 (fun acc => ?_) (fun acc => (State.up_of_latches up).trans acc.up)
  have covers : (beLo q.lower.be || beHi q.lower.be) = true := by simpa using acc.covers
  have low : LowWord s off (q.lower.undefinedOp lo n v p) := .of_be (by rw [PortReq.undefinedOp_be, PortReq.lower_be covers])
  rw [page _ low.lo (acc.notHalted ho.2), low.fld lo n hv.2]
  exact does _ (BitVec.isLt _) (PortReq.undefinedOp_code hv.1 (by omega) hp)

/-! FT_CMD -/

@[simp] theorem State.latches_modFx (s : State) (f : FnTable → FnTable) : (s.modFx f).latches = s.latches := rfl
@[simp] theorem State.latches_ftErr (s : State) (n : Nat) : (s.ftErr n).latches = s.latches := rfl
@[simp] theorem State.latches_ftBegin (s : State) : s.ftBegin.latches = s.latches := rfl

@[simp] theorem State.latches_squashed (s : State) (f loc : Nat) (head : Word) (link op : Nat) (discarded : Bool) :
    (s.squashed f loc head link op discarded).latches = s.latches :=
  State.latches_event ..

@[simp] theorem State.latches_dropFetches (s : State) (r : Nat) : (s.dropFetches r).latches = s.latches := rfl

@[simp] theorem State.latches_discardRing (s : State) (f : Nat) (drain : Bool) (r : Nat) :
    (s.discardRing f drain r).latches = s.latches := by
  unfold State.discardRing
  extract_lets x ps t kept y u v
  have ht : t.latches = s.latches := by unfold t; split <;> simp
  have hv : v.latches = u.latches := by unfold v; split <;> simp
  exact (State.latches_modFn ..).trans (hv.trans ((State.latches_dropFetches ..).trans ht))

@[simp] theorem State.latches_squashAll (s : State) (f : Nat) : (s.squashAll f).latches = s.latches := by
  simp [State.squashAll]

@[simp] theorem State.latches_resetPoint (s : State) (f : Nat) (squash byPort : Bool) :
    (s.resetPoint f squash byPort).latches = s.latches := by
  unfold State.resetPoint
  dsimp only
  split <;> simp

theorem regWrite_ftCmd {s : State} {r : WReq} (lo : r.lo = true) (runs : s.fc.halted = false) :
    regWrite s 0x20008 r = s.ftCmd (fld r.x 0 4).toNat := by
  show ftWrite s 8 r = _
  simp [ftWrite, lo, runs]

/-- A write of `op` to FT_CMD does what that OP does. -/
theorem PortDoes.of_ftCmd {s u : State} {i : Instr} {op : Nat} {q : PortReq}
    (hi : exec i s = .next (s.command 0x20008 0 4 op q)) (hop : op < 16) (does : s.ftCmd op = u) (up : u.latches = s.latches) :
    PortDoes s i 0x20008 (q.lower.force 0 4 op) u :=
  .of_code hi (by decide) ⟨hop, by decide⟩ (fun _ => regWrite_ftCmd) (fun _ => does) up

/-- A write of no defined OP to FT_CMD does what each other OP does. -/
theorem PortDoes.of_ftUndefined {s u : State} {q : PortReq} (does : ∀ op, op = 0 ∨ 7 ≤ op → s.ftCmd op = u)
    (up : u.latches = s.latches) :
    PortDoes s (.ftCmdUndefined q) 0x20008 (q.lower.undefinedOp 0 4 0 (fun n => decide (1 ≤ n ∧ n ≤ 6))) u :=
  .of_undefined rfl (by decide) (by decide) (by decide) (fun _ => regWrite_ftCmd)
    (fun m _ h => does m (by have := of_decide_eq_false h; omega)) up

theorem State.ftCmd_busy {s : State} (h : s.ftBusy = true) (op : Nat) : s.ftCmd op = s.ftErr 6 := if_pos h

section
variable {s : State} (idle : s.ftBusy = false)
include idle

theorem State.ftCmd_load : s.ftCmd 1 = s.ftLoad.ftBegin := if_neg (by simp [idle])
theorem State.ftCmd_commit : s.ftCmd 2 = s.ftCommit.ftBegin := if_neg (by simp [idle])
theorem State.ftCmd_enable : s.ftCmd 3 = s.ftEnable.ftBegin := if_neg (by simp [idle])
theorem State.ftCmd_drain : s.ftCmd 4 = s.ftReset false := if_neg (by simp [idle])
theorem State.ftCmd_squash : s.ftCmd 5 = s.ftReset true := if_neg (by simp [idle])
theorem State.ftCmd_unbind : s.ftCmd 6 = s.ftUnbind.ftBegin := if_neg (by simp [idle])

theorem State.ftCmd_undefined {op : Nat} (h : op = 0 ∨ 7 ≤ op) : s.ftCmd op = s.ftErr 4 := by
  unfold State.ftCmd
  rw [if_neg (by simp [idle])]
  split <;> first | omega | rfl

end

theorem State.ftEnable_ready {s : State} (hf : s.fx.sel.toNat ≠ 0) (hs : (s.fn s.fx.sel.toNat).state = .ready) :
    s.ftEnable = (s.modFn s.fx.sel.toNat (fun v => { v with state := .enabled, quiet := false })).ftErr 0 :=
  if_pos ⟨hf, hs⟩

theorem State.ftUnbind_ready {s : State} (hs : (s.fn s.fx.sel.toNat).state = .ready) :
    s.ftUnbind = (s.modFn s.fx.sel.toNat (fun v => { v with
      state := .unbound,
      entry := { v.entry with ringBase := 0, ringCount := 0, vecBase := 0, vecCount := 0 } })).ftErr 0 :=
  if_pos hs

/-- A function at work takes a reset request. -/
theorem State.resetRequest_atWork {s : State} {f : Nat} (squash byPort : Bool)
    (h : (s.fn f).state = .enabled ∨ (s.fn f).state = .halted) :
    s.resetRequest f squash byPort = (true, s.resetPoint f squash byPort) := by
  unfold State.resetRequest
  rcases h with h | h <;> simp only [h]

theorem State.ftReset_atWork {s : State} (squash : Bool) (hf : s.fx.sel.toNat ≠ 0)
    (h : (s.fn s.fx.sel.toNat).state = .enabled ∨ (s.fn s.fx.sel.toNat).state = .halted) :
    s.ftReset squash = (s.resetPoint s.fx.sel.toNat squash false).ftErr 0 := by
  unfold State.ftReset
  rw [if_neg hf, State.resetRequest_atWork squash false h]
  rfl

/-! COMMIT (R31) -/

/-- The staged entry's rings overlap those of another function that is bound. -/
def State.ringsClash (s : State) (f : Nat) (e : FnEntry) : Bool :=
  (s.bound f).any (fun p => overlaps e.ringBase.toNat e.ringCount.toNat p.2.entry.ringBase.toNat p.2.entry.ringCount.toNat)

/-- The staged entry's vectors overlap those of another function that is bound. -/
def State.vecsClash (s : State) (f : Nat) (e : FnEntry) : Bool :=
  (s.bound f).any (fun p => overlaps e.vecBase.toNat e.vecCount.toNat p.2.entry.vecBase.toNat p.2.entry.vecCount.toNat)

section
variable {s : State} (hf : s.fx.sel.toNat ≠ 0)
include hf

/-- COMMIT refuses a function in a wrong state before it looks at anything else. -/
theorem State.ftCommit_wrongState (h1 : (s.fn s.fx.sel.toNat).state ≠ .unbound) (h2 : (s.fn s.fx.sel.toNat).state ≠ .ready) :
    s.ftCommit = s.ftErr 1 := by
  simp [State.ftCommit, hf, h1, h2]

variable (bound : (s.fn s.fx.sel.toNat).state = .unbound ∨ (s.fn s.fx.sel.toNat).state = .ready)
include bound

theorem State.ftCommit_beyond (h : s.fx.numVf.toNat < s.fx.sel.toNat) : s.ftCommit = s.ftErr 5 := by
  simp [State.ftCommit, hf, bound, h]

variable (within : s.fx.sel.toNat ≤ s.fx.numVf.toNat)
include within

theorem State.ftCommit_range (h : s.commitRange s.fx.sel.toNat s.fx.stage = false) : s.ftCommit = s.ftErr 4 := by
  simp [State.ftCommit, hf, bound, Nat.not_lt.mpr within, h]

variable (range : s.commitRange s.fx.sel.toNat s.fx.stage = true)
include range

theorem State.ftCommit_rings (h : s.ringsClash s.fx.sel.toNat s.fx.stage = true) : s.ftCommit = s.ftErr 2 := by
  unfold State.ringsClash at h
  simp only [State.ftCommit, hf, bound, Nat.not_lt.mpr within, range, h]
  simp

variable (rings : s.ringsClash s.fx.sel.toNat s.fx.stage = false)
include rings

theorem State.ftCommit_vecs (h : s.vecsClash s.fx.sel.toNat s.fx.stage = true) : s.ftCommit = s.ftErr 3 := by
  unfold State.ringsClash at rings
  unfold State.vecsClash at h
  simp only [State.ftCommit, hf, bound, Nat.not_lt.mpr within, range, rings, h]
  simp

omit bound in
theorem State.ftCommit_binds (vecs : s.vecsClash s.fx.sel.toNat s.fx.stage = false)
    (h : (s.fn s.fx.sel.toNat).state = .unbound) :
    s.ftCommit = (s.modFn s.fx.sel.toNat (fun v => { v with entry := s.fx.stage, state := .ready })).ftErr 0 := by
  unfold State.ringsClash at rings
  unfold State.vecsClash at vecs
  simp only [State.ftCommit, hf, h, Nat.not_lt.mpr within, range, rings, vecs]
  simp

end

/-- FT_NUMVF takes a value that leaves every bound function reachable (R34). -/
theorem State.ftNumVf_reaches {s : State} {n : BitVec 10}
    (h : s.fx.fns.all (fun p => decide (p.1 ≤ n.toNat) || decide (p.2.state = .unbound)) = true) :
    s.ftNumVf n = s.modFx (fun x => { x with numVf := n }) := by
  refine if_neg fun clash => ?_
  obtain ⟨p, hp, hc⟩ := List.any_eq_true.mp clash
  have ok := List.all_eq_true.mp h p hp
  simp only [Bool.and_eq_true, Bool.or_eq_true, decide_eq_true_eq] at hc ok
  rcases ok with ok | ok
  · omega
  · exact hc.2 ok

theorem portDoes_ftNumVf {s : State} {q : PortReq}
    (h : s.fx.fns.all (fun p => decide (p.1 ≤ (fld q.wdata 0 10).toNat) || decide (p.2.state = .unbound)) = true) :
    PortDoes s (.ftNumvfWrite q) 0x20040 q.lower (s.modFx (fun x => { x with numVf := fld q.wdata 0 10 })) := by
  refine .of_page rfl (by decide) (fun acc => ?_) (fun acc => acc.up)
  have page : regWrite s 0x20040 (s.wreq 0x20040 q.lower) = s.ftNumVf (fld (s.wreq 0x20040 q.lower).x 0 10) := by
    show ftWrite s 0x40 _ = _
    simp [ftWrite, acc.lower.lo]
  rw [page, acc.lower.fld 0 10 (by decide), PortReq.lower_wdata, State.ftNumVf_reaches h]

end Sys2Proof.Machine

namespace Sys2Proof
open Machine

/-- Settles O20: FT_CMD by its OP, COMMIT by its checks in their order, and FT_NUMVF by the functions that are bound. -/
theorem functionTableCommands : Obligations.FunctionTableCommands := by
  refine ⟨fun s q => ⟨fun idle => ⟨?load, fun hf hs => ?enable, fun hs => ?unbind, fun hf hs => ⟨?drain, ?squash⟩, ?undefined⟩,
    fun busy => ?busy, portDoes_ftNumVf⟩, fun s q => ?commit⟩
  case commit =>
    intro f e Q rings vecs hf idle
    have commits {u : State} (does : s.ftCommit = u) (up : u.latches = s.latches) :
        PortDoes s (.ftCommit q) 0x20008 Q u.ftBegin :=
      .of_ftCmd rfl (by decide) ((State.ftCmd_commit idle).trans (congrArg State.ftBegin does)) up
    exact ⟨fun h1 h2 => commits (State.ftCommit_wrongState hf h1 h2) rfl, fun hb =>
      ⟨fun hn => commits (State.ftCommit_beyond hf hb hn) rfl, fun hn =>
        ⟨fun hr => commits (State.ftCommit_range hf hb hn hr) rfl,
          fun hr hc => commits (State.ftCommit_rings hf hb hn hr hc) rfl,
          fun hr hc hv => commits (State.ftCommit_vecs hf hb hn hr hc hv) rfl,
          fun hr hc hv hu => commits (State.ftCommit_binds hf hn hr hc hv hu) rfl⟩⟩⟩
  case load => exact .of_ftCmd rfl (by decide) (State.ftCmd_load idle) rfl
  case enable => exact .of_ftCmd rfl (by decide) ((State.ftCmd_enable idle).trans (by rw [State.ftEnable_ready hf hs])) rfl
  case unbind => exact .of_ftCmd rfl (by decide) ((State.ftCmd_unbind idle).trans (by rw [State.ftUnbind_ready hs])) rfl
  case drain =>
    exact .of_ftCmd rfl (by decide) ((State.ftCmd_drain idle).trans (State.ftReset_atWork _ hf hs)) (by simp)
  case squash =>
    exact .of_ftCmd rfl (by decide) ((State.ftCmd_squash idle).trans (State.ftReset_atWork _ hf hs)) (by simp)
  case undefined => exact .of_ftUndefined (fun _ => State.ftCmd_undefined idle) rfl
  case busy =>
    have six := State.ftCmd_busy busy
    exact ⟨.of_ftCmd rfl (by decide) (six 1) rfl, .of_ftCmd rfl (by decide) (six 2) rfl, .of_ftCmd rfl (by decide) (six 3) rfl,
      .of_ftCmd rfl (by decide) (six 4) rfl, .of_ftCmd rfl (by decide) (six 5) rfl, .of_ftCmd rfl (by decide) (six 6) rfl,
      .of_ftUndefined (fun op _ => six op) rfl⟩

end Sys2Proof
end

section
/-! SUPPORT. Function-level reset (02_functions.md R36–R47): the request on the register port and as a message, the drain's
end, and what the end of a reset leaves. -/

namespace Sys2Proof.Machine

/-! A function's page -/

/-- The page of a function that is bound, but for its mailboxes and function 0's reset request. -/
theorem pageWrite_fn {s : State} {f o : Nat} {r : WReq} (bound : (s.fn f).state ≠ .unbound) (h0 : ¬(o = 0x08 ∧ f = 0))
    (ho : o < 0x1000 ∨ 0x1088 ≤ o) : pageWrite s f o r = fnWrite s f o r := by
  unfold pageWrite
  rw [if_neg bound, if_neg h0]
  rcases ho with ho | ho
  · rw [if_pos ho]
  · rw [if_neg (by omega), if_neg (by omega), if_neg (by omega), if_neg (by omega)]

theorem PortDoes.flrReq {s : State} {f : BitVec 10} {q : PortReq} (hf : f.toNat ≠ 0)
    (h : (s.fn f.toNat).state = .enabled ∨ (s.fn f.toNat).state = .halted) :
    PortDoes s (.flrReq f q) (fnPage f.toNat 0x8) (q.lower.force 0 1 1)
      ((s.modFn f.toNat (fun v => { v with flrReq := true })).resetPoint f.toNat (s.fn f.toNat).entry.flrMode false) := by
  refine .of_fnPage rfl f.isLt (by decide) (by decide) (fun acc => ?_) (fun acc => (State.up_of_latches (by simp)).trans acc.up)
  have low : LowWord s (fnPage f.toNat 0x8) (q.lower.force 0 1 1) := acc.forced
  have bound : (s.fn f.toNat).state ≠ .unbound := by rcases h with h | h <;> simp [h]
  have set : bit (s.wreq (fnPage f.toNat 0x8) (q.lower.force 0 1 1)).x 0 = true := by
    rw [low.bit 0 (by decide), bit_force _ (by decide) (by decide)]
    rfl
  rw [pageWrite_fn bound (by simp [hf]) (by decide)]
  simp [fnWrite, low.lo, set, State.flrReq, h]

/-! A reset of the block on the register port -/

theorem State.rpUp_stepOne (s : State) : s.stepOne.po.rpUp = s.po.rpUp := by
  unfold State.stepOne
  split
  · exact State.rpUp_of_controls (State.controls_domWants _ _ _)
  · rfl

/-- A reset of the block takes the register port down (R385, R409). -/
theorem State.rpUp_blockReset (s : State) : s.blockReset.po.rpUp = false := State.rpUp_stepOne _

/-- A write that takes the port down is carried out; it leaves neither a journal entry nor an answer (R409). -/
theorem State.portWrite_down {s u : State} {off : Nat} {q : PortReq} (h : s.Accepts off q)
    (hu : regWrite s off (s.wreq off q) = u) (down : u.po.rpUp = false) : s.portWrite off q = u := by
  obtain ⟨h1, h2, h3, h4, h5, h6⟩ := h
  have hc : (!beLo q.be && !beHi q.be) = false := by
    cases hl : beLo q.be <;> cases hh : beHi q.be <;> simp_all
  have hd : s.doWrite (wlog off q) = u := by
    have : s.doWrite (wlog off q) =
        (if (regWrite s off (s.wreq off q)).po.rpUp = s.po.rpUp then
          (regWrite s off (s.wreq off q)).journalWrite (wlog off q) (regRead s off)
            (sameBut s (regWrite s off (s.wreq off q)) || s.setsHeldPort off (beLo q.be) q.wdata) false
         else regWrite s off (s.wreq off q)) := rfl
    rw [this, hu, down, h1, if_neg (by decide)]
  have h7 : (s.fc.halted && decide (off / 0x10000 ≠ 0x0E)) = false := by
    rcases h6 with h | h <;> simp [h]
  unfold State.portWrite
  simp only [wlog] at hd
  simp only [h1, h2, h3, hc, h5, h7, hd, down, Bool.not_true, Bool.false_or, Bool.false_eq_true, if_false]

/-- Function 0's reset request resets the block (R39). -/
theorem exec_flrReq_zero {s : State} {q : PortReq} (h : (s.fn 0).state = .enabled)
    (acc : s.Accepts (fnPage 0 0x8) (q.lower.force 0 1 1)) : exec (.flrReq 0 q) s = .next (s.resetFn0 false) := by
  have low : LowWord s (fnPage 0 0x8) (q.lower.force 0 1 1) := acc.forced
  have set : bit (s.wreq (fnPage 0 0x8) (q.lower.force 0 1 1)).x 0 = true := by
    rw [low.bit 0 (by decide), bit_force _ (by decide) (by decide)]
    rfl
  have master : (s.wreq (fnPage 0 0x8) (q.lower.force 0 1 1)).init ≠ debugId := acc.notDebug
  have page : regWrite s (fnPage 0 0x8) (s.wreq (fnPage 0 0x8) (q.lower.force 0 1 1)) = s.resetFn0 false := by
    rw [regWrite_fnPage s _ (by decide) (by decide)]
    simp [pageWrite, h, low.lo, set, master, State.flrReq0]
  exact exec_next (u := s.portWrite (fnPage 0 0x8) (q.lower.force 0 1 1)) rfl
    (State.portWrite_down acc page (State.rpUp_blockReset _))

/-! FLR_REQUEST messages (R36, R39, R47, R411) -/

/-- A message for a virtual function with no work to reset is answered; one for another is a request in its FLR mode. -/
theorem State.flrMessage_vf {s : State} {f : Nat} (hf : f ≠ 0) (up : s.po.fiUp = true) :
    s.flrMessage f true =
      if s.fx.numVf.toNat < f ∨ (s.fn f).state = .unbound ∨ (s.fn f).state = .ready then s.sendReset f
      else (s.resetRequest f (s.fn f).entry.flrMode true).2 := by
  simp [State.flrMessage, hf, up]

theorem State.flrMessage_zero {s : State} (up : s.po.fiUp = true) (due : s.fx.fn0Due = false) (offered : s.fx.fn0Offered = false) :
    s.flrMessage 0 true = s.resetFn0 true := by
  simp [State.flrMessage, up, due, offered]

/-- A message for a function in RESETTING makes the reset the port's; in squash mode it turns a drain into a squash. -/
theorem State.resetRequest_resetting {s : State} {f : Nat} (squash : Bool) (h : (s.fn f).state = .resetting) :
    s.resetRequest f squash true =
      let p := s.modFn f (fun v => { v with byPort := true })
      if squash && !(s.fn f).squash then (true, (p.modFn f (fun v => { v with squash := true })).squashAll f) else (false, p) := by
  unfold State.resetRequest
  simp only [h, if_true]

/-! The end of a reset (R43–R45) -/

theorem State.fn_modFn (s : State) (f g : Nat) (h : Fn → Fn) : (s.modFn f h).fn g = if g = f then h (s.fn f) else s.fn g :=
  s.fn_setFn f g _

theorem State.ring_of_rt {s t : State} (h : t.rt = s.rt) (r : Nat) : t.ring r = s.ring r := by
  unfold State.ring
  rw [h]

/-- A ring is brought to its reset value. -/
def State.ringOff (s : State) (r : Nat) : State := if s.ring r = {} then s else s.setRing r {}

/-- A vector is masked, and its message is discarded. -/
def State.vecOff (s : State) (n : Nat) : State := if s.vec n = (s.vec n).cleared then s else s.setVec n (s.vec n).cleared

theorem State.ring_ringOff (s : State) (r q : Nat) : (s.ringOff r).ring q = if q = r then {} else s.ring q := by
  unfold State.ringOff
  split
  · next h => split <;> simp [*]
  · exact s.ring_setRing _ _ _

theorem State.ringOff_keeps (s : State) (r : Nat) : (s.ringOff r).fx = s.fx ∧ (s.ringOff r).vecs = s.vecs := by
  unfold State.ringOff
  split <;> exact ⟨rfl, rfl⟩

theorem State.vecOff_keeps (s : State) (n : Nat) : (s.vecOff n).fx = s.fx ∧ (s.vecOff n).rt = s.rt := by
  unfold State.vecOff
  split <;> exact ⟨rfl, rfl⟩

theorem State.mask_vecOff (s : State) (n m : Nat) : ((s.vecOff n).vec m).mask = if m = n then true else (s.vec m).mask := by
  unfold State.vecOff
  split
  · next h =>
    split
    · next e => rw [e, h]; rfl
    · rfl
  · rw [State.vec_setVec]
    split <;> rfl

theorem State.ringsOff (l : List Nat) (s : State) :
    (∀ r, (l.foldl State.ringOff s).ring r = if r ∈ l then {} else s.ring r) ∧ (l.foldl State.ringOff s).fx = s.fx ∧
      (l.foldl State.ringOff s).vecs = s.vecs := by
  induction l generalizing s with
  | nil => simp
  | cons a l ih =>
    obtain ⟨rings, fx, vecs⟩ := ih (s.ringOff a)
    obtain ⟨fx', vecs'⟩ := s.ringOff_keeps a
    refine ⟨fun r => ?_, fx.trans fx', vecs.trans vecs'⟩
    rw [List.foldl_cons, rings, State.ring_ringOff]
    by_cases hr : r ∈ l <;> simp [hr]

theorem State.vecsOff (l : List Nat) (s : State) :
    (∀ n, ((l.foldl State.vecOff s).vec n).mask = if n ∈ l then true else (s.vec n).mask) ∧
      (l.foldl State.vecOff s).fx = s.fx ∧ (l.foldl State.vecOff s).rt = s.rt := by
  induction l generalizing s with
  | nil => simp
  | cons a l ih =>
    obtain ⟨masks, fx, rt⟩ := ih (s.vecOff a)
    obtain ⟨fx', rt'⟩ := s.vecOff_keeps a
    refine ⟨fun n => ?_, fx.trans fx', rt.trans rt'⟩
    rw [List.foldl_cons, masks, State.mask_vecOff]
    by_cases hn : n ∈ l <;> simp [hn]

/-- Function `f` as its reset leaves it. -/
def Fn.atRest (v : Fn) : Fn :=
  { v with
    state := .ready, quiet := true, flrReq := false, byPort := false, pstate := 0, accepted := true, flush := [],
    eq := { v.eq with en := false, lost := 0, since := 0 } }

/-- The writes of function `f` are answered, its rings are off and its vectors masked. -/
def State.switchedOff (s : State) (f : Nat) : State :=
  (s.fn f).entry.vecs.foldl State.vecOff ((s.fn f).entry.rings.foldl State.ringOff
    { s with po := { s.po with txns := s.po.txns.filter (fun q => !(decide (q.fn = f) && q.write)) } })

/-- The mailboxes and the digest sessions of function `f` are empty. -/
def State.emptied (s : State) (f : Nat) : State :=
  ((s.modPath (.fnToBurin (BitVec.ofNat 10 f)) (fun p => { p with seq := 0, rx := none, ovr := 0 })).modPath
    (.burinToFn (BitVec.ofNat 10 f)) (fun p => { p with seq := 0, rx := none, ovr := 0 })).evtSync.modDg (fun d =>
      { d with ctxs := d.ctxs.filter (fun p => !decide (16384 + 64 * f ≤ p.1 ∧ p.1 < 16384 + 64 * f + 64)) })

/-- What a reset that ends does before it is told. -/
def State.putToRest (s : State) (f : Nat) : State := ((s.switchedOff f).emptied f).modFn f Fn.atRest

/-- The RESET_DONE record of a reset that ends (Table 2.8). -/
def State.toldReset (s u : State) (f : Nat) : State :=
  u.event 0 0x07 f noRing ([BitVec.ofNat 8 (b2n (s.fn f).squash), 0, 0, 0] ++ leBytes 4 (s.fn f).nCompleted.toNat ++
    leBytes 4 (s.fn f).nSquashed.toNat)

theorem State.resetDone_eq {s : State} {f : Nat} (h : (s.fn f).state = .resetting) (tags : (s.tagsOf f).isEmpty = true)
    (writes : s.writeRetries f = false) :
    s.resetDone f =
      let u := s.toldReset (s.putToRest f) f
      if (s.fn f).byPort || u.po.fiMode then u.sendReset f else u := by
  have go : ¬((s.fn f).state ≠ .resetting ∨ (s.tagsOf f).isEmpty = false ∨ s.writeRetries f = true) := by simp [h, tags, writes]
  exact if_neg go

theorem State.switchedOff_leaves (s : State) (f : Nat) :
    (s.switchedOff f).fx = s.fx ∧ (∀ r ∈ (s.fn f).entry.rings, (s.switchedOff f).ring r = {}) ∧
      (∀ n ∈ (s.fn f).entry.vecs, ((s.switchedOff f).vec n).mask = true) := by
  unfold State.switchedOff
  obtain ⟨rings, fx, -⟩ := State.ringsOff (s.fn f).entry.rings
    { s with po := { s.po with txns := s.po.txns.filter (fun q => !(decide (q.fn = f) && q.write)) } }
  generalize (s.fn f).entry.rings.foldl State.ringOff _ = u at rings fx ⊢
  obtain ⟨masks, fx', rt⟩ := State.vecsOff (s.fn f).entry.vecs u
  exact ⟨fx'.trans fx, fun r hr => (State.ring_of_rt rt r).trans ((rings r).trans (if_pos hr)),
    fun n hn => (masks n).trans (if_pos hn)⟩

theorem State.emptied_keeps (s : State) (f : Nat) :
    (s.emptied f).fx = s.fx ∧ (s.emptied f).rt = s.rt ∧ (s.emptied f).vecs = s.vecs := by
  simp [State.emptied, State.modPath, State.evtSync]

theorem State.putToRest_leaves (s : State) (f : Nat) :
    (s.putToRest f).fn f = (s.fn f).atRest ∧ (∀ r ∈ (s.fn f).entry.rings, (s.putToRest f).ring r = {}) ∧
      (∀ n ∈ (s.fn f).entry.vecs, ((s.putToRest f).vec n).mask = true) := by
  obtain ⟨fx, rings, masks⟩ := s.switchedOff_leaves f
  obtain ⟨fx', rt, vecs⟩ := (s.switchedOff f).emptied_keeps f
  unfold State.putToRest
  generalize (s.switchedOff f).emptied f = u at fx' rt vecs ⊢
  refine ⟨?fn, fun r hr => (State.ring_of_rt rt r).trans (rings r hr), fun n hn => ?vec⟩
  case fn => rw [State.fn_modFn, if_pos rfl, State.fn_of_fx (fx'.trans fx)]
  case vec => exact (congrArg Vec.mask (State.vec_of_vecs vecs n)).trans (masks n hn)

/-! What an event record leaves alone -/

theorem State.issue1_rt (s : State) (a : Access) (addr len : Nat) (d : List Byte) : (s.issue1 a addr len d).2.rt = s.rt := by
  unfold State.issue1 State.send State.transmit
  dsimp only
  (repeat' split) <;> rfl

theorem State.event_rt (s : State) (q t a r : Nat) (d : List Byte) : (s.event q t a r d).rt = s.rt := by
  unfold State.event
  dsimp only
  split
  · rfl
  · split
    · rfl
    · rw [State.putEvent_eq]
      dsimp only
      split <;> exact s.issue1_rt _ _ _ _

theorem State.event_fn {s : State} {q g : Nat} (h : g ≠ q) (t a r : Nat) (d : List Byte) : (s.event q t a r d).fn g = s.fn g := by
  unfold State.event
  dsimp only
  split
  · rfl
  · split
    · rw [State.fn_modFn, if_neg h]
    · rw [(s.putEvent_keeps q t a r d).1, State.fn_recordTaken, if_neg h]
      exact State.fn_of_fx (s.recordSent_keeps q t a r d).fx g

@[simp] theorem Vec.makeDue_mask (v : Vec) (p : BitVec 2) : (v.makeDue p).mask = v.mask := by
  unfold Vec.makeDue
  split <;> rfl

@[simp] theorem Vec.signal_mask (v : Vec) (p : BitVec 2) (now : DWord) : (v.signal p now).mask = v.mask := by
  unfold Vec.signal
  dsimp only
  split <;> simp

theorem State.event_mask (s : State) (q t a r : Nat) (d : List Byte) (n : Nat) :
    ((s.event q t a r d).vec n).mask = (s.vec n).mask := by
  unfold State.event
  dsimp only
  split
  · rfl
  · split
    · rfl
    · have kept : ((s.recordSent q t a r d).recordTaken q).vec n = s.vec n :=
        State.vec_of_vecs (s.recordSent_keeps q t a r d).vecs n
      rw [State.putEvent_eq]
      dsimp only
      split
      · unfold State.signal
        rw [State.vec_setVec]
        split
        · next e => rw [Vec.signal_mask, ← e, kept]
        · rw [kept]
      · rw [kept]

theorem State.sendReset_keeps (s : State) (f : Nat) :
    (s.sendReset f).fx = s.fx ∧ (s.sendReset f).rt = s.rt ∧ (s.sendReset f).vecs = s.vecs := by
  unfold State.sendReset
  split <;> exact ⟨rfl, rfl, rfl⟩

/-- What the end of a reset leaves of the function, its rings and its vectors. -/
theorem State.resetDone_leaves {s : State} {f : Nat} (hf : f ≠ 0) (h : (s.fn f).state = .resetting)
    (tags : (s.tagsOf f).isEmpty = true) (writes : s.writeRetries f = false) :
    (s.resetDone f).fn f = (s.fn f).atRest ∧ (∀ r ∈ (s.fn f).entry.rings, (s.resetDone f).ring r = {}) ∧
      (∀ n ∈ (s.fn f).entry.vecs, ((s.resetDone f).vec n).mask = true) := by
  obtain ⟨fn, rings, masks⟩ := s.putToRest_leaves f
  have told : (s.toldReset (s.putToRest f) f).fn f = (s.fn f).atRest ∧
      (∀ r ∈ (s.fn f).entry.rings, (s.toldReset (s.putToRest f) f).ring r = {}) ∧
      (∀ n ∈ (s.fn f).entry.vecs, ((s.toldReset (s.putToRest f) f).vec n).mask = true) :=
    ⟨(State.event_fn hf ..).trans fn, fun r hr => (State.ring_of_rt (State.event_rt ..) r).trans (rings r hr),
      fun n hn => (State.event_mask ..).trans (masks n hn)⟩
  rw [State.resetDone_eq h tags writes]
  dsimp only
  split
  · obtain ⟨fx, rt, vecs⟩ := (s.toldReset (s.putToRest f) f).sendReset_keeps f
    exact ⟨(State.fn_of_fx fx f).trans told.1, fun r hr => (State.ring_of_rt rt r).trans (told.2.1 r hr),
      fun n hn => by rw [State.vec_of_vecs vecs]; exact told.2.2 n hn⟩
  · exact told

/-! The drain's end (R41) -/

theorem State.drainTimeout_drains {s : State} {f : Nat} (h : (s.fn f).state = .resetting) (hd : (s.fn f).squash = false) :
    s.drainTimeout f = ((s.sq.tags.filter (fun p => decide (p.2.fn = f))).foldl (fun s (p : Nat × TagEnt) =>
      s.squashed f (s.localRing f p.2.ring) (s.flight p.2.pkt).head p.2.link p.2.desc.opcode.toNat false) s).squashAll f := by
  unfold State.drainTimeout
  exact if_neg (by simp [h, hd])

end Sys2Proof.Machine

namespace Sys2Proof
open Machine

/-- Settles O21: the request by the function's state, the message by that and the reset under way, the drain's end by its
mode, and the reset's end by what each of its steps leaves of the function, its rings and its vectors. -/
theorem functionReset : Obligations.FunctionReset := by
  refine ⟨fun s f q hf hs => .flrReq hf hs, fun s f hf up => ?message, fun s q => ⟨exec_flrReq_zero,
    fun up hd ho => exec_next rfl (State.flrMessage_zero up hd ho), fun f => exec_next rfl (if_pos (.inl rfl))⟩,
    fun s f hs hd => exec_next rfl (State.drainTimeout_drains hs hd), fun s f hf hs tags writes => ⟨_, rfl, ?ends⟩⟩
  case message =>
    intro v p
    have takes {t : State} (hn : f.toNat ≤ s.fx.numVf.toNat) (h1 : v.state ≠ .unbound) (h2 : v.state ≠ .ready)
        (h : (s.resetRequest f.toNat v.entry.flrMode true).2 = t) : exec (.flrRequest f true) s = .next t :=
      exec_next rfl ((State.flrMessage_vf hf up).trans ((if_neg (not_or.mpr ⟨by omega, not_or.mpr ⟨h1, h2⟩⟩)).trans h))
    refine ⟨fun idle => exec_next rfl ((State.flrMessage_vf hf up).trans (if_pos idle)), fun hn => ⟨fun hs => ?atWork,
      fun hs hm hq => takes hn (by simp [hs]) (by simp [hs]) ?turns, fun hs hm => takes hn (by simp [hs]) (by simp [hs]) ?goesOn⟩⟩
    case atWork =>
      refine takes hn ?_ ?_ (by rw [State.resetRequest_atWork _ _ hs])
      all_goals rcases hs with h | h <;> simp [h]
    case turns => simp [State.resetRequest_resetting _ hs, v, p, hm, hq] at hm hq ⊢
    case goesOn =>
      have drains : (v.entry.flrMode && !v.squash) = false := by rcases hm with h | h <;> simp [h]
      rw [State.resetRequest_resetting _ hs]
      dsimp only
      rw [if_neg (by simpa [v] using drains)]
  case ends =>
    obtain ⟨fn, rings, masks⟩ := State.resetDone_leaves hf hs tags writes
    simp only [fn]
    exact ⟨rfl, rfl, rfl, rfl, rfl, rfl, rfl, fun r hr => by rw [rings r hr], masks⟩

end Sys2Proof
end

section
/-! SUPPORT. Event queues, power-state notices and interrupt vectors (02_functions.md R48–R51; 04_chains.md R111–R115;
16_ports.md R410): what the registers of a function's page do, and the way of a vector's message. -/

namespace Sys2Proof

/-- Of two writes of an entry the later one stands. -/
theorem Tab.insert_insert {α : Type} (t : Tab α) (k : Nat) (v w : α) : (t.insert k v).insert k w = t.insert k w := by
  induction t with
  | nil => simp [Tab.insert]
  | cons p r ih =>
    obtain ⟨i, u⟩ := p
    by_cases h1 : k < i
    · simp [Tab.insert, h1]
    · by_cases h2 : i = k
      · simp [Tab.insert, h2]
      · simp [Tab.insert, h1, h2, ih]

end Sys2Proof

namespace Sys2Proof.Machine

variable {s : State} {f : BitVec 10} {q : PortReq}

/-- Two changes of a function that stays bound are one. -/
theorem State.modFn_modFn (s : State) {f : Nat} {g h : Fn → Fn} (hg : (g (s.fn f)).state ≠ .unbound)
    (hh : (h (g (s.fn f))).state ≠ .unbound) : (s.modFn f g).modFn f h = s.modFn f (fun v => h (g v)) := by
  have listed {v : Fn} (hv : v.state ≠ .unbound) : v ≠ {} := fun e => hv (by rw [e])
  have tab : Tab.set (Tab.set s.fx.fns {} f (g (s.fn f))) {} f (h (g (s.fn f))) = Tab.set s.fx.fns {} f (h (g (s.fn f))) := by
    simp only [Tab.set, if_neg (listed hg), if_neg (listed hh), Tab.insert_insert]
  have twice : (s.modFn f g).modFn f h =
      { s with fx := { s.fx with fns := Tab.set (Tab.set s.fx.fns {} f (g (s.fn f))) {} f (h ((s.modFn f g).fn f)) } } := rfl
  rw [twice, State.fn_modFn, if_pos rfl, tab]
  rfl

/-! A function's page -/

/-- A write of all of a register of a bound function's page does what the page does with the request's word. -/
theorem PortDoes.of_fnWhole {u : State} {i : Instr} {o : Nat} (hi : exec i s = .next (s.portWrite (fnPage f.toNat o) q))
    (ho : (o < 0x1000 ∧ o ≠ 8) ∨ 0x1088 ≤ o ∧ o < 0x4000) (bound : (s.fn f.toNat).state ≠ .unbound) (whole : q.be = 0xFF)
    (does : ∀ r : WReq, r.lo = true → r.hi = true → r.x = q.wdata → fnWrite s f.toNat o r = u) (up : u.latches = s.latches) :
    PortDoes s i (fnPage f.toNat o) q u := by
  refine .of_fnPage hi f.isLt (by omega) (by omega) (fun acc => ?_) (fun acc => (State.up_of_latches up).trans acc.up)
  rw [pageWrite_fn bound (by omega) (by omega), State.wreq_whole whole]
  exact does _ rfl rfl rfl

/-- A write of a lower 32-bit register of a bound function's page. -/
theorem PortDoes.of_fnLower {u : State} {i : Instr} {o : Nat} (hi : exec i s = .next (s.portWrite (fnPage f.toNat o) q.lower))
    (ho : (o < 0x1000 ∧ o ≠ 8) ∨ 0x1088 ≤ o ∧ o < 0x4000) (bound : (s.fn f.toNat).state ≠ .unbound)
    (does : LowWord s (fnPage f.toNat o) q.lower → fnWrite s f.toNat o (s.wreq (fnPage f.toNat o) q.lower) = u)
    (up : u.latches = s.latches) : PortDoes s i (fnPage f.toNat o) q.lower u := by
  refine .of_fnPage hi f.isLt (by omega) (by omega) (fun acc => ?_) (fun acc => (State.up_of_latches up).trans acc.up)
  rw [pageWrite_fn bound (by omega) (by omega)]
  exact does acc.lower

/-! Event queues -/

/-- An enable with a good size and vector starts a queue that is off at index 0 (R49). -/
theorem State.eqCtrl_starts {x : DWord} {f : Nat} (off : (s.fn f).eq.en = false) (en : bit x 0 = true)
    (size : (fld x 1 4).toNat ≤ 10) (vec : (fld x 16 14).toNat < (s.fn f).entry.vecCount.toNat) :
    s.eqCtrl f x = s.modFn f (fun v => { v with eq := { v.eq with
      en := true, size := fld x 1 4, vecEn := bit x 8, vector := fld x 16 14, typeEn := hiHalf x, prod := 0, cons := 0,
      since := 0 } }) := by
  have start : (bit x 0 && decide ((fld x 1 4).toNat ≤ 10) &&
      decide ((fld x 16 14).toNat < (s.fn f).entry.vecCount.toNat)) = true := by simp [en, size, vec]
  unfold State.eqCtrl
  simp only [off, start, if_true]
  rfl

theorem portDoes_eqCtrl (bound : (s.fn f.toNat).state ≠ .unbound) (off : (s.fn f.toNat).eq.en = false) (whole : q.be = 0xFF)
    (en : bit q.wdata 0 = true) (size : (fld q.wdata 1 4).toNat ≤ 10)
    (vec : (fld q.wdata 16 14).toNat < (s.fn f.toNat).entry.vecCount.toNat) :
    PortDoes s (.eqCtrlWrite f q) (fnPage f.toNat 0x3010) q (s.modFn f.toNat (fun v => { v with eq := { v.eq with
      en := true, size := fld q.wdata 1 4, vecEn := bit q.wdata 8, vector := fld q.wdata 16 14, typeEn := hiHalf q.wdata,
      prod := 0, cons := 0, since := 0 } })) :=
  .of_fnWhole rfl (by decide) bound whole
    (fun r _ _ hx => (congrArg (s.eqCtrl f.toNat) hx).trans (State.eqCtrl_starts off en size vec)) rfl

theorem portDoes_eqBase (bound : (s.fn f.toNat).state ≠ .unbound) (off : (s.fn f.toNat).eq.en = false) (whole : q.be = 0xFF) :
    PortDoes s (.eqBaseWrite f q) (fnPage f.toNat 0x3008) q
      (s.modFn f.toNat (fun v => { v with eq := { v.eq with base := fld q.wdata 12 45 } })) :=
  .of_fnWhole rfl (by decide) bound whole
    (fun r _ _ hx => (congrArg (s.eqBase f.toNat) hx).trans (if_neg (by simp [off]))) rfl

/-- The consumer index moves; with nothing lost no EQ_OVERFLOW record is due (R51). -/
theorem State.eqCons_moves {f : Nat} {c : Word} (h : (s.fn f).eq.since = 0) :
    s.eqCons f c = s.modFn f (fun v => { v with eq := { v.eq with cons := c } }) := by
  unfold State.eqCons
  have since : ((s.modFn f (fun v => { v with eq := { v.eq with cons := c } })).fn f).eq.since = 0 := by
    rw [State.fn_modFn, if_pos rfl, h]
  exact if_neg (by simp [since])

theorem portDoes_eqCons (bound : (s.fn f.toNat).state ≠ .unbound) (h : (s.fn f.toNat).eq.since = 0) :
    PortDoes s (.eqConsWrite f q) (fnPage f.toNat 0x3018) q.upper
      (s.modFn f.toNat (fun v => { v with eq := { v.eq with cons := hiHalf q.wdata } })) := by
  refine .of_fnPage rfl f.isLt (by decide) (by decide) (fun acc => ?_) (fun acc => acc.up)
  obtain ⟨-, hi, word⟩ := State.wreq_upper (s := s) (off := fnPage f.toNat 0x3018) (PortReq.upper_be acc.covers)
  rw [pageWrite_fn bound (by simp) (by decide)]
  have page (r : WReq) (hr : r.hi = true) : fnWrite s f.toNat 0x3018 r = s.eqCons f.toNat (hiHalf r.x) := by
    simp [fnWrite, hr]
  rw [page _ hi, word, PortReq.upper_wdata, State.eqCons_moves h]

/-- A read that the port takes answers the register's word and has its side effect. -/
theorem PortReads.of_word {u : State} {i : Instr} {off : Nat} {x : DWord} (hi : exec i s = .next (s.portRead off q))
    (hp : off ≠ powerOff) (word : regRead s off = x) (take : regTake s off (beLo q.be) (beHi q.be) = u) :
    PortReads s i off q x u := by
  intro acc
  have window : s.windowRead off (beLo q.be) (beHi q.be) = (regRead s off, regTake s off (beLo q.be) (beHi q.be)) := by
    unfold State.windowRead State.measured
    rw [if_neg hp]
  rw [hi, State.portRead_accepted acc, window, word, take]

/-- A read of FN_EQ_LOST answers the count and clears it (R407). -/
theorem portReads_eqLost (bound : (s.fn f.toNat).state ≠ .unbound) (lower : q.be = 0x0F) :
    PortReads s (.eqLostRead f q) (fnPage f.toNat 0x3020) q ((s.fn f.toNat).eq.lost.setWidth 64)
      (s.modFn f.toNat (fun v => { v with eq := { v.eq with lost := 0 } })) := by
  obtain ⟨h1, h2, h3⟩ := fnPage_bounds (o := 0x3020) f.isLt (by decide)
  refine .of_word rfl (by unfold powerOff; omega) ?word ?take
  case word =>
    rw [regRead_fnPage s f.isLt (by decide), pageRead, if_neg bound]
    rfl
  case take =>
    have lo : beLo q.be = true := by rw [lower]; decide
    unfold regTake
    simp only [h1, h2, h3, and_self, if_true, if_neg bound, lo]
    rfl

/-! Power-state notices (R48) -/

/-- A notice to a function without vectors has no message to wait for: it is accepted at once. -/
theorem State.pstateWrite_atOnce {f : Nat} (st : BitVec 2) (bound : (s.fn f).state ≠ .unbound)
    (none : (s.fn f).entry.vecCount = 0) :
    s.pstateWrite f st =
      (s.modFn f (fun v => { v with pstate := st, accepted := true, flush := [] })).event f 0x0A f noRing
        [BitVec.ofNat 8 st.toNat] := by
  have vecs : (s.fn f).entry.vecs = [] := by simp [FnEntry.vecs, none]
  have noticed : (s.modFn f (fun v => { v with pstate := st, accepted := false, flush := [] })).fn f =
      { s.fn f with pstate := st, accepted := false, flush := [] } := by rw [State.fn_modFn, if_pos rfl]
  have accepted : (s.modFn f (fun v => { v with pstate := st, accepted := false, flush := [] })).modFn f
      (fun v => { v with accepted := true }) =
        s.modFn f (fun v => { v with pstate := st, accepted := true, flush := [] }) :=
    State.modFn_modFn s bound bound
  unfold State.pstateWrite State.pstateDone
  simp only [vecs, List.foldl_nil, List.filter_nil, noticed, List.isEmpty_nil, and_self, if_true, accepted]

theorem portDoes_pstate (bound : (s.fn f.toNat).state ≠ .unbound) (none : (s.fn f.toNat).entry.vecCount = 0) :
    PortDoes s (.pstateNotice f q) (fnPage f.toNat 0x10) q.lower
      ((s.modFn f.toNat (fun v => { v with pstate := fld q.wdata 0 2, accepted := true, flush := [] })).event f.toNat 0x0A f.toNat
        noRing [BitVec.ofNat 8 (fld q.wdata 0 2).toNat]) := by
  refine .of_fnLower rfl (by decide) bound (fun low => ?_) (by simp)
  have page (r : WReq) (lo : r.lo = true) : fnWrite s f.toNat 0x10 r = s.pstateWrite f.toNat (fld r.x 0 2) := by
    simp [fnWrite, lo]
  rw [page _ low.lo, low.fld 0 2 (by decide), PortReq.lower_wdata, State.pstateWrite_atOnce _ bound none]

/-! Interrupt vectors -/

theorem regWrite_vecCfg {r : WReq} (f : Nat) (lo : r.lo = true) : fnWrite s f 0x2008 r = s.vecCfg f r.x := by
  simp [fnWrite, lo]

/-- FN_VEC_CFG with COUNT 0 is ignored in full (R111). -/
theorem State.vecCfg_ignored {f : Nat} {x : DWord} (h : fld x 12 12 = 0) : s.vecCfg f x = s := by
  unfold State.vecCfg
  split
  · rfl
  · exact if_pos h

/-- A function that has accepted its power state waits for no further message. -/
theorem State.unflush_accepted {f n : Nat} (h : (s.fn f).accepted = true) :
    s.unflush f n = s.modFn f (fun v => { v with flush := v.flush.filter (fun x => decide (x ≠ n)) }) := by
  unfold State.unflush State.pstateDone
  have accepted : ((s.modFn f (fun v => { v with flush := v.flush.filter (fun x => decide (x ≠ n)) })).fn f).accepted = true := by
    rw [State.fn_modFn, if_pos rfl, h]
  exact if_neg (fun h => by rw [accepted] at h; exact Bool.noConfusion h.1)

/-- FN_VEC_CFG sets the moderation of the selected vector and masks it; one with nothing pending does not become due. -/
theorem State.vecCfg_masks {f n : Nat} {x : DWord} (sel : s.selVec f = some n) (count : fld x 12 12 ≠ 0) (mask : bit x 31 = true)
    (pending : (s.vec n).pending = 0) (accepted : (s.fn f).accepted = true) :
    s.vecCfg f x = (s.setVec n { s.vec n with timerUs := fld x 0 10, count := fld x 12 12, mask := true }).modFn f
      (fun v => { v with flush := v.flush.filter (fun m => decide (m ≠ n)) }) := by
  unfold State.vecCfg
  simp only [sel, if_neg count, pending, mask, ne_eq, not_true_eq_false, decide_false, Bool.false_and, Bool.false_eq_true, if_false,
    if_true]
  exact State.unflush_accepted accepted

theorem portDoes_vecCfg {u : State} (bound : (s.fn f.toNat).state ≠ .unbound)
    (does : ∀ x, (∀ lo n, lo + n ≤ 32 → fld x lo n = fld q.wdata lo n) → bit x 31 = bit q.wdata 31 → s.vecCfg f.toNat x = u)
    (up : u.latches = s.latches) : PortDoes s (.vecCfgWrite f q) (fnPage f.toNat 0x2008) q.lower u := by
  refine .of_fnLower rfl (by decide) bound (fun low => (regWrite_vecCfg _ low.lo).trans (does _ ?_ ?_)) up
  · simpa using low.fld
  · simpa using low.bit 31 (by decide)

/-- TIMER_US after the first signal the vector becomes due (R111). -/
theorem State.vecTimer_due {f v : Nat} (owner : s.vecOwner v = some f) (pending : (s.vec v).pending ≠ 0)
    (timer : (s.vec v).timerUs ≠ 0) : s.vecTimer v = s.setVec v ((s.vec v).makeDue (s.fn f).pstate) := by
  unfold State.vecTimer
  simp only [owner]
  exact if_pos ⟨pending, timer⟩

/-- The message of vector `v` of function `f` on offer. -/
def State.offering (s u : State) (f v : Nat) : State :=
  (u.setVec v { s.vec v with offered := true, offeredAt := s.po.tm }).sendFi {
    reset := false, fn := f, vector := v - (s.fn f).entry.vecBase.toNat, wake := (s.vec v).wake, pool := v }

/-- A vector whose message may go: due, not masked, none of its own on offer, and the port has room (R111, R113–R115). -/
structure State.MayOffer (s : State) (f v : Nat) : Prop where
  owner : s.vecOwner v = some f
  due : (s.vec v).due = true
  mask : (s.vec v).mask = false
  offered : (s.vec v).offered = false
  up : s.po.fiUp = true
  room : s.po.fiWait.length < 64
  awake : (s.fn f).pstate ≠ 3

theorem State.MayOffer.goes {f v : Nat} (h : s.MayOffer f v) (flush : Bool) : s.offerVec v flush = s.offering s f v := by
  unfold State.offerVec
  simp only [h.owner]
  have awake : decide ((s.fn f).pstate ≠ 3) = true := decide_eq_true h.awake
  exact if_pos (by simp only [h.due, h.mask, h.offered, h.up, decide_eq_true h.room, awake, Bool.or_true]; rfl)

/-- The records of the vector that are written to function `f`'s event queue. -/
def State.signals (s : State) (f v : Nat) (w : Who) : Bool :=
  decide (w = .event f) && (s.fn f).eq.vecEn && decide ((s.fn f).eq.vector.toNat = v - (s.fn f).entry.vecBase.toNat)

theorem State.recordsAnswered_after {f v : Nat} (h : s.pf.irqAfterResp = true) :
    s.recordsAnswered f v = s.answered (s.signals f v) := by
  unfold State.recordsAnswered
  rw [if_pos h]
  congr 1
  funext w
  cases w with
  | event g => simp [State.recordOf, State.signals]
  | _ => simp [State.signals]

/-- The vectors and functions do not depend on the writes that are answered. -/
theorem State.MayOffer.answered {f v : Nat} (h : s.MayOffer f v) (p : Who → Bool) : (s.answered p).MayOffer f v :=
  ⟨h.owner, h.due, h.mask, h.offered, h.up, h.room, h.awake⟩

theorem State.MayOffer.offer {f v : Nat} (h : s.MayOffer f v) :
    (s.pf.irqAfterResp = false → s.offer v = s.offering s f v) ∧
    (s.pf.irqAfterResp = true → s.offer v = s.offering (s.answered (s.signals f v)) f v) := by
  unfold State.offer
  simp only [h.owner]
  refine ⟨fun now => ?_, fun after => ?_⟩
  · have rest : s.recordsAnswered f v = s := if_neg (by simp [now])
    rw [rest, h.goes]
  · rw [State.recordsAnswered_after after, (h.answered _).goes]
    rfl

theorem State.offerAgain_refused {v : BitVec 14} (h : (s.vec v.toNat).refusedAt.isSome = true) :
    s.offerAgain (.interrupt v) = s.offer v.toNat := if_pos h

/-- An accepted message leaves the port, and its vector is clear (R410). -/
theorem State.macc_accepted {m : FiMsg} {r : List FiMsg} (wait : s.po.fiWait = m :: r) (int : m.reset = false)
    (accepted : (s.fn m.fn).accepted = true) :
    s.macc true =
      (({ s with po := { s.po with fiWait := r } } : State).setVec m.pool
        { s.vec m.pool with pending := 0, due := false, blocked := false, offered := false, refusedAt := none }).modFn m.fn
          (fun v => { v with flush := v.flush.filter (fun n => decide (n ≠ m.pool)) }) := by
  unfold State.macc
  simp only [wait, int, Bool.false_eq_true, if_false, if_true]
  exact State.unflush_accepted accepted

end Sys2Proof.Machine

namespace Sys2Proof
open Machine

/-- Settles O22: each register of the function's page by what the page does with the request's word. -/
theorem eventQueues : Obligations.EventQueues := by
  intro s f q v bound
  exact ⟨fun off whole en size vec => portDoes_eqCtrl bound off whole en size vec,
    fun off whole => portDoes_eqBase bound off whole, portDoes_eqCons bound, portReads_eqLost bound, portDoes_pstate bound⟩

/-- Settles O23: FN_VEC_CFG by COUNT, a signal's timer, and the way of a message by what its vector and the port allow. -/
theorem vectors : Obligations.Vectors := by
  intro s f v q
  refine ⟨fun bound h => ?ignored, fun bound sel count mask pending accepted => ?masks,
    fun owner pending timer => exec_next rfl (State.vecTimer_due owner pending timer),
    fun owner due mask offered up room awake => ?offers, fun m r wait int accepted => ?accepts⟩
  case ignored => exact portDoes_vecCfg bound (fun x hx _ => State.vecCfg_ignored ((hx 12 12 (by decide)).trans h)) rfl
  case masks =>
    refine portDoes_vecCfg bound (fun x hx hb => ?_) rfl
    rw [State.vecCfg_masks sel (by rwa [hx 12 12 (by decide)]) (hb.trans mask) pending accepted, hx 0 10 (by decide),
      hx 12 12 (by decide)]
  case offers =>
    have may : s.MayOffer f.toNat v.toNat := ⟨owner, due, mask, offered, up, room, awake⟩
    obtain ⟨now, after⟩ := may.offer
    exact ⟨fun h => exec_next rfl (now h), fun h => exec_next rfl (after h),
      fun again h => exec_next rfl ((State.offerAgain_refused again).trans (now h))⟩
  case accepts =>
    exact ⟨_, exec_next rfl (State.macc_accepted wait int accepted), rfl, (State.vec_setVec ..).trans (if_pos rfl)⟩

end Sys2Proof
end

section
/-! SUPPORT. Rings (03_rings.md R54–R66, R85, R86, R434): what a fabric access leaves alone, what each operation on a ring does
where the ring lets it through, and what the returns of its reads do. -/

namespace Sys2Proof.Machine

/-! Fabric accesses leave everything alone but the ports and the messages that wait -/

/-- The state but for its ports and the fault messages that wait. -/
def State.core (s : State) : State := { s with po := {}, fc := { s.fc with waiting := [] } }

theorem State.core_issue1 (s : State) (a : Access) (addr len : Nat) (d : List Byte) : (s.issue1 a addr len d).2.core = s.core := by
  unfold State.issue1 State.send State.transmit
  dsimp only
  (repeat' split) <;> rfl

theorem State.core_issueAll (s : State) (a : Access) (ps : List (Nat × Nat)) (d : List Byte) :
    (s.issueAll a ps d).2.core = s.core := by
  induction ps generalizing s d with
  | nil => rfl
  | cons p r ih =>
    obtain ⟨addr, len⟩ := p
    unfold State.issueAll
    dsimp only
    rw [ih, State.core_issue1]

theorem State.core_fabRead (s : State) (w : Who) (fn addr len : Nat) (c : Bool) : (s.fabRead w fn addr len c).2.core = s.core :=
  s.core_issueAll _ _ _

theorem State.core_fabWrite (s : State) (w : Who) (fn addr : Nat) (d : List Byte) (c du : Bool) :
    (s.fabWrite w fn addr d c du).2.core = s.core :=
  s.core_issueAll _ _ _

theorem State.core_writeHeader (s : State) (f r : Nat) (hdr : BitVec 48) (off : Nat) (d : List Byte) :
    (s.writeHeader f r hdr off d).core = s.core :=
  s.core_fabWrite _ _ _ _ _ _

theorem State.ring_of_core {s t : State} (h : t.core = s.core) (r : Nat) : t.ring r = s.ring r := by
  show t.core.ring r = s.core.ring r
  rw [h]

theorem State.ringLive_of_core {s t : State} (h : t.core = s.core) (f r : Nat) : t.ringLive f r = s.ringLive f r := by
  show t.core.ringLive f r = s.core.ringLive f r
  rw [h]

/-! Operations on a ring -/

theorem State.ring_modRing (s : State) (r q : Nat) (g : Ring → Ring) :
    (s.modRing r g).ring q = if q = r then g (s.ring r) else s.ring q :=
  s.ring_setRing r q _

/-- Of two writes of a ring that is not at its reset value the later one stands. -/
theorem State.setRing_setRing (s : State) (r : Nat) {x y : Ring} (hx : x.state ≠ .disabled) (hy : y.state ≠ .disabled) :
    (s.setRing r x).setRing r y = s.setRing r y := by
  have listed {v : Ring} (hv : v.state ≠ .disabled) : v ≠ {} := fun e => hv (by rw [e])
  have tab : Tab.set (Tab.set s.rt.rings {} r x) {} r y = Tab.set s.rt.rings {} r y := by
    simp only [Tab.set, if_neg (listed hx), if_neg (listed hy), Tab.insert_insert]
  have twice : (s.setRing r x).setRing r y =
      { s with rt := { s.rt with rings := Tab.set (Tab.set s.rt.rings {} r x) {} r y } } := rfl
  rw [twice, tab]
  rfl

@[simp] theorem State.latches_writeHeader (s : State) (f r : Nat) (hdr : BitVec 48) (off : Nat) (d : List Byte) :
    (s.writeHeader f r hdr off d).latches = s.latches :=
  s.latches_fabWrite _ _ _ _ _ _

@[simp] theorem State.latches_writeState (s : State) (f r : Nat) (hdr : BitVec 48) (st : RingState) :
    (s.writeState f r hdr st).latches = s.latches :=
  s.latches_writeHeader _ _ _ _ _

@[simp] theorem State.latches_stopRing (s : State) (r reason : Nat) : (s.stopRing r reason).latches = s.latches := by
  unfold State.stopRing
  dsimp only
  (repeat' split) <;> simp

section
variable {s : State} {f r : Nat}

/-- A header read that is issued (R60, R62). -/
theorem State.readHeader_reads
    (ok : ((s.setRing r { s.ring r with hdrBusy := true, hdrOwed := false, lastHdr := s.po.tm }).fabRead (.ringHeader r) f
      ((s.ring r).hdr.toNat * 512) 16 true).1 = true) :
    s.readHeader f r = ((s.setRing r { s.ring r with hdrBusy := true, hdrOwed := false, lastHdr := s.po.tm }).fabRead
      (.ringHeader r) f ((s.ring r).hdr.toNat * 512) 16 true).2 := by
  unfold State.readHeader
  exact if_pos ok

/-- The header read of an ENABLE that is issued (R56). -/
theorem State.ringEnable_reads {h : BitVec 48}
    (ok : ((s.modRing r (fun x => { x with
      enabling := true, newHdr := h, heldKick := false, heldDisable := false, lastHdr := s.po.tm })).fabRead (.ringHeader r) f
        (h.toNat * 512) 64 true).1 = true) :
    s.ringEnable f r h = ((s.modRing r (fun x => { x with
      enabling := true, newHdr := h, heldKick := false, heldDisable := false, lastHdr := s.po.tm })).fabRead (.ringHeader r) f
        (h.toNat * 512) 64 true).2 := by
  unfold State.ringEnable
  exact if_pos ok

theorem State.ringKick_owed (busy : (s.ring r).hdrBusy = true) :
    s.ringKick f r = s.modRing r (fun x => { x with hdrOwed := true }) := if_pos busy

theorem State.ringKick_reads (idle : (s.ring r).hdrBusy = false) : s.ringKick f r = s.readHeader f r := if_neg (by simp [idle])

/-- While the ring manager works, an operation is carried out at once. -/
theorem State.ringDo_acts (op : RingOp) (hdr : BitVec 48) (h : s.stopped 0x008 = false) :
    s.ringDo f r op hdr = s.ringAct f r op hdr := if_neg (by simp [h])

/-- While it is fenced, an operation waits. -/
theorem State.ringDo_waits (op : RingOp) (hdr : BitVec 48) (h : s.stopped 0x008 = true) :
    s.ringDo f r op hdr =
      { s with rt := { s.rt with held := s.rt.held ++ [{ fn := f, ring := r, op := op, hdr := hdr }] } } := if_pos h

theorem State.ringAct_kick {hdr : BitVec 48} (h : (s.ring r).enabling = false) : s.ringAct f r .kick hdr = s.ringKick f r :=
  if_neg (by simp [h])

theorem State.ringAct_kickHeld {hdr : BitVec 48} (h : (s.ring r).enabling = true) :
    s.ringAct f r .kick hdr = s.setRing r { s.ring r with heldKick := true } := if_pos h

theorem State.ringAct_disable {hdr : BitVec 48} (h : (s.ring r).enabling = false) : s.ringAct f r .disable hdr = s.stopRing r 1 :=
  if_neg (by simp [h])

theorem State.ringAct_disableHeld {hdr : BitVec 48} (h : (s.ring r).enabling = true) :
    s.ringAct f r .disable hdr = s.setRing r { s.ring r with heldDisable := true } := if_pos h

theorem Ring.accepts_enable {x : Ring} (h : x.state = .disabled ∨ x.state = .stopped) (e : x.enabling = false) :
    x.accepts .enable = true := by
  rcases h with h | h <;> simp [Ring.accepts, h, e]

theorem Ring.refuses_enable {x : Ring} (h : x.state = .enabled ∨ x.enabling = true) : x.accepts .enable = false := by
  rcases h with h | h <;> simp [Ring.accepts, h]

theorem Ring.accepts_kick {x : Ring} (h : x.state = .enabled ∨ x.enabling = true) : x.accepts .kick = true := by
  rcases h with h | h <;> simp [Ring.accepts, h]

theorem Ring.accepts_disable {x : Ring} (h : x.state ≠ .disabled ∨ x.enabling = true) : x.accepts .disable = true := by
  rcases h with h | h <;> simp [Ring.accepts, h]

/-- A doorbell of a function that is ENABLED, for one of its rings that lets the operation through (R38, R58). -/
theorem State.doorbell_does {loc : Nat} {op : RingOp} {hdr : BitVec 48} (enabled : (s.fn f).state = .enabled)
    (own : loc < (s.fn f).entry.ringCount.toNat)
    (takes : (s.ring ((s.fn f).entry.ringBase.toNat + loc)).accepts op = true) :
    s.doorbell f loc op hdr = s.ringDo f ((s.fn f).entry.ringBase.toNat + loc) op hdr :=
  if_pos (by simp [enabled, own, takes])

end

/-! Doorbells on the register port -/

/-- A field of the low half of a word whose low half the request covers is the request's. -/
theorem State.fld_wreq_low {s : State} {off : Nat} {q : PortReq} (h : beLo q.be = true) {l n : Nat} (hl : l + n ≤ 32) :
    fld (s.wreq off q).x l n = fld q.wdata l n := by
  show fld (halves (loHalf (if beLo q.be then q.wdata else regRead s off)) _) l n = _
  rw [fld_halves_lo _ _ hl, if_pos h]

/-- FN_DOORBELL carries out its OP on the ring that it names. -/
theorem PortDoes.of_doorbell {s u : State} {f : BitVec 10} {q : PortReq} {op : Nat} {i : Instr}
    (hi : exec i s = .next (s.portWrite (fnPage f.toNat 0) (q.force 14 2 op))) (hop : op < 4)
    (enabled : (s.fn f.toNat).state = .enabled) (lo : s.Accepts (fnPage f.toNat 0) (q.force 14 2 op) → beLo q.be = true)
    (does : ∀ w : WReq, w.lo = true → fld w.x 0 14 = fld q.wdata 0 14 → (fld w.x 14 2).toNat = op →
      (q.be = 0xFF → w.hi = true ∧ fld w.x 16 48 = fld q.wdata 16 48) → s.doorbellWrite f.toNat w = u)
    (up : u.latches = s.latches) : PortDoes s i (fnPage f.toNat 0) (q.force 14 2 op) u := by
  refine .of_fnPage hi f.isLt (by decide) (by decide) (fun acc => ?_) (fun acc => (State.up_of_latches up).trans acc.up)
  rw [pageWrite_fn (by simp [enabled]) (by simp) (by decide)]
  refine does _ (lo acc) ?loc ?op (fun whole => ⟨?hi, ?hdr⟩)
  case loc => rw [State.fld_wreq_low (q := q.force 14 2 op) (lo acc) (by decide), fld_force_apart _ hop (by decide)]
  case op =>
    rw [State.fld_wreq_low (q := q.force 14 2 op) (lo acc) (by decide), fld_force _ (by decide), BitVec.toNat_ofNat, Nat.mod_eq_of_lt hop]
  case hi =>
    show beHi q.be = true
    rw [whole]
    decide
  case hdr =>
    rw [State.wreq_whole (q := q.force 14 2 op) whole]
    exact fld_force_apart _ hop (by decide)

theorem State.Accepts.wholeBe {s : State} {off : Nat} {q : PortReq} {lo n v : Nat} (h : s.Accepts off (q.whole.force lo n v)) :
    q.whole.be = 0xFF := PortReq.whole_be h.covers

section
variable {s u : State} {f : BitVec 10} {q : PortReq} {w : WReq} {r loc : Nat} (enabled : (s.fn f.toNat).state = .enabled)
  (hr : r = (s.fn f.toNat).entry.ringBase.toNat + loc) (own : loc < (s.fn f.toNat).entry.ringCount.toNat)
  (hloc : loc = (fld q.wdata 0 14).toNat)
include enabled hr own hloc

theorem portDoes_kick (lo : beLo q.be = true) (takes : (s.ring r).accepts .kick = true)
    (does : s.ringDo f.toNat r .kick 0 = u) (up : u.latches = s.latches) :
    PortDoes s (.kick f q) (fnPage f.toNat 0) (q.force 14 2 0) u := by
  refine .of_doorbell rfl (by decide) enabled (fun _ => lo) (fun w wlo named op _ => ?_) up
  subst hr
  unfold State.doorbellWrite
  simp only [wlo, named, op, Bool.not_true, Bool.false_eq_true, if_false, ← hloc]
  rw [State.doorbell_does enabled own takes, does]

theorem portDoes_doorbellEnable (takes : (s.ring r).accepts .enable = true)
    (does : s.ringDo f.toNat r .enable (fld q.wdata 16 48) = u) (up : u.latches = s.latches) :
    PortDoes s (.doorbellEnable f q) (fnPage f.toNat 0) (q.whole.force 14 2 1) u := by
  intro acc
  have whole := acc.wholeBe
  revert acc
  refine PortDoes.of_doorbell rfl (by decide) enabled (fun _ => by rw [whole]; decide) (fun w wlo named op all => ?_) up
  subst hr
  obtain ⟨whi, hdr⟩ := all whole
  unfold State.doorbellWrite
  rw [PortReq.whole_wdata] at named hdr
  simp only [wlo, whi, named, hdr, op, Bool.not_true, Bool.false_eq_true, if_false, if_true, ← hloc]
  rw [State.doorbell_does enabled own takes, does]

theorem portDoes_doorbellDisable (takes : (s.ring r).accepts .disable = true)
    (does : s.ringDo f.toNat r .disable 0 = u) (up : u.latches = s.latches) :
    PortDoes s (.doorbellDisable f q) (fnPage f.toNat 0) (q.whole.force 14 2 2) u := by
  intro acc
  have whole := acc.wholeBe
  revert acc
  refine PortDoes.of_doorbell rfl (by decide) enabled (fun _ => by rw [whole]; decide) (fun w wlo named op _ => ?_) up
  subst hr
  unfold State.doorbellWrite
  rw [PortReq.whole_wdata] at named
  simp only [wlo, named, op, Bool.not_true, Bool.false_eq_true, if_false, ← hloc]
  rw [State.doorbell_does enabled own takes, does]

end

/-! RT_CMD (R59) -/

/-- `s` with RT_CMD.ERR as given. -/
def State.rtErr (s : State) (e : BitVec 4) : State := { s with rt := { s.rt with err := e } }

@[simp] theorem State.latches_rtErr (s : State) (e : BitVec 4) : (s.rtErr e).latches = s.latches := rfl

/-- What RT_CMD does by its OP. -/
def State.rtCmd (s : State) (op : Nat) : State :=
  match op with
  | 1 => s.rtCommand .enable
  | 2 => s.rtCommand .disable
  | _ => s.rtErr 3

theorem regWrite_rtCmd {s : State} {r : WReq} (lo : r.lo = true) : regWrite s 0x30008 r = s.rtCmd (fld r.x 0 2).toNat := by
  show (if !r.lo then s else _) = _
  simp only [lo, Bool.not_true, Bool.false_eq_true, if_false]
  rfl

theorem PortDoes.of_rtCmd {s u : State} {i : Instr} {op : Nat} {q : PortReq}
    (hi : exec i s = .next (s.command 0x30008 0 2 op q)) (hop : op < 4) (does : s.rtCmd op = u) (up : u.latches = s.latches) :
    PortDoes s i 0x30008 (q.lower.force 0 2 op) u :=
  .of_code hi (by decide) ⟨hop, by decide⟩ (fun _ lo _ => regWrite_rtCmd lo) (fun _ => does) up

section
variable {s : State} {op : RingOp}

theorem State.rtCommand_free (h : s.ringOwner s.rt.sel.toNat = none) : s.rtCommand op = s.rtErr 2 := by
  simp only [State.rtCommand, h]
  rfl

variable {f : Nat} (owner : s.ringOwner s.rt.sel.toNat = some f)
include owner

theorem State.rtCommand_refused (h : (s.ring s.rt.sel.toNat).accepts op = false) : s.rtCommand op = s.rtErr 1 := by
  simp only [State.rtCommand, owner, h, Bool.and_false, Bool.false_eq_true, if_false]
  rfl

theorem State.rtCommand_does (enabled : (s.fn f).state = .enabled) (takes : (s.ring s.rt.sel.toNat).accepts op = true) :
    s.rtCommand op = (s.ringDo f s.rt.sel.toNat op s.rt.hdr).rtErr 0 := by
  simp only [State.rtCommand, owner, enabled, takes, decide_true, Bool.and_true, if_true]
  rfl

end

/-! The return of an ENABLE's header read (R56, R434) -/

/-- The ring manager works, and the block is not halted. -/
theorem State.ringTakes_iff (s : State) : s.ringTakes = true ↔ s.fc.halted = false ∧ s.stopped 0x008 = false := by
  simp [State.ringTakes]

theorem State.enableReturn_takes {s : State} {r f : Nat} (data : List Byte) (owner : s.ringOwner r = some f)
    (enabling : (s.ring r).enabling = true) (runs : s.fc.halted = false) (works : s.stopped 0x008 = false) :
    s.enableReturn r data = (s.answeredFirst (.ringHeader r) 1).enableCheck f r (fit 64 data) := by
  have takes : s.ringTakes = true := s.ringTakes_iff.mpr ⟨runs, works⟩
  simp only [State.enableReturn, owner, enabling, takes, Bool.and_true, if_true]

/-- The ring that a header describes (R56, R87). -/
def Ring.ofHeader (x : Ring) (b : List Byte) : Ring :=
  let w (o : Nat) : Word := BitVec.ofNat 32 (fieldAt b o 4)
  { state := .enabled, hdr := x.newHdr, newHdr := x.newHdr, lastHdr := x.lastHdr,
    sqBase := BitVec.ofNat 64 (fieldAt b 0x10 8), cqBase := BitVec.ofNat 64 (fieldAt b 0x18 8),
    sqSize := BitVec.ofNat 4 (b.getD 0x20 0).toNat, cqSize := BitVec.ofNat 4 (b.getD 0x21 0).toNat,
    vector := BitVec.ofNat 16 (fieldAt b 0x22 2), pollUs := BitVec.ofNat 16 (fieldAt b 0x24 2),
    sqProd := w 8, cqCons := w 4, fetchPos := w 8, issuePos := w 8, cqPos := w 12, cqProd := w 12 }

/-- `s` with ring `r` as its header describes it, the header's STATE written. -/
def State.enabledAs (s : State) (f r : Nat) (b : List Byte) : State :=
  (s.setRing r ((s.ring r).ofHeader b)).writeState f r ((s.ring r).ofHeader b).hdr .enabled

theorem State.enableCheck_ok {s : State} {f r : Nat} {b : List Byte} (ok : enableOk (s.fn f).entry b = true) :
    s.enableCheck f r b =
      if (s.ring r).heldDisable then (s.enabledAs f r b).stopRing r 1
      else
        let u := if (s.enabledAs f r b).ringLive f r then (s.enabledAs f r b).headerSeen f r (b.take 16) else s.enabledAs f r b
        if (s.ring r).heldKick && u.ringLive f r then u.ringKick f r else u := by
  unfold State.enableCheck
  dsimp only
  rw [if_pos ok]
  rfl

theorem State.enableCheck_bad {s : State} {f r : Nat} {b : List Byte} (bad : enableOk (s.fn f).entry b = false) :
    s.enableCheck f r b = s.refuseEnable f r (BitVec.ofNat 32 (fieldAt b 8 4)) 4 := by
  unfold State.enableCheck
  dsimp only
  rw [if_neg (by simp [bad])]

/-- A ring that has just been enabled is live, where its function is ENABLED and the block and the ring manager work. -/
theorem State.ringLive_enabledAs {s : State} {f r : Nat} (b : List Byte) (enabled : (s.fn f).state = .enabled)
    (runs : s.fc.halted = false) (works : s.stopped 0x008 = false) : (s.enabledAs f r b).ringLive f r = true := by
  rw [State.enabledAs, State.writeState, State.ringLive_of_core (State.core_writeHeader ..)]
  have stop : (s.setRing r ((s.ring r).ofHeader b)).stopped 0x008 = s.stopped 0x008 := rfl
  have fn : (s.setRing r ((s.ring r).ofHeader b)).fn f = s.fn f := rfl
  unfold State.ringLive
  rw [State.ring_setRing_same, fn, enabled, stop, works]
  show (!s.fc.halted && _ && _ && _ && _) = true
  rw [runs]
  rfl

end Sys2Proof.Machine

namespace Sys2Proof
open Machine

/-- Settles O24: a doorbell and RT_CMD by the ring's state and the ring manager's, and the return of an ENABLE's header read by
the header's checks. -/
theorem ringCommands : Obligations.RingCommands := by
  refine ⟨fun s f q r => ?commands, fun s ring f data => ?returns⟩
  case commands =>
    intro x v kick disable loc hdr read enabling
    have readLatches : read.2.latches = s.latches := State.latches_fabRead ..
    have enablingLatches (h : BitVec 48) : (enabling h).2.latches = s.latches := State.latches_fabRead ..
    refine ⟨fun on hr own works => ⟨fun lo he hs hb => ?owed, fun lo he hs hb ok => ?reads, fun lo he => ?kickHeld,
        fun hs he ok => ?enables, fun hs he => ?stops, fun he => ?disableHeld⟩, fun on hr own fenced hs => ?waits,
      fun hr owner on works => ⟨fun hs he ok => ?rtEnables, fun hs he => ?rtStops, fun h => ?rtRefused⟩,
      fun free => ⟨?free1, ?free2⟩, ?undefined⟩
    case owed =>
      exact portDoes_kick on hr own rfl lo (Ring.accepts_kick (.inl hs))
        ((State.ringDo_acts _ _ works).trans ((State.ringAct_kick he).trans (State.ringKick_owed hb))) rfl
    case reads =>
      exact portDoes_kick on hr own rfl lo (Ring.accepts_kick (.inl hs)) ((State.ringDo_acts _ _ works).trans
        ((State.ringAct_kick he).trans ((State.ringKick_reads hb).trans (State.readHeader_reads ok)))) readLatches
    case kickHeld =>
      exact portDoes_kick on hr own rfl lo (Ring.accepts_kick (.inr he))
        ((State.ringDo_acts _ _ works).trans (State.ringAct_kickHeld he)) rfl
    case enables =>
      exact portDoes_doorbellEnable on hr own rfl (Ring.accepts_enable hs he)
        ((State.ringDo_acts _ _ works).trans (State.ringEnable_reads ok)) (enablingLatches _)
    case stops =>
      exact portDoes_doorbellDisable on hr own rfl (Ring.accepts_disable (.inl hs))
        ((State.ringDo_acts _ _ works).trans (State.ringAct_disable he)) (by simp)
    case disableHeld =>
      exact portDoes_doorbellDisable on hr own rfl (Ring.accepts_disable (.inr he))
        ((State.ringDo_acts _ _ works).trans (State.ringAct_disableHeld he)) rfl
    case waits =>
      exact portDoes_doorbellDisable on hr own rfl (Ring.accepts_disable (.inl hs)) (State.ringDo_waits _ _ fenced) rfl
    case rtEnables =>
      subst hr
      refine .of_rtCmd rfl (by decide) (u := (enabling s.rt.hdr).2.rtErr 0) ?_ (enablingLatches _)
      refine (State.rtCommand_does owner on (Ring.accepts_enable hs he)).trans (congrArg (fun u : State => u.rtErr 0) ?_)
      exact (State.ringDo_acts _ _ works).trans (State.ringEnable_reads ok)
    case rtStops =>
      subst hr
      refine .of_rtCmd rfl (by decide) (u := (s.stopRing s.rt.sel.toNat 1).rtErr 0) ?_ (by simp)
      refine (State.rtCommand_does owner on (Ring.accepts_disable (.inl hs))).trans (congrArg (fun u : State => u.rtErr 0) ?_)
      exact (State.ringDo_acts _ _ works).trans (State.ringAct_disable he)
    case rtRefused =>
      subst hr
      exact .of_rtCmd rfl (by decide) (State.rtCommand_refused owner (Ring.refuses_enable h)) rfl
    case free1 => exact .of_rtCmd rfl (by decide) (State.rtCommand_free free) rfl
    case free2 => exact .of_rtCmd rfl (by decide) (State.rtCommand_free free) rfl
    case undefined =>
      refine .of_undefined (f := s.rtCmd) rfl (by decide) (by decide) (by decide) (fun _ lo _ => regWrite_rtCmd lo)
        (fun m hm h => ?_) rfl
      have code : m = 0 ∨ m = 3 := by have := of_decide_eq_false h; omega
      rcases code with rfl | rfl <;> rfl
  case returns =>
    intro r b u w x y owner enabling runs works
    have back (t : State) (h : u.enableCheck f r b = t) : exec (.enableCheck ring data) s = .next t :=
      exec_next rfl ((State.enableReturn_takes data owner enabling runs works).trans h)
    refine ⟨fun ok held => back _ ?_, fun ok held kick on => back _ ?_, fun bad => back _ (State.enableCheck_bad bad)⟩
    · rw [State.enableCheck_ok (s := u) ok, if_pos (show (u.ring r).heldDisable = true from held)]
      rfl
    · rw [State.enableCheck_ok (s := u) ok, if_neg (ne_true_of_eq_false (show (u.ring r).heldDisable = false from held))]
      dsimp only
      rw [State.ringLive_enabledAs (s := u) b on runs works, if_pos rfl, if_neg (by
        rw [show (u.ring r).heldKick = false from kick]; simp)]
      rfl

end Sys2Proof
end

section
/-! SUPPORT. The returns of a ring's reads, the issue of packets, and the end of links and of a ring's work (03_rings.md
R60–R86; 04_chains.md R90–R97). -/

namespace Sys2Proof.Machine

/-- Two changes of a ring that is not at its reset value. -/
theorem State.modRing_modRing (s : State) (r : Nat) {g h : Ring → Ring} (hg : (g (s.ring r)).state ≠ .disabled)
    (hh : (h (g (s.ring r))).state ≠ .disabled) : (s.modRing r g).modRing r h = s.setRing r (h (g (s.ring r))) := by
  have second : (s.modRing r g).modRing r h = (s.setRing r (g (s.ring r))).setRing r (h ((s.modRing r g).ring r)) := rfl
  rw [second, State.ring_modRing, if_pos rfl, State.setRing_setRing s r hg hh]

section
variable {s : State} {f r : Nat}

/-! The returns of a live ring's reads -/

/-- A live ring is ENABLED, its function too, and the block and the ring manager work. -/
theorem State.ringLive_iff :
    s.ringLive f r = true ↔ s.fc.halted = false ∧ (s.ring r).state = .enabled ∧ (s.fn f).state = .enabled ∧
      (s.ring r).dead = false ∧ s.stopped 0x008 = false := by
  simp [State.ringLive, and_assoc]

theorem State.ringTakes_of_live (h : s.ringLive f r = true) : s.ringTakes = true := by
  obtain ⟨runs, -, -, -, works⟩ := State.ringLive_iff.mp h
  exact s.ringTakes_iff.mpr ⟨runs, works⟩

/-- A live ring whose entry is changed stays live while it stays ENABLED. -/
theorem State.ringLive_setRing (h : s.ringLive f r = true) {x : Ring} (enabled : x.state = .enabled) (alive : x.dead = false) :
    (s.setRing r x).ringLive f r = true := by
  obtain ⟨runs, -, on, -, works⟩ := State.ringLive_iff.mp h
  refine State.ringLive_iff.mpr ⟨runs, ?_, on, ?_, works⟩
  · rw [State.ring_setRing_same, enabled]
  · rw [State.ring_setRing_same, alive]

/-- The new indices of a header read (R60, R66). -/
def headProd (b : List Byte) : Word := BitVec.ofNat 32 (fieldAt b 0 4)
def headCons (b : List Byte) : Word := BitVec.ofNat 32 (fieldAt b 4 4)

/-- Indices within the queues are taken, and entries fetched. -/
theorem State.headerSeen_within {b : List Byte}
    (sq : (headProd b - (s.ring r).fetchPos).toNat ≤ queueSize (s.ring r).sqSize)
    (cq : ((s.ring r).cqPos - headCons b).toNat ≤ queueSize (s.ring r).cqSize) :
    s.headerSeen f r b = (s.setRing r { s.ring r with sqProd := headProd b, cqCons := headCons b }).fetch f r := by
  unfold State.headerSeen
  exact if_neg (not_or.mpr ⟨Nat.not_lt.mpr sq, Nat.not_lt.mpr cq⟩)

theorem State.headerReturn_live {data : List Byte} (owner : s.ringOwner r = some f) (live : s.ringLive f r = true)
    (busy : (s.ring r).hdrBusy = true) (owed : (s.ring r).hdrOwed = false)
    (sq : (headProd (fit 16 data) - (s.ring r).fetchPos).toNat ≤ queueSize (s.ring r).sqSize)
    (cq : ((s.ring r).cqPos - headCons (fit 16 data)).toNat ≤ queueSize (s.ring r).cqSize) :
    s.headerReturn r data = ((s.answeredFirst (.ringHeader r) 1).setRing r { s.ring r with
      hdrBusy := false, hdrOwed := false, sqProd := headProd (fit 16 data), cqCons := headCons (fit 16 data) }).fetch f r := by
  obtain ⟨-, enabled, -, alive, -⟩ := State.ringLive_iff.mp live
  have kept : (s.answeredFirst (.ringHeader r) 1).ringLive f r = true := live
  have live' : ((s.answeredFirst (.ringHeader r) 1).modRing r (fun x => { x with hdrBusy := false, hdrOwed := false })).ringLive f r =
      true := State.ringLive_setRing kept enabled alive
  have ring : ((s.answeredFirst (.ringHeader r) 1).modRing r (fun x => { x with hdrBusy := false, hdrOwed := false })).ring r =
      { s.ring r with hdrBusy := false, hdrOwed := false } := (State.ring_modRing ..).trans (if_pos rfl)
  unfold State.headerReturn
  simp only [owner, busy, State.ringTakes_of_live live, Bool.and_self, if_true, live', owed, Bool.false_and, Bool.false_eq_true,
    if_false]
  rw [State.headerSeen_within (by rw [ring]; exact sq) (by rw [ring]; exact cq), ring]
  refine congrArg (fun u : State => u.fetch f r) (State.setRing_setRing _ _ ?_ ?_)
  all_goals exact fun h => RingState.noConfusion (enabled.symm.trans h)

theorem State.poll_reads (owner : s.ringOwner r = some f) (live : s.ringLive f r = true) (poll : (s.ring r).pollUs ≠ 0)
    (idle : (s.ring r).hdrBusy = false) : s.poll r = s.readHeader f r := by
  unfold State.poll
  simp only [owner, live, Bool.true_and, decide_eq_true_eq]
  rw [if_pos poll, State.ringKick_reads idle]

theorem State.entryReturn_joins {p : Word} {k : Nat} {rest : List (Word × Nat)} {data : List Byte}
    (owner : s.ringOwner r = some f) (live : s.ringLive f r = true) (reads : (s.ring r).reads = (p, k) :: rest) :
    s.entryReturn r data = ((s.answeredFirst (.ringEntry r) 1).setRing r { s.ring r with
      reads := rest, raw := (s.ring r).raw ++ chunks 64 (fit (64 * k) data) }).formLoop 70 f r := by
  unfold State.entryReturn
  simp only [owner, reads, State.ringTakes_of_live live, if_true]
  rfl

theorem State.tableReturn_completes {p y : Packet} {h : List Byte} {t : List (List Byte)} {data : List Byte}
    (owner : s.ringOwner r = some f) (live : s.ringLive f r = true) (table : (s.ring r).table = some p)
    (raw : (s.ring r).raw = h :: t)
    (ok : formCheck (isAuthority f (s.localRing f r)) ((s.ring r).raw.take (entrySpan h)) (fit ((h.getD 1 0).toNat * 48) data) =
      .ok y) :
    s.tableReturn r data = ((s.answered (· == .ringTable r)).setRing r { s.ring r with
      table := none, raw := (s.ring r).raw.drop (entrySpan h),
      ready := (s.ring r).ready ++ [{ y with head := p.head, indirect := true }] }).formLoop 70 f r := by
  obtain ⟨-, enabled, -, alive, -⟩ := State.ringLive_iff.mp live
  have kept : (s.answered (· == .ringTable r)).ringLive f r = true := live
  have live' : ((s.answered (· == .ringTable r)).modRing r (fun x => { x with table := none })).ringLive f r = true :=
    State.ringLive_setRing kept enabled alive
  have ring : ((s.answered (· == .ringTable r)).modRing r (fun x => { x with table := none })).ring r =
      { s.ring r with table := none } := (State.ring_modRing ..).trans (if_pos rfl)
  have loc : ((s.answered (· == .ringTable r)).modRing r (fun x => { x with table := none })).localRing f r = s.localRing f r := rfl
  rw [raw] at ok
  unfold State.tableReturn
  simp only [owner, table, raw, State.ringTakes_of_live live, Bool.not_true, Bool.false_eq_true, if_false, live', if_true, loc, ok]
  refine congrArg (fun u : State => u.formLoop 70 f r) ?_
  rw [State.modRing_modRing]
  · rw [← raw]
    rfl
  all_goals exact fun h => RingState.noConfusion (enabled.symm.trans h)

/-! A ring that stops (R85, R86) -/

/-- A stopping ring's header is told; the ring itself only stops. -/
theorem State.ring_stopRing (s : State) (r n : Nat) : (s.stopRing r n).ring r = (s.ring r).startStop n := by
  have own : ((s.dropFetches r).modRing r (fun x => x.startStop n)).ring r = (s.ring r).startStop n :=
    (State.ring_modRing ..).trans (if_pos rfl)
  unfold State.stopRing
  dsimp only
  split
  · split
    · exact own
    · exact (State.ring_of_core (State.core_writeHeader ..) r).trans own
  · exact own

/-- A read of a live ring that failed stops the ring with BUS_ERROR (R85). -/
theorem State.ring_fetchFails {header : Bool} (owner : s.ringOwner r = some f) (enabled : (s.ring r).state = .enabled)
    (h : (header && (s.ring r).enabling) = false) :
    ((s.fetchFails r header).ring r).state = .stopping ∧ ((s.fetchFails r header).ring r).stopWith = 2 := by
  have stop : s.fetchStop r = s.stopRing r 2 := if_pos enabled
  unfold State.fetchFails
  simp only [owner, h, Bool.false_eq_true, if_false, stop, State.ring_modRing, if_true, State.ring_stopRing]
  exact ⟨rfl, rfl⟩

/-! Issue (R64–R66, R97) -/

/-- The next packet of a live ring with room for its records is issued, refused or kept by the quota and the tags. -/
theorem State.issueNext_live {p : Packet} {rest : List Packet} (owner : s.ringOwner r = some f) (live : s.ringLive f r = true)
    (works : s.stopped 0x00A = false) (ready : (s.ring r).ready = p :: rest)
    (room : ((s.ring r).cqPos - (s.ring r).cqCons).toNat + (s.ring r).reserved + p.links.length ≤ queueSize (s.ring r).cqSize) :
    s.issueNext r =
      if (s.fn f).entry.tagQuota.toNat ≠ 0 ∧ (s.fn f).entry.tagQuota.toNat < p.links.length then
        ((((s.issuePast f r p).journalIssue f r p).refusePacket f r p 0 p.links).fetch f r).badActs f r
      else if (s.fn f).entry.tagQuota.toNat ≠ 0 ∧ (s.fn f).entry.tagQuota.toNat < (s.tagsOf f).length + p.links.length then s
      else if 16384 < s.sq.tags.length + p.links.length ∨ s.tagsClaimed r then s.waitTags r
      else
        let u : State := { s with sq := { s.sq with tagWait := s.sq.tagWait.erase r } }
        (((u.issuePast f r p).startPacket f r p).fetch f r).badActs f r := by
  have fits : (s.ring r).roomFor p.links.length = true := decide_eq_true room
  have go : ¬(s.ringLive f r = false ∨ (s.ring r).roomFor p.links.length = false ∨ s.stopped 0x00A = true) := by
    simp [live, fits, works]
  unfold State.issueNext
  simp only [owner, ready]
  exact if_neg go

end

/-! The end of links (R90–R95) -/

section
variable {s : State} {t : Nat} {e : TagEnt}

/-- Link `t`, whose entry is `e`, has ended as the one its packet stands at, while the sequencer and the ring manager work. -/
structure State.Ends (s : State) (t : Nat) (e : TagEnt) : Prop where
  held : s.tag? t = some e
  ended : e.phase = .ended
  current : (s.flight e.pkt).tags[(s.flight e.pkt).cur]? = some t
  runs : s.fc.halted = false
  rings : s.stopped 0x008 = false
  chains : s.stopped 0x00A = false

/-- The end of a link by its status and its place in the packet. -/
theorem State.Ends.linkEnded (h : s.Ends t e) :
    s.linkEnded t =
      let fl := s.flight e.pkt
      let u := s.answered (fun w => decide (w = .link t))
      let v := if fl.cur = 0 then u else u.releaseOut (fl.tags.getD (fl.cur - 1) t)
      if (e.status ≠ .ok ∨ fl.cur + 1 = fl.tags.length) ∧ s.nopWaits e.pkt fl then
        (if e.status ≠ .ok then s.chainFails fl t else s)
      else if e.status ≠ .ok then (u.chainFails fl t).packetEnd e.pkt
      else if fl.cur + 1 = fl.tags.length then v.packetEnd e.pkt
      else ((v.setFlight e.pkt { fl with cur := fl.cur + 1 }).enqueue (fl.tags.getD (fl.cur + 1) t)).schedule := by
  obtain ⟨held, ended, current, runs, rings, chains⟩ := h
  unfold State.linkEnded
  simp only [held]
  rw [if_neg (by simp [ended, current, runs, rings, chains])]
  simp only [Bool.or_eq_true, decide_eq_true_eq]

theorem State.endLink_held (h : s.tag? t = some e) (st : Status) (n : Nat) (res : DWord) :
    s.endLink t st n res = s.setTag t { e with phase := .ended, status := st, outBytes := n, result := res } := by
  simp only [State.endLink, h]

theorem Desc.nopOk_iff (d : Desc) :
    d.nopOk = true ↔ d.slot = 0 ∧ d.inLen = 0 ∧ d.outLen = 0 ∧ d.paramLen = 0 ∧ d.inChain = false ∧ d.outChain = false := by
  simp [Desc.nopOk, and_assoc]

/-- A NOP that the sequencer takes ends at once, by its descriptor (R73). -/
theorem State.nopLink_ends (h : s.tag? t = some e) (runs : s.fc.halted = false) (op : e.desc.opcode = 0)
    (queued : e.phase = .queued) (works : s.stopped 0x00A = false) :
    s.nopLink t = s.setTag t
      { e with phase := .ended, status := if e.desc.nopOk then .ok else .unsupported, outBytes := 0, result := 0 } := by
  unfold State.nopLink
  simp only [h]
  rw [if_pos ⟨op, queued, runs, works⟩, State.endLink_held h]

theorem State.undefinedLink_ends {w : Nat} (h : s.tag? t = some e) (runs : s.fc.halted = false) (unit : e.phase = .running w)
    (unknown : s.opKnown e.desc.opcode.toNat = false) : s.undefinedLink t = s.finish t .unsupported 0 0 := by
  unfold State.undefinedLink
  simp only [h, unit, unknown, runs]
  rfl

end

/-! The end of a ring's work (R81, R82, R86) -/

section
variable {s : State} {f r : Nat}

theorem State.cqProdWrite_publishes {n : Word} (owner : s.ringOwner r = some f) (takes : s.ringTakes = true)
    (state : (s.ring r).state = .enabled ∨ (s.ring r).state = .stopping) (records : (s.ring r).noRecords = false)
    (some_ : 0 < (n - (s.ring r).cqProd).toNat)
    (most : (n - (s.ring r).cqProd).toNat ≤ ((s.ring r).cqPos - (s.ring r).cqProd).toNat) :
    s.cqProdWrite r n =
      ((s.answeredFirst (.completion r) (n - (s.ring r).cqProd).toNat).setRing r { s.ring r with cqProd := n }).writeHeader f r
        (s.ring r).hdr 0x0C (leBytes 4 n.toNat) := by
  have at_work : (decide ((s.ring r).state = .enabled) || decide ((s.ring r).state = .stopping)) = true := by simpa using state
  unfold State.cqProdWrite
  simp only [owner]
  exact if_pos (by rw [at_work, decide_eq_true (And.intro some_ most), records, takes]; rfl)

theorem State.recordFail_stops (owner : s.ringOwner r = some f)
    (waits : s.po.txns.any (fun q => decide (q.who = .completion r)) = true) (enabled : (s.ring r).state = .enabled) :
    s.recordFail r =
      ((s.answeredFirst (.completion r) 1).stopRing r 2).modRing r (fun x => { x with noRecords := true }) := by
  have stop : ((s.answeredFirst (.completion r) 1).ring r).state = .enabled := enabled
  unfold State.recordFail State.completionFails
  rw [if_pos (by simp [owner, waits])]
  dsimp only
  rw [if_pos (.inl stop)]

theorem State.ringStop_takes (owner : s.ringOwner r = some f) (takes : s.ringTakes = true) : s.ringStop r = s.stopComplete f r := by
  simp only [State.ringStop, owner, takes, if_true]

end

/-- The state in which a stopping ring ends: DISABLED after a DISABLE, else STOPPED (R86). -/
def Ring.final (x : Ring) : RingState := if x.stopWith = 1 then .disabled else .stopped

theorem Ring.final_stopped (x : Ring) : x.final = .stopped ↔ x.stopWith ≠ 1 := by
  by_cases h : x.stopWith = 1 <;> simp [Ring.final, h]

/-- What a ring that has stopped publishes: SQ_CONS, CQ_PROD and STATE. -/
def State.stopTold (s : State) (f r : Nat) : State :=
  let x := s.ring r
  let a := ((s.answered (fun w => decide (w = .completion r))).setRing r { x with
    state := x.final, reason := x.stopWith, stopWith := 0, cqProd := x.cqPos, noRecords := false }).publishSq f r
  (a.writeHeader f r x.hdr 0x0C (leBytes 4 x.cqPos.toNat)).writeHeader f r x.hdr 0x28 [BitVec.ofNat 8 x.final.code]

theorem State.stopComplete_ends {s : State} {f r : Nat} (stopping : (s.ring r).state = .stopping)
    (none : (s.tagsOfRing r).isEmpty = true) :
    s.stopComplete f r =
      (if (s.ring r).stopWith = 1 then s.stopTold f r
       else (s.stopTold f r).writeHeader f r (s.ring r).hdr 0x29 [(s.ring r).stopWith]).ringStopped f r (s.ring r).issuePos
        (s.ring r).stopWith.toNat := by
  unfold State.stopComplete State.stopTold State.writeState
  rw [if_pos (by simp [stopping, none])]
  dsimp only
  have fin : (if (s.ring r).stopWith = 1 then RingState.disabled else .stopped) = (s.ring r).final := rfl
  rw [fin]
  by_cases h : (s.ring r).stopWith = 1
  · rw [if_pos h, if_neg (fun e => (s.ring r).final_stopped.mp e h)]
  · rw [if_neg h, if_pos ((s.ring r).final_stopped.mpr h)]

end Sys2Proof.Machine

namespace Sys2Proof
open Machine

/-- Settles O25: each return by what it finds of a ring that is live. -/
theorem ringReturns : Obligations.RingReturns := by
  intro s ring f data r x b prod cons hdr read owner live
  obtain ⟨-, enabled, -, -, works⟩ := State.ringLive_iff.mp live
  have fails {what : FetchKind} {t : State} {header : Bool} (h : s.fetchError r what = t.fetchFails r header)
      (kept : t.rt = s.rt ∧ t.fx = s.fx) (he : (header && x.enabling) = false) :
      ∃ u, exec (.fetchError ring what) s = .next u ∧ (u.ring r).state = .stopping ∧ (u.ring r).stopWith = 2 := by
    have ring : t.ring r = x := State.ring_of_rt kept.1 r
    have own : t.ringOwner r = some f := by rw [← owner]; unfold State.ringOwner; rw [kept.2]
    exact ⟨_, exec_next rfl h, State.ring_fetchFails own (ring ▸ enabled) (ring ▸ he)⟩
  refine ⟨fun busy owed sq cq => exec_next rfl (State.headerReturn_live owner live busy owed sq cq),
    fun poll idle ok => exec_next rfl ((State.poll_reads owner live poll idle).trans (State.readHeader_reads ok)),
    fun p k rest reads => exec_next rfl (State.entryReturn_joins owner live reads),
    fun p h t y table raw ok => exec_next rfl (State.tableReturn_completes owner live table raw ok),
    fun busy he => fails (t := s.answeredFirst (.ringHeader r) 1) (header := true) ?header ⟨rfl, rfl⟩ (by simp [he]),
    fun reads => fails (t := s.answered (· == .ringEntry r)) (header := false) ?entry ⟨rfl, rfl⟩ rfl,
    fun table => fails (t := s.answered (· == .ringTable r)) (header := false) ?table ⟨rfl, rfl⟩ rfl⟩
  all_goals unfold State.fetchError; dsimp only; rw [if_neg (by simp [works])]
  case header => exact if_pos (by simp [x, r] at busy ⊢; simp [busy])
  case entry => exact if_neg (by simpa using reads)
  case table => exact if_pos table

/-- Settles O26: the issue of the next packet by the function's quota, the free tags and the rings that wait for them. -/
theorem packetsIssue : Obligations.PacketsIssue := by
  intro s ring f p rest r x n quota u owner live works ready room
  have issue := State.issueNext_live owner live works ready room
  refine ⟨fun within => ?fits, fun h0 long => exec_next rfl (issue.trans (if_pos ⟨h0, long⟩))⟩
  case fits =>
    have fits : ¬(quota ≠ 0 ∧ quota < n) := by omega
    have free : ¬(quota ≠ 0 ∧ quota < (s.tagsOf f).length + n) := by omega
    rw [if_neg fits, if_neg free] at issue
    refine ⟨fun room unclaimed => exec_next rfl (issue.trans (if_neg ?_)), fun waits => exec_next rfl (issue.trans (if_pos waits))⟩
    simp only [unclaimed, Bool.false_eq_true, or_false]
    omega

/-- Settles O27: a link's end by its status and place, NOP and unknown opcodes, and a ring's end by what it still publishes. -/
theorem linksAndRingsEnd : Obligations.LinksAndRingsEnd := by
  refine ⟨fun s tag e => ?links, fun s tag e held runs => ⟨fun op queued works => ?nop, fun w unit unknown =>
    exec_next rfl (State.undefinedLink_ends held runs unit unknown)⟩, fun s ring f n => ?rings⟩
  case links =>
    intro t fl u v held ended current runs rings chains
    have ends := State.Ends.linkEnded ⟨held, ended, current, runs, rings, chains⟩
    refine ⟨fun ok more => exec_next rfl (ends.trans ?_), fun ok last nop => exec_next rfl (ends.trans ?_),
      fun bad nop => exec_next rfl (ends.trans ?_), fun bad nop => exec_next rfl (ends.trans ?_)⟩
    · have more' : ¬fl.cur + 1 = fl.tags.length := by omega
      dsimp only
      rw [if_neg (by simp [ok]; intro h; exact absurd h more'), if_neg (by simp [ok]), if_neg more']
    · dsimp only
      rw [if_neg (by rw [nop]; simp), if_neg (by simp [ok]), if_pos last]
    · dsimp only
      rw [if_neg (by rw [nop]; simp), if_pos bad]
    · dsimp only
      rw [if_pos ⟨.inl bad, nop⟩, if_pos bad]
  case nop =>
    have done := State.nopLink_ends held runs op queued works
    refine ⟨fun h => exec_next rfl (done.trans ?_), fun h => exec_next rfl (done.trans ?_)⟩
    · rw [e.desc.nopOk_iff.mpr h]
      rfl
    · have bad : e.desc.nopOk = false := by
        rw [← Bool.not_eq_true, e.desc.nopOk_iff]
        rintro ⟨h1, h2, h3, h4, h5, h6⟩
        simp [h1, h2, h3, h4, h5, h6] at h
      rw [bad]
      rfl
  case rings =>
    intro r x fin owner runs works
    have takes : s.ringTakes = true := s.ringTakes_iff.mpr ⟨runs, works⟩
    refine ⟨fun state records some_ most => exec_next rfl (State.cqProdWrite_publishes owner takes state records some_ most),
      fun waits enabled => exec_next rfl (State.recordFail_stops owner waits enabled), fun stopping none => ?_⟩
    exact exec_next rfl ((State.ringStop_takes owner takes).trans (State.stopComplete_ends stopping none))

end Sys2Proof
end

section
/-! SUPPORT. The key map and the stream table (05_stream_verifier.md R131–R136): what ST_KM_CMD and ST_SS_CMD do by their OP. -/

namespace Sys2Proof.Machine

variable {s : State}

@[simp] theorem State.latches_modSt (s : State) (f : StreamSt → StreamSt) : (s.modSt f).latches = s.latches := rfl
@[simp] theorem State.latches_kmErr (s : State) (n : Nat) : (s.kmErr n).latches = s.latches := rfl
@[simp] theorem State.latches_kmPut (s : State) (i : Nat) (k : KmEnt) : (s.kmPut i k).latches = s.latches := rfl
@[simp] theorem State.latches_modKm (s : State) (i : Nat) (f : KmEnt → KmEnt) : (s.modKm i f).latches = s.latches := rfl
@[simp] theorem State.latches_kmActivate (s : State) (i : Nat) : (s.kmActivate i).latches = s.latches := rfl
@[simp] theorem State.latches_ssErr (s : State) (n : Nat) : (s.ssErr n).latches = s.latches := rfl

/-! ST_KM_CMD -/

theorem regWrite_kmCmd {r : WReq} (lo : r.lo = true) : regWrite s 0x51008 r = s.kmCmd (fld r.x 0 3).toNat := by
  show (if r.lo then s.kmCmd (fld r.x 0 3).toNat else s) = _
  rw [if_pos lo]

/-- A write of `op` to ST_KM_CMD does what that OP does. -/
theorem PortDoes.of_kmCmd {u : State} {i : Instr} {op : Nat} {q : PortReq}
    (hi : exec i s = .next (s.command 0x51008 0 3 op q)) (hop : op < 8) (does : s.kmCmd op = u) (up : u.latches = s.latches) :
    PortDoes s i 0x51008 (q.lower.force 0 3 op) u :=
  .of_code hi (by decide) ⟨hop, by decide⟩ (fun _ lo _ => regWrite_kmCmd lo) (fun _ => does) up

theorem State.kmCmd_busy (h : s.st.kmBusy = true) (op : Nat) : s.kmCmd op = s.kmErr 6 := if_pos h

section
variable (idle : s.st.kmBusy = false)
include idle

theorem State.kmCmd_load : s.kmCmd 1 = s.kmLoad := if_neg (by simp [idle])
theorem State.kmCmd_commit : s.kmCmd 2 = s.kmCommit := if_neg (by simp [idle])
theorem State.kmCmd_invalidate : s.kmCmd 3 = s.kmInvalidate := if_neg (by simp [idle])
theorem State.kmCmd_activate : s.kmCmd 4 = s.activate := if_neg (by simp [idle])

theorem State.kmCmd_undefined {op : Nat} (h : op = 0 ∨ 5 ≤ op) : s.kmCmd op = s.kmErr 5 := by
  unfold State.kmCmd
  rw [if_neg (by simp [idle])]
  split <;> first | omega | rfl

end

/-! COMMIT (R132) -/

theorem State.kmCommit_range (h : s.kmRange s.st.kmStage = true) : s.kmCommit = s.kmErr 4 := if_pos h

theorem State.kmCommit_dup (h1 : s.kmRange s.st.kmStage = false) (h2 : s.kmDup s.st.kmSel.toNat s.st.kmStage = true) :
    s.kmCommit = s.kmErr 1 := (if_neg (by simp [h1])).trans (if_pos h2)

/-- A slot in the cache is looked at at once. -/
theorem State.kmCommit_cached {e : SlotEnt} (h1 : s.kmRange s.st.kmStage = false)
    (h2 : s.kmDup s.st.kmSel.toNat s.st.kmStage = false) (h3 : 256 ≤ s.st.kmStage.slot.toNat)
    (h4 : s.look s.st.kmStage.slot.toNat = .hit e) : s.kmCommit = s.kmFinish s.st.kmSel.toNat s.st.kmStage := by
  unfold State.kmCommit
  simp only [h1, h2, h4, Bool.false_eq_true, if_false, if_neg (Nat.not_lt.mpr h3)]

theorem State.kmFinish_unfit {i : Nat} {k : KmEnt} {e : SlotEnt} (h1 : 256 ≤ k.slot.toNat) (h2 : s.look k.slot.toNat = .hit e)
    (h3 : s.kmSlotOk k e = false) :
    s.kmFinish i k = (s.modSt (fun t => { t with kmBusy := false, kmWait := none })).kmErr 2 := by
  unfold State.kmFinish
  simp only [h2, h3, Bool.false_eq_true, if_false, if_neg (Nat.not_lt.mpr h1)]

theorem State.kmFinish_fit {i : Nat} {k : KmEnt} {e : SlotEnt} (h1 : 256 ≤ k.slot.toNat) (h2 : s.look k.slot.toNat = .hit e)
    (h3 : s.kmSlotOk k e = true) :
    s.kmFinish i k = s.kmPut i { k with
      valid := true, active := s.kmActive i k, failed := false, pending := false, failCount := 0, actTime := 0, expired := false } := by
  unfold State.kmFinish
  simp only [h2, h3, if_true, if_neg (Nat.not_lt.mpr h1)]

/-! ACTIVATE (ST_KM_ACT) and the end of a change (R133) -/

theorem State.activate_later (h1 : (s.st.km.get {} s.st.kmSel.toNat).valid = true) (h2 : s.st.kmAct ≠ 0) :
    s.activate = (s.kmErr 0).modKm s.st.kmSel.toNat (fun k => { k with pending := true, actTime := s.st.kmAct }) :=
  (if_pos h1).trans (if_neg h2)

theorem State.activate_now (h1 : (s.st.km.get {} s.st.kmSel.toNat).valid = true) (h2 : s.st.kmAct = 0) :
    s.activate = (s.kmErr 0).kmActivate s.st.kmSel.toNat :=
  (if_pos h1).trans (if_pos h2)

theorem State.actReached_due {i : Nat} (h1 : (s.st.km.get {} i).valid = true) (h2 : (s.st.km.get {} i).pending = true)
    (h3 : (s.st.km.get {} i).actTime.toNat ≤ s.po.tm.toNat) : s.actReached i = s.kmActivate i :=
  if_pos (by rw [h1, h2, decide_eq_true h3]; rfl)

theorem State.kmBusyClear_unused {n slot : Nat} (h1 : s.st.kmOld = some (n, slot)) (h2 : s.kmUsed n true = false) :
    s.kmBusyClear = (s.modSt (fun t => { t with kmBusy := t.kmWait.isSome, kmOld := none })).retryLookups := by
  unfold State.kmBusyClear
  simp only [h1, h2, Bool.false_eq_true, if_false]

/-! ST_SS_CMD (R134, R136) -/

theorem regWrite_ssCmd {r : WReq} (lo : r.lo = true) : regWrite s 0x52008 r = s.ssCmd (fld r.x 0 2).toNat := by
  show (if r.lo then s.ssCmd (fld r.x 0 2).toNat else s) = _
  rw [if_pos lo]

theorem PortDoes.of_ssCmd {u : State} {i : Instr} {op : Nat} {q : PortReq}
    (hi : exec i s = .next (s.command 0x52008 0 2 op q)) (hop : op < 4) (does : s.ssCmd op = u) (up : u.latches = s.latches) :
    PortDoes s i 0x52008 (q.lower.force 0 2 op) u :=
  .of_code hi (by decide) ⟨hop, by decide⟩ (fun _ lo _ => regWrite_ssCmd lo) (fun _ => does) up

/-- Another valid entry of the stream table names the staged publisher on one of its ports (R134). -/
def State.ssDup (s : State) : Bool :=
  s.st.ss.any (fun x => decide (x.1 ≠ s.st.ssSel.toNat) && x.2.valid && decide (x.2.ports &&& s.st.ssStage.ports ≠ 0) &&
    decide (x.2.appid = s.st.ssStage.appid) && decide (x.2.srcKind = s.st.ssStage.srcKind) &&
    decide (x.2.src = s.st.ssStage.src))

/-- The staged entry has a reserved encoding (R134). -/
def State.ssBad (s : State) : Prop := s.st.ssStage.srcKind = 3 ∨ (s.st.ssStage.fresh = 1 ∧ s.st.ssStage.wrap = 0)

theorem State.ssCommit_bad (h : s.ssBad) : s.ssCommit = s.ssErr 4 := if_pos h

theorem State.ssCommit_dup (h : ¬s.ssBad) (dup : s.ssDup = true) : s.ssCommit = s.ssErr 1 := (if_neg h).trans (if_pos dup)

theorem State.ssCommit_writes (h : ¬s.ssBad) (dup : s.ssDup = false) :
    s.ssCommit = (s.modSt (fun t => { t with
      ss := t.ss.set {} s.st.ssSel.toNat { s.st.ssStage with valid := true, win := if s.st.ssStage.seeded then 1 else 0 } })).ssErr
        0 :=
  (if_neg h).trans (if_neg (ne_true_of_eq_false dup))

end Sys2Proof.Machine

namespace Sys2Proof
open Machine

/-- Settles O33: ST_KM_CMD by its OP, COMMIT by its checks in their order, and what a change waits for. -/
theorem keyMapCommands : Obligations.KeyMapCommands := by
  intro s q entry i k e op
  refine ⟨fun idle => ⟨?load, fun hr => ?range, fun hr hd => ?dup, fun sl hr hd hs hl => ⟨fun hk => ?unfit, fun hk => ?fit⟩,
    ?invalidate, fun hv ha => ?later, fun hv ha => ?now, ?undefined⟩, fun busy => ?busy,
    fun hv hp ht => exec_next rfl (State.actReached_due hv hp ht),
    fun n slot old unused => exec_next rfl (State.kmBusyClear_unused old unused)⟩
  case load => exact .of_kmCmd rfl (by decide) (State.kmCmd_load idle) rfl
  case range => exact .of_kmCmd rfl (by decide) ((State.kmCmd_commit idle).trans (State.kmCommit_range hr)) rfl
  case dup => exact .of_kmCmd rfl (by decide) ((State.kmCmd_commit idle).trans (State.kmCommit_dup hr hd)) rfl
  case unfit =>
    exact .of_kmCmd rfl (by decide) ((State.kmCmd_commit idle).trans
      ((State.kmCommit_cached hr hd hs hl).trans (State.kmFinish_unfit hs hl hk))) rfl
  case fit =>
    exact .of_kmCmd rfl (by decide) ((State.kmCmd_commit idle).trans
      ((State.kmCommit_cached hr hd hs hl).trans (State.kmFinish_fit hs hl hk))) rfl
  case invalidate => exact .of_kmCmd rfl (by decide) (State.kmCmd_invalidate idle) rfl
  case later => exact .of_kmCmd rfl (by decide) ((State.kmCmd_activate idle).trans (State.activate_later hv ha)) rfl
  case now => exact .of_kmCmd rfl (by decide) ((State.kmCmd_activate idle).trans (State.activate_now hv ha)) rfl
  case undefined =>
    exact .of_undefined (f := s.kmCmd) rfl (by decide) (by decide) (by decide) (fun _ lo _ => regWrite_kmCmd lo)
      (fun m _ h => State.kmCmd_undefined idle (by have := of_decide_eq_false h; omega)) rfl
  case busy =>
    have six := State.kmCmd_busy busy
    exact ⟨.of_kmCmd rfl (by decide) (six 1) rfl, .of_kmCmd rfl (by decide) (six 2) rfl, .of_kmCmd rfl (by decide) (six 3) rfl,
      .of_kmCmd rfl (by decide) (six 4) rfl⟩

/-- Settles O34: ST_SS_CMD by its OP, and COMMIT by its checks in their order. -/
theorem streamTableCommands : Obligations.StreamTableCommands := by
  intro s q i e dup bad
  refine ⟨.of_ssCmd rfl (by decide) rfl rfl, fun h => ?bad, fun h hd => ?dup, fun h hd => ?writes,
    .of_ssCmd rfl (by decide) rfl rfl, .of_ssCmd rfl (by decide) rfl rfl⟩
  case bad => exact .of_ssCmd rfl (by decide) (State.ssCommit_bad h) rfl
  case dup => exact .of_ssCmd rfl (by decide) (State.ssCommit_dup h hd) rfl
  case writes => exact .of_ssCmd rfl (by decide) (State.ssCommit_writes h hd) rfl

end Sys2Proof
end

section
/-! SUPPORT. Stream ports (05_stream_verifier.md R116–R126, R137, R143): a frame's way into the FIFO, the parser's decision, the
verdict of a tag unit, and the port's state. -/

namespace Sys2Proof

/-- An entry that is written anew is written once, whatever stood there before: the first value is not the default. -/
theorem Tab.erase_insert {α : Type} (t : Tab α) (k : Nat) (v : α) : (t.insert k v).erase k = t.erase k := by
  induction t with
  | nil => simp [Tab.insert, Tab.erase]
  | cons p r ih =>
    obtain ⟨i, u⟩ := p
    by_cases h1 : k < i
    · simp [Tab.insert, Tab.erase, h1]
    · by_cases h2 : i = k
      · simp [Tab.insert, Tab.erase, h2]
      · simp [Tab.insert, Tab.erase, h1, h2, ih]

/-- Of two writes of an entry the later one stands, where the first does not unlist it. -/
theorem Tab.set_set {α : Type} [DecidableEq α] (t : Tab α) (d : α) (k : Nat) {v : α} (w : α) (hv : v ≠ d) :
    (t.set d k v).set d k w = t.set d k w := by
  unfold Tab.set
  rw [if_neg hv]
  split
  · exact t.erase_insert k v
  · exact t.insert_insert k v w

end Sys2Proof

namespace Sys2Proof.Machine

variable {s : State} {p : Nat}

/-! A port's entry -/

@[simp] theorem State.sport_modPort_same (s : State) (p : Nat) (g : SPort → SPort) : (s.modPort p g).sport p = g (s.sport p) :=
  Tab.get_modify_same _ _ _ _

/-- Two changes of a port that is not OFF after the first are one. -/
theorem State.modPort_modPort (s : State) (p : Nat) {g : SPort → SPort} (h : SPort → SPort) (hg : (g (s.sport p)).state ≠ .off) :
    (s.modPort p g).modPort p h = s.modPort p (fun _ => h (g (s.sport p))) := by
  have tab : Tab.set (Tab.set s.st.ports {} p (g (s.sport p))) {} p (h (g (s.sport p))) =
      Tab.set s.st.ports {} p (h (g (s.sport p))) := Tab.set_set _ _ _ _ (fun e => hg (by rw [e]))
  have twice : (s.modPort p g).modPort p h =
      { s with st := { s.st with
        ports := Tab.set (Tab.set s.st.ports {} p (g (s.sport p))) {} p (h ((s.modPort p g).sport p)) } } := rfl
  rw [twice, State.sport_modPort_same, tab]
  rfl

/-! The ingress FIFO (R121–R124) -/

theorem foldl_min_min (l : List Nat) (a b : Nat) : l.foldl min (min a b) = min (l.foldl min a) b := by
  induction l generalizing a with
  | nil => rfl
  | cons c l ih => rw [List.foldl_cons, List.foldl_cons, ← ih, min_right_comm]

/-- An item that holds the stage at `w` keeps the release count from passing it. -/
theorem foldl_min_holds (l m : List Nat) (w k : Nat) : (l ++ [w] ++ m).foldl min (w + k) = (l ++ m).foldl min w := by
  have first : (l ++ [w]).foldl min (w + k) = l.foldl min w := by
    rw [List.foldl_append, List.foldl_cons, List.foldl_nil, ← foldl_min_min, min_eq_right (Nat.le_add_right w k)]
  rw [List.foldl_append, first, List.foldl_append]

theorem foldl_min_le (l : List Nat) (a : Nat) : l.foldl min a ≤ a := by
  induction l generalizing a with
  | nil => exact le_rfl
  | cons b l ih => exact (ih _).trans (min_le_left a b)

theorem SPort.released_le (x : SPort) : x.released ≤ x.written := foldl_min_le _ _

/-- The stages in use are those written and not released, modulo 512. -/
theorem SPort.occ_eq (x : SPort) : x.occ = (x.written - x.released) % 512 := by
  have le := x.released_le
  unfold SPort.occ SPort.writeCount SPort.releaseCount
  rw [BitVec.toNat_sub, BitVec.toNat_ofNat, BitVec.toNat_ofNat]
  omega

theorem SPort.full_iff (x : SPort) : x.full = true ↔ 255 ≤ x.occ := decide_eq_true_iff

/-- `k` further stages are written behind what the FIFO holds, the first of them held by the item `i`. -/
def SPort.behind (x : SPort) (i : FifoItem) (k : Nat) : SPort := { x with fifo := x.fifo ++ [i], written := x.written + k }

theorem SPort.occ_behind {x : SPort} {i : FifoItem} {k : Nat} (hold : i.hold = x.written) (room : x.occ + k < 512) :
    (x.behind i k).occ = x.occ + k := by
  have released : (x.behind i k).released = x.released := by
    unfold SPort.released SPort.behind
    simp only [List.map_append, List.map_cons, List.map_nil, hold]
    exact foldl_min_holds _ _ _ _
  have le := x.released_le
  rw [SPort.occ_eq] at room ⊢
  rw [released]
  rw [SPort.occ_eq]
  show (x.written + k - x.released) % 512 = _
  omega

/-- Marks that rise are taken once, at the last. -/
theorem SPort.mark_mark {x : SPort} {w : Nat} (h : x.occ ≤ ({ x with written := w } : SPort).occ) :
    ({ x.mark with written := w } : SPort).mark = ({ x with written := w } : SPort).mark := by
  have occ : max (BitVec.ofNat 9 (max x.occHwm.toNat x.occ)).toNat ({ x with written := w } : SPort).occ =
      max x.occHwm.toNat ({ x with written := w } : SPort).occ := by
    have h1 : x.occHwm.toNat < 512 := x.occHwm.isLt
    have h2 : x.occ < 512 := (x.writeCount - x.releaseCount).isLt
    rw [BitVec.toNat_ofNat, Nat.mod_eq_of_lt (show _ < 2 ^ 9 by omega)]
    omega
  have owed : max (BitVec.ofNat 16 (max x.owedHwm.toNat x.owed)).toNat x.owed = max x.owedHwm.toNat x.owed := by
    have h1 : x.owedHwm.toNat < 65536 := x.owedHwm.isLt
    have h2 : x.owed ≤ 65535 := min_le_left _ _
    rw [BitVec.toNat_ofNat, Nat.mod_eq_of_lt (show _ < 2 ^ 16 by omega)]
    omega
  show ({ x.mark with
    written := w, occHwm := BitVec.ofNat 9 (max (BitVec.ofNat 9 (max x.occHwm.toNat x.occ)).toNat ({ x with written := w } : SPort).occ),
    owedHwm := BitVec.ofNat 16 (max (BitVec.ofNat 16 (max x.owedHwm.toNat x.owed)).toNat x.owed) } : SPort) = _
  rw [occ, owed]
  rfl

theorem SPort.mark_idem (x : SPort) : x.mark.mark = x.mark := SPort.mark_mark (w := x.written) le_rfl

theorem SPort.closeGap_none {x : SPort} (h : x.gapOpen = false) : x.closeGap = x := by
  have same : onOpenGap (fun g => { g with isOpen := false }) x.fifo = x.fifo := by
    refine (List.map_congr_left (g := id) fun i hi => ?_).trans (List.map_id _)
    have shut := List.any_eq_false.mp h i hi
    cases i with
    | frame f => rfl
    | gap g => exact if_neg shut
  unfold SPort.closeGap
  rw [same]

/-! A frame that is stored whole -/

section
variable {f : FrameIn} {q : Queued} {n : Nat} (still : f.moves = [])
include still

theorem SPort.beat_first {x : SPort} {way : Intake} (room : x.full = false) (shut : x.gapOpen = false) :
    SPort.beat f q n (x, way) 0 = ((x.behind (.frame { q with pos := x.written }) 1).mark, .stored) := by
  unfold SPort.beat
  simp only [still, List.filter_nil, List.foldl_nil, if_true, room, Bool.false_eq_true, if_false, SPort.closeGap_none shut,
    reduceCtorEq, false_and]
  rfl

theorem SPort.beat_next {x : SPort} {i : Nat} (h0 : i ≠ 0) (h1 : i < 288) (room : x.full = false) :
    SPort.beat f q n (x, .stored) i = (({ x with written := x.written + 1 } : SPort).mark, .stored) := by
  unfold SPort.beat
  simp only [still, List.filter_nil, List.foldl_nil, if_neg h0, if_true, room, Bool.false_eq_true, if_false, if_pos h1,
    reduceCtorEq, false_and]

/-- The first `k` beats of a frame for which there is room. -/
theorem SPort.beats_stored {x : SPort} {k : Nat} (unread : q.read = 0) (shut : x.gapOpen = false) (h0 : 0 < k)
    (room : x.occ + k ≤ 255) :
    (List.range k).foldl (SPort.beat f q n) (x, .stored) =
      ((x.behind (.frame { q with pos := x.written }) k).mark, .stored) := by
  have hold : FifoItem.hold (.frame { q with pos := x.written }) = x.written := by
    simp [FifoItem.hold, unread, markAt]
  have occ (j : Nat) (hj : j ≤ k) := SPort.occ_behind (k := j) hold (by omega)
  induction k, h0 using Nat.le_induction with
  | base =>
    refine SPort.beat_first still ?_ shut
    rw [← Bool.not_eq_true, SPort.full_iff]
    omega
  | succ k hk ih =>
    have before := ih (by omega) (fun j hj => occ j (by omega))
    have room' : (x.behind (.frame { q with pos := x.written }) k).mark.full = false := by
      rw [← Bool.not_eq_true, SPort.full_iff]
      show ¬255 ≤ (x.behind (.frame { q with pos := x.written }) k).occ
      rw [occ k (by omega)]
      omega
    rw [List.range_succ, List.foldl_append, before, List.foldl_cons, List.foldl_nil,
      SPort.beat_next still (by omega) (by omega) room']
    refine congrArg (·, Intake.stored) (SPort.mark_mark ?_)
    show (x.behind (.frame { q with pos := x.written }) k).occ ≤ (x.behind (.frame { q with pos := x.written }) (k + 1)).occ
    rw [occ k (by omega), occ (k + 1) le_rfl]
    omega

theorem SPort.intake_stored {x : SPort} (unread : q.read = 0) (shut : x.gapOpen = false)
    (room : x.occ + max 1 (frameBeats f.bytes.length) ≤ 255) :
    x.intake f q = (x.behind (.frame { q with pos := x.written }) (max 1 (frameBeats f.bytes.length))).mark := by
  unfold SPort.intake
  dsimp only
  rw [SPort.beats_stored still unread shut (by omega) room, still]
  rfl

/-! A frame that finds the FIFO full -/

theorem SPort.beat_firstFull {x : SPort} {way : Intake} (full : x.full = true)
    (stays : (x.drop q.seq f.first f.last).full = true) :
    SPort.beat f q n (x, way) 0 = ((x.drop q.seq f.first f.last).mark, .dropped) := by
  unfold SPort.beat
  simp only [still, List.filter_nil, List.foldl_nil, if_true, full, stays, Bool.true_eq_false, and_false, if_false]

theorem SPort.beat_dropped {x : SPort} {i : Nat} (h0 : i ≠ 0) (full : x.full = true) :
    SPort.beat f q n (x, .dropped) i = (x.mark, .dropped) := by
  unfold SPort.beat
  simp only [still, List.filter_nil, List.foldl_nil, if_neg h0, reduceCtorEq, full, Bool.true_eq_false, and_false, if_false]

theorem SPort.intake_dropped {x : SPort} (full : x.full = true) (stays : (x.drop q.seq f.first f.last).full = true) :
    x.intake f q = (x.drop q.seq f.first f.last).mark := by
  have beats (k : Nat) (h0 : 0 < k) : (List.range k).foldl (SPort.beat f q (max 1 (frameBeats f.bytes.length))) (x, .stored) =
      ((x.drop q.seq f.first f.last).mark, .dropped) := by
    induction k, h0 using Nat.le_induction with
    | base => exact SPort.beat_firstFull still full stays
    | succ k hk ih =>
      rw [List.range_succ, List.foldl_append, ih, List.foldl_cons, List.foldl_nil,
        SPort.beat_dropped still (by omega) (x := (x.drop q.seq f.first f.last).mark) stays, SPort.mark_idem]
  unfold SPort.intake
  dsimp only
  rw [beats _ (by omega), still]
  rfl

end

/-- The marker of a dropped frame leaves the FIFO full (R124). -/
theorem SPort.full_drop {x : SPort} (seq : Word) (first last : DWord) (full : 255 ≤ x.occ) (room : x.occ < 511) :
    (x.drop seq first last).full = true := by
  rw [SPort.full_iff]
  unfold SPort.drop
  split
  · have hold : (onOpenGap (fun g => { g with last := seq, count := seq - g.first + 1, tLast := last }) x.fifo).map
        FifoItem.hold = x.fifo.map FifoItem.hold := by
      unfold onOpenGap
      rw [List.map_map]
      refine List.map_congr_left fun i _ => ?_
      cases i with
      | frame f => rfl
      | gap g => simp only [Function.comp]; split <;> rfl
    have same : SPort.occ { x with fifo := onOpenGap (fun g =>
        { g with last := seq, count := seq - g.first + 1, tLast := last }) x.fifo } = x.occ := by
      unfold SPort.occ SPort.releaseCount SPort.released
      simp only [hold]
      rfl
    rw [same]
    exact full
  · have opens : (x.openGap seq false first last x.written).occ = x.occ + 1 :=
      SPort.occ_behind (i := .gap {
        first := seq, last := seq, count := 1, cut := false, tFirst := first, tLast := last, isOpen := true, pos := x.written })
        rfl (by omega)
    omega

/-! A frame arrives -/

/-- The port once the frame has its number. -/
def SPort.numbering (x : SPort) : SPort := { x with nextSeq := x.nextSeq + 1, numbered := satAdd x.numbered 1 }

/-- The frame as the FIFO holds it. -/
def State.queuedAs (s : State) (p : Nat) (f : FrameIn) : Queued :=
  { seq := (s.sport p).nextSeq, bytes := f.bytes, truncated := f.abort || f.cutBySof, first := f.first, last := f.last,
    pos := (s.sport p).written, owed := (s.sport p).owed, units := (s.tagUnits p true).length, q := s.hmacCost p f.bytes }

/-- Neither the port's number nor its counters decide what a frame costs. -/
theorem State.hmacCost_numbering (s : State) (p : Nat) (b : List Byte) :
    (s.modPort p SPort.numbering).hmacCost p b = s.hmacCost p b := by
  have udp : ((s.modPort p SPort.numbering).sport p).udp = (s.sport p).udp := by rw [State.sport_modPort_same]; rfl
  unfold State.hmacCost
  rw [udp]
  rfl

theorem State.edgeRepairs_modPort {g : SPort → SPort} (h : (g (s.sport p)).state = (s.sport p).state) :
    (s.modPort p g).edgeRepairs p = s.edgeRepairs p := by
  unfold State.edgeRepairs
  rw [State.sport_modPort_same, h]
  rfl

/-- A frame at a running port takes the next number; the port's edge repairs, or the frame enters the FIFO. -/
theorem State.frameArrival_runs {f : FrameIn} (h : (s.sport p).state = .run ∨ (s.sport p).state = .restart) :
    (s.edgeRepairs p = false →
      s.frameArrival p f =
        (s.modPort p (fun _ => (s.sport p).numbering.intake f (s.queuedAs p f))).assignUnits p) ∧
    (s.edgeRepairs p = true →
      s.frameArrival p f = (s.modPort p (fun _ => (s.sport p).numbering)).emit p
        { seq := (s.sport p).nextSeq, code := .repair, time := f.last }) := by
  have open_ : ¬((s.sport p).state = .off ∨ (s.sport p).state = .draining) := by rcases h with h | h <;> simp [h]
  have edge : (s.modPort p SPort.numbering).edgeRepairs p = s.edgeRepairs p := State.edgeRepairs_modPort rfl
  have start : s.frameArrival p f =
      if (s.modPort p SPort.numbering).edgeRepairs p then
        (s.modPort p SPort.numbering).emit p { seq := (s.sport p).nextSeq, code := .repair, time := f.last }
      else
        ((s.modPort p SPort.numbering).modPort p (fun x => x.intake f { s.queuedAs p f with
          q := (s.modPort p SPort.numbering).hmacCost p f.bytes })).assignUnits p := if_neg open_
  rw [start, edge]
  refine ⟨fun clean => ?_, fun repairs => if_pos repairs⟩
  rw [if_neg (ne_true_of_eq_false clean), State.hmacCost_numbering,
    State.modPort_modPort s p _ (fun e => open_ (.inl e))]
  rfl

/-! The parser -/

/-- The parser's decision on the frame at its position (R119, R126). -/
theorem State.parseFrame_takes {g : Queued} {r : List FifoItem} (h : (s.sport p).fifo = .frame g :: r) :
    let u := s.modPort p (fun y => { y with fifo := r })
    let stop (code : Verdict) (y : Option Parsed) : State := u.early p g.seq code y (u.firstEntry p g.bytes) g.last
    let y0 := (layer2Appid g.bytes).map (fun a => ({ appid := a } : Parsed))
    s.parseFrame p =
      if s.edgeRepairs p then stop .repair y0
      else if g.truncated then stop .truncated y0
      else
        match readFrame (s.sport p).udp.toNat g.bytes with
        | .malformed => stop .malformed y0
        | .lenMismatch y => stop (if s.wrapBad p y then .malformed else .lenMismatch) (some y)
        | .bare y => stop (if s.wrapBad p y then .malformed else .unprotected) (some y)
        | .secured y => if s.wrapBad p y then stop .malformed (some y) else u.lookup p g y (u.firstEntry p g.bytes) := by
  intro u stop y0
  have edge : u.edgeRepairs p = s.edgeRepairs p := State.edgeRepairs_modPort rfl
  unfold State.parseFrame
  simp only [h]
  show (if u.edgeRepairs p then _ else _) = _
  rw [edge]
  rfl

theorem State.parseGap_closed {g : Gap} {r : List FifoItem} (h : (s.sport p).fifo = .gap g :: r) (shut : g.isOpen = false) :
    s.parseGap p =
      (s.modPort p (fun y => { y with fifo := r })).emitRange p .overload g.first g.count.toNat g.tLast := by
  unfold State.parseGap
  simp only [h, shut, Bool.false_eq_true, if_false]

/-! ST_PCTRL and the port's state (R120) -/

theorem regWrite_pctrl {port : Fin 4} {r : WReq} (lo : r.lo = true) :
    regWrite s (0x50000 + port.val * 0x100) r = s.portCtrl port.val r.x := by
  unfold regWrite
  rw [if_neg (by omega)]
  simp only [show (0x50000 + port.val * 0x100) / 0x10000 = 5 by omega,
    show (0x50000 + port.val * 0x100) % 0x10000 = port.val * 0x100 by omega]
  unfold stWrite
  rw [if_pos (show port.val * 0x100 < 0x400 by omega), if_pos ⟨by omega, lo⟩,
    show port.val * 0x100 / 0x100 = port.val by omega]

theorem PortDoes.of_pctrl {u : State} {i : Instr} {port : Fin 4} {v : Nat} {q : PortReq}
    (hi : exec i s = .next (s.command (0x50000 + port.val * 0x100) 0 1 v q)) (hv : v < 2)
    (does : ∀ x, bit x 0 = decide (v = 1) → bit x 1 = bit q.wdata 1 → fld x 16 16 = fld q.wdata 16 16 →
      s.portCtrl port.val x = u) (up : u.latches = s.latches) :
    PortDoes s i (0x50000 + port.val * 0x100) (q.lower.force 0 1 v) u := by
  refine .of_page hi (by omega) (fun acc => ?_) (fun acc => (State.up_of_latches up).trans acc.up)
  have low : LowWord s (0x50000 + port.val * 0x100) (q.lower.force 0 1 v) := acc.forced
  refine (regWrite_pctrl low.lo).trans (does _ ?_ ?_ ?_)
  · rw [low.bit 0 (by decide), bit_force _ (by decide) hv]
  · rw [low.bit 1 (by decide), bit_force_apart _ (by omega) (by decide), PortReq.lower_wdata]
  · rw [low.fld 16 16 (by decide), fld_force_apart _ (by omega) (by decide), PortReq.lower_wdata]

/-- The port's settings as a write to ST_PCTRL leaves them. -/
def SPort.setUp (y : SPort) (en : Bool) (x : DWord) : SPort := { y with en := en, recUnmatched := bit x 1, udp := fld x 16 16 }

/-- EN brings a port that is OFF, and whose domain is on, to RUN with numbers from 0. -/
theorem State.portCtrl_starts {x : DWord} (set : bit x 0 = true) (off : (s.sport p).en = false) (state : (s.sport p).state = .off)
    (held : (s.dom (46 + p)).holdOff = false) (on : (s.dom (46 + p)).state = .on) :
    s.portCtrl p x = (s.modPort p (fun y => y.setUp true x)).portReady p := by
  unfold State.portCtrl
  simp only [set, off, state, held, on, Bool.not_false, Bool.or_true, Bool.and_self, if_true]
  rfl

/-- Clearing EN drains a port at work. -/
theorem State.portCtrl_drains {x : DWord} (clear : bit x 0 = false) (en : (s.sport p).en = true) :
    s.portCtrl p x = (s.modPort p (fun y => y.setUp false x)).modPort p
      (fun y => if y.state = .run ∨ y.state = .restart then { y with state := .draining } else y) := by
  unfold State.portCtrl
  simp only [clear, en, Bool.false_and, Bool.not_false, Bool.and_true, Bool.false_eq_true, if_false, if_true]
  rfl

/-- The state of a port that has been cleared. -/
def State.portDrains (s : State) (p : Nat) (x : DWord) : State :=
  (s.modPort p (fun y => y.setUp false x)).modPort p
    (fun y => if y.state = .run ∨ y.state = .restart then { y with state := .draining } else y)

theorem SPort.setUp_congr {x z : DWord} {en : Bool} (rec : bit z 1 = bit x 1) (udp : fld z 16 16 = fld x 16 16) :
    (fun y : SPort => y.setUp en z) = (fun y => y.setUp en x) := by
  funext y
  unfold SPort.setUp
  rw [rec, udp]

theorem State.sport_started {x : DWord} (off : (s.sport p).state = .off) :
    ((s.modPort p (fun y => y.setUp true x)).portReady p).sport p =
      { s.sport p with en := true, recUnmatched := bit x 1, udp := fld x 16 16, state := .run, nextSeq := 0 } := by
  unfold State.portReady
  rw [State.sport_modPort_same, State.sport_modPort_same]
  exact (if_pos off).trans (if_pos rfl)

theorem State.sport_portDrains {x : DWord} (works : (s.sport p).state = .run ∨ (s.sport p).state = .restart) :
    (s.portDrains p x).sport p =
      { s.sport p with en := false, recUnmatched := bit x 1, udp := fld x 16 16, state := .draining } := by
  unfold State.portDrains
  rw [State.sport_modPort_same, State.sport_modPort_same]
  exact if_pos works

theorem State.portDrained_ends (state : (s.sport p).state = .draining) (fifo : (s.sport p).fifo = [])
    (jobs : (s.sport p).jobs = []) :
    s.portDrained p = s.modPort p (fun y =>
      if y.en ∧ (s.dom (46 + p)).state = .on then { y with state := .run, nextSeq := 0 } else { y with state := .off }) :=
  if_pos ⟨state, fifo, jobs⟩

/-- A change of a port is what it makes of the port's entry. -/
theorem State.modPort_congr {g h : SPort → SPort} (e : g (s.sport p) = h (s.sport p)) : s.modPort p g = s.modPort p h := by
  show ({ s with st := { s.st with ports := Tab.set s.st.ports {} p (g (s.sport p)) } } : State) = _
  rw [e]
  rfl

/-! ST_PLOAD (R407) -/

theorem portReads_pload {port : Fin 4} {q : PortReq} (whole : q.be = 0xFF) :
    PortReads s (.ploadRead port q) (0x50000 + port.val * 0x100 + 0x10) q
      (pk [(0, (s.sport port.val).owed), (16, (s.sport port.val).occ), (32, (s.sport port.val).occHwm.toNat),
        (48, (s.sport port.val).owedHwm.toNat)])
      (s.modPort port.val (fun x => { x with occHwm := 0, owedHwm := 0 })) := by
  have lo : beLo q.be = true := by rw [whole]; decide
  have hi : beHi q.be = true := by rw [whole]; decide
  have quot : (0x50000 + port.val * 0x100 + 0x10) / 0x10000 = 5 := by omega
  have rest : (0x50000 + port.val * 0x100 + 0x10) % 0x10000 = port.val * 0x100 + 0x10 := by omega
  have small : port.val * 0x100 + 0x10 < 0x400 := by omega
  have index : (port.val * 0x100 + 0x10) / 0x100 = port.val := by omega
  have offset : (port.val * 0x100 + 0x10) % 0x100 = 0x10 := by omega
  refine .of_word ?exec (by unfold powerOff; omega) ?word ?take
  case exec =>
    rw [show 0x50000 + port.val * 0x100 + 0x10 = 0x50010 + port.val * 0x100 by omega]
    rfl
  case word =>
    unfold regRead
    rw [if_neg (by omega)]
    simp only [quot, rest]
    unfold stRead
    simp only [small, if_true, index, offset]
    rfl
  case take =>
    rw [lo, hi]
    unfold regTake
    rw [if_neg (by omega)]
    simp only [quot, rest]
    unfold stTake
    rw [if_pos ⟨small, offset, rfl⟩, index]

/-! The verdict of a tag unit (R119, R133–R137) -/

/-- The frame of job `j` has left its unit. -/
def State.unitLeft (s : State) (p : Nat) (seq : Word) (j : Job) : State :=
  s.modPort p (fun y =>
    let z : SPort := { y with jobs := y.jobs.filter (fun i => decide (i.seq ≠ seq)) }
    match j.unit with
    | some w => z.frees w
    | none => z)

/-- The verdict word of a frame that a tag unit has finished. -/
def Job.word (j : Job) (seq : Word) (code : Verdict) : VWord :=
  { seq := seq, code := code, overcap := j.overcap, replayed := j.replayed, rolled := j.rolled, slot := j.km.slot.toNat,
    appid := j.parsed.appid.toNat, km := some j.km, time := j.last }

/-- What the comparator and the freshness check come to. -/
def State.judged (s : State) (p : Nat) (j : Job) : Verdict × State :=
  if s.edgeRepairs p then (.repair, s)
  else if j.key.isEmpty then (.noKey, s)
  else if frameTag j.km.form.toNat j.key j.parsed = j.parsed.value then s.freshness p j
  else (.failTag, s.tagFailed j)

theorem State.tagComplete_of {seq : Word} {j : Job} {code : Verdict} {v : State}
    (h : (s.sport p).jobs.find? (fun j => decide (j.seq = seq) && (j.unit.isSome || j.done)) = some j)
    (judged : (s.unitLeft p seq j).judged p j = (code, v)) :
    s.tagComplete p seq = (v.emit p (j.word seq code)).assignUnits p := by
  have run : s.tagComplete p seq =
      (((s.unitLeft p seq j).judged p j).2.emit p (j.word seq ((s.unitLeft p seq j).judged p j).1)).assignUnits p := by
    unfold State.tagComplete
    simp only [h]
    rfl
  rw [run, judged]

theorem State.edgeRepairs_unitLeft (s : State) (p : Nat) (seq : Word) (j : Job) :
    (s.unitLeft p seq j).edgeRepairs p = s.edgeRepairs p := by
  refine State.edgeRepairs_modPort ?_
  dsimp only
  split <;> rfl

section
variable {j : Job}

theorem State.freshness_unlisted (h : s.stream? p j.parsed = none) :
    s.freshness p j = (if j.km.replayReq then .noKey else .pass, s) := by
  unfold State.freshness
  simp only [h]

variable {i : Nat} {e : SsEnt} (h : s.stream? p j.parsed = some (i, e))
include h

theorem State.freshness_misfit (fits : freshFits e.fresh j.parsed.kind = false) : s.freshness p j = (.noKey, s) := by
  unfold State.freshness
  simp only [h, fits, Bool.not_false, if_true]

theorem State.freshness_window (fits : freshFits e.fresh j.parsed.kind = true) :
    s.freshness p j =
      (if (e.accept (BitVec.ofNat 64 (e.freshValue j.parsed))).1 then .pass else .replay,
       if (e.accept (BitVec.ofNat 64 (e.freshValue j.parsed))).1 then
         s.modSt (fun t => { t with ss := t.ss.set {} i (e.accept (BitVec.ofNat 64 (e.freshValue j.parsed))).2 }) else s) := by
  unfold State.freshness
  simp only [h, fits, Bool.not_true, Bool.false_eq_true, if_false]

end

end Sys2Proof.Machine

namespace Sys2Proof
open Machine

/-- Settles O30: a frame's arrival by the port's edge and its beats by the room, the parser by what it reads, and the port's
registers by its state. -/
theorem streamPorts : Obligations.StreamPorts := by
  intro s port f q p x ctrl y n new
  refine ⟨fun running => ⟨fun clean => ⟨?enters, fun still shut room => ?stored, fun still full room => ?dropped⟩,
      fun repairs => exec_next rfl ((State.frameArrival_runs running).2 repairs)⟩, fun g r head => ?parser,
    fun g r head shut => exec_next rfl (State.parseGap_closed head shut), fun off state held on acc => ?enable,
    fun en state acc => ?disable, fun state fifo jobs => ?drained, fun whole => portReads_pload whole⟩
  case enters => exact exec_next rfl ((State.frameArrival_runs running).1 clean)
  case stored => exact SPort.intake_stored (x := y) (q := new) still rfl shut room
  case dropped =>
    exact SPort.intake_dropped (x := y) (q := new) still (y.full_iff.mpr full) (SPort.full_drop _ _ _ full room)
  case parser =>
    intro u first gives
    have parse := State.parseFrame_takes head
    refine ⟨fun repairs => exec_next rfl (parse.trans (if_pos repairs)), fun clean cut => exec_next rfl (parse.trans ?_),
      fun clean uncut => ⟨fun bad => exec_next rfl (parse.trans ?_), fun z len wrap => exec_next rfl (parse.trans ?_),
        fun z bare wrap => exec_next rfl (parse.trans ?_), fun z secured => ⟨fun wrap => exec_next rfl (parse.trans ?_),
          fun wrap => exec_next rfl (parse.trans ?_)⟩⟩⟩
    all_goals simp only [x] at *
    all_goals simp only [*, Bool.false_eq_true, if_false, if_true]
    all_goals rfl
  case enable =>
    exact ⟨(s.modPort p (fun y => y.setUp true q.wdata)).portReady p, PortDoes.of_pctrl rfl (by decide)
      (fun z set rec udp => (State.portCtrl_starts (decide_eq_true_iff.mp (by simp [set])) off state held on).trans
        (by rw [SPort.setUp_congr rec udp])) rfl acc, State.sport_started state⟩
  case disable =>
    exact ⟨s.portDrains p q.wdata, PortDoes.of_pctrl rfl (by decide)
      (fun z clear rec udp => (State.portCtrl_drains (by simp [clear]) en).trans
        (by rw [SPort.setUp_congr rec udp]; rfl)) rfl acc, State.sport_portDrains state⟩
  case drained =>
    have ends := State.portDrained_ends state fifo jobs
    refine ⟨fun off => exec_next rfl (ends.trans (State.modPort_congr ?_)), fun en on => exec_next rfl (ends.trans
      (State.modPort_congr ?_))⟩
    · exact if_neg (by rw [show (s.sport p).en = false from off]; simp)
    · exact if_pos ⟨en, on⟩

/-- Settles O31: the verdict by the port's edge, the comparator and the freshness check. -/
theorem frameVerdicts : Obligations.FrameVerdicts := by
  intro s port seq j p u word gives found
  have edge : u.edgeRepairs p = s.edgeRepairs p := s.edgeRepairs_unitLeft p seq j
  have ends {v : State} {code : Verdict} (h : u.judged p j = (code, v)) : gives v code :=
    exec_next rfl (State.tagComplete_of found h)
  refine ⟨fun repairs => ends (if_pos (edge.trans repairs)), fun clean key => ?_⟩
  have compares : u.judged p j =
      if frameTag j.km.form.toNat j.key j.parsed = j.parsed.value then u.freshness p j else (.failTag, u.tagFailed j) :=
    (if_neg (by rw [edge, clean]; simp)).trans (if_neg (by simp [key]))
  refine ⟨fun differs => ends (compares.trans (if_neg differs)), fun matches_ => ?_⟩
  rw [if_pos matches_] at compares
  refine ⟨fun unlisted => ends (compares.trans (State.freshness_unlisted (s := u) unlisted)), fun i e listed => ⟨fun misfit => ?_,
    fun fits ok => ?_, fun fits bad => ?_⟩⟩
  · exact ends (compares.trans (State.freshness_misfit (s := u) listed misfit))
  · exact ends (compares.trans ((State.freshness_window (s := u) listed fits).trans (by rw [ok]; rfl)))
  · exact ends (compares.trans ((State.freshness_window (s := u) listed fits).trans (by rw [bad]; rfl)))

end Sys2Proof
end

section
/-! SUPPORT. The operations of the vault, of the units and of the links leave the halt, the lockdown latch and the
register port as they are (`State.latches`): the frame that lockdown rests on (R327). -/

namespace Sys2Proof.Machine

@[simp] theorem State.latches_modD0 (s : State) (f : D0 → D0) : (s.modD0 f).latches = s.latches := rfl
@[simp] theorem State.latches_modVt (s : State) (f : VaultSt → VaultSt) : (s.modVt f).latches = s.latches := rfl
@[simp] theorem State.latches_touchPath (s : State) (slot : Nat) : (s.touchPath slot).latches = s.latches := rfl
@[simp] theorem State.latches_touchSlot (s : State) (slot : Nat) : (s.touchSlot slot).latches = s.latches := rfl
@[simp] theorem State.latches_modSlot (s : State) (slot : Nat) (f : SlotEnt → SlotEnt) :
    (s.modSlot slot f).latches = s.latches := rfl

/-- Elimination of a value of which nothing but the context is used. -/
theorem holds_of_all {α : Type} {motive : α → Prop} (all : ∀ a, motive a) (a : α) : motive a := all a

theorem State.keepsLatches_fabRead (s : State) (w : Who) (fn addr len : Nat) (c : Bool) :
    s.KeepsLatches (s.fabRead w fn addr len c) := s.latches_fabRead w fn addr len c

theorem State.issueBatch_keepsLatches (s : State) (b : Batch) : s.KeepsLatches (s.issueBatch b).2 := by
  unfold State.issueBatch
  extract_lets base epoch par slots tree roots newCtr d write r1 r2 r3
  have step (r : Bool × State) (off : Nat) (data : State → List Byte) : r.2.KeepsLatches (write r off data) := by
    unfold write
    split
    next ok t h => exact State.latches_of_fabWrite h
  clear_value write
  induction write using holds_of_all with | all write =>
  have h0 : d.latches = s.latches := by
    unfold d
    split <;> simp
  have h1 : d.KeepsLatches r1 := .foldl (fun r p => by extract_lets st; exact step r _ _) _ _
  have h2 : r1.2.KeepsLatches r2 := .foldl (fun r n => step r _ _) _ _
  have h3 : r2.2.KeepsLatches r3 := by
    unfold r3
    split
    · exact rfl
    · exact step _ _ _
  clear_value r3 r2 r1 d
  show r3.2.latches = s.latches
  exact h3.trans (h2.trans (h1.trans h0))

@[simp] theorem State.latches_issueBatch (s : State) (b : Batch) : (s.issueBatch b).2.2.latches = s.latches :=
  s.issueBatch_keepsLatches b

@[simp] theorem State.latches_sweepRead (s : State) : s.sweepRead.latches = s.latches := by
  simp [State.sweepRead, apply_ite State.latches]

theorem State.missReads_keepsLatches (s : State) (slot : Nat) : s.KeepsLatches (s.missReads slot) := by
  unfold State.missReads
  extract_lets base r1 r2
  have h1 : s.KeepsLatches r1 := s.keepsLatches_fabRead _ _ _ _ _
  have h2 : r1.2.KeepsLatches r2 := .foldl (fun r l => by
    split
    next ok t h => exact State.latches_of_fabRead h) _ _
  clear_value r2 
  clear_value r1
  exact (r2.2.latches_modVt _).trans (h2.trans h1)

@[simp] theorem State.latches_missReads (s : State) (slot : Nat) : (s.missReads slot).2.latches = s.latches :=
  s.missReads_keepsLatches slot

@[simp] theorem State.latches_recoverReads (s : State) : s.recoverReads.latches = s.latches := by
  unfold State.recoverReads
  (repeat' split) <;> simp

@[simp] theorem State.latches_startRecovery (s : State) : s.startRecovery.latches = s.latches := by
  unfold State.startRecovery
  (repeat' split) <;> simp

@[simp] theorem State.latches_resume (s : State) (t : Nat) : (s.resume t).latches = s.latches := by
  unfold State.resume
  (repeat' split) <;> simp

@[simp] theorem State.latches_kmAbandon (s : State) : s.kmAbandon.latches = s.latches := by
  simp [State.kmAbandon, apply_ite State.latches]

@[simp] theorem State.latches_vaultClosed (s : State) : s.vaultClosed.latches = s.latches := by
  simp [State.vaultClosed]

@[simp] theorem State.latches_failFirst (s : State) (b : Batch) (r : List Batch) (st : Status) :
    (s.failFirst b r st).latches = s.latches := by
  simp [State.failFirst, apply_ite State.latches]

@[simp] theorem State.latches_pumpFrom (fuel : Nat) (s : State) : (State.pumpFrom fuel s).latches = s.latches := by
  induction fuel generalizing s with
  | zero => simp [State.pumpFrom]
  | succ n ih =>
    unfold State.pumpFrom
    split
    · rfl
    · rfl
    · rename_i more _
      obtain rfl := Nat.succ.inj more
      split
      · rfl
      · split
        · split
          next ok b' t h =>
            have kept : t.latches = s.latches := (congrArg (·.2.2.latches) h).symm.trans (s.latches_issueBatch _)
            split
            · rw [State.latches_modVt, kept]
            · rw [State.latches_failFirst, State.latches_modVt, kept]
        · split
          next ok t h =>
            have kept : t.latches = s.latches := by
              refine (State.latches_snd h).trans (State.KeepsLatches.foldl (fun r m => ?_) _ _)
              split
              next ok u h => exact (State.latches_snd h).trans (r.2.latches_missReads m)
            split
            · exact kept
            · rw [ih, State.latches_failFirst, kept]

@[simp] theorem State.latches_pumpBatches (s : State) : s.pumpBatches.latches = s.latches := by
  simp [State.pumpBatches]

@[simp] theorem State.latches_joinBatch (s : State) (slot : Nat) (e : SlotEnt) (t : Option Nat) (f : Batch → Batch) :
    (s.joinBatch slot e t f).latches = s.latches := by
  simp [State.joinBatch]

@[simp] theorem State.latches_awaitBatch (s : State) (slot t : Nat) : (s.awaitBatch slot t).latches = s.latches := rfl

@[simp] theorem State.latches_closeLease (s : State) (slot : Nat) (f : Batch → Batch) :
    (s.closeLease slot f).latches = s.latches := by
  unfold State.closeLease
  (repeat' split) <;> simp

@[simp] theorem State.latches_makeRoom (s : State) : (s.makeRoom).2.latches = s.latches := by
  unfold State.makeRoom
  (repeat' split) <;> simp

@[simp] theorem State.latches_cacheSlot (s : State) (slot : Nat) (e : SlotEnt) :
    (s.cacheSlot slot e).2.latches = s.latches := by
  unfold State.cacheSlot
  split
  · rfl
  · split
    next t h => exact (State.latches_snd h).trans s.latches_makeRoom
    next => exact s.latches_makeRoom

@[simp] theorem State.latches_putSlot (s : State) (slot : Nat) (e : SlotEnt) : (s.putSlot slot e).latches = s.latches := by
  simp [State.putSlot]

@[simp] theorem State.latches_slotGone (s : State) (slot : Nat) : (s.slotGone slot).latches = s.latches := rfl

@[simp] theorem State.latches_linkWaits (s : State) (t : Nat) : (s.linkWaits t).latches = s.latches := by
  unfold State.linkWaits
  (repeat' split) <;> simp

@[simp] theorem State.latches_lookUp (s : State) (slot : Nat) : (s.lookUp slot).2.latches = s.latches := by
  unfold State.lookUp
  split
  · rfl
  · split
    · rfl
    · split
      · split
        next ok t h => exact (t.latches_modVt _).trans (State.latches_of_fabRead h)
      · exact s.latches_missReads slot

@[simp] theorem State.latches_takeWaiters (s : State) (slot : Nat) : (s.takeWaiters slot).2.latches = s.latches := rfl

@[simp] theorem State.latches_failHolding (s : State) (slot : Nat) (st : Status) :
    (s.failHolding slot st).latches = s.latches := by
  unfold State.failHolding
  (repeat' split) <;> simp

@[simp] theorem State.latches_lookupFails (s : State) (slot : Nat) : (s.lookupFails slot).latches = s.latches := by
  simp [State.lookupFails]

@[simp] theorem State.latches_waitSlot (s : State) (t slot : Nat) : (s.waitSlot t slot).latches = s.latches := by
  unfold State.waitSlot
  split
  next ok u h =>
    have kept : u.latches = s.latches := by simp [State.latches_snd h]
    split <;> simp [kept]

@[simp] theorem State.latches_consume (s : State) (slot : Nat) : (s.consume slot).latches = s.latches := by
  unfold State.consume
  (repeat' split) <;> simp [apply_ite State.latches]

@[simp] theorem State.latches_vaultAuthFail (s : State) (slot place : Nat) :
    (s.vaultAuthFail slot place).latches = s.latches := by
  simp [State.vaultAuthFail]

theorem State.latches_verifyPath {slot : Nat} {nodes : List (List Byte)} {slack : Bool} {fuel level : Nat} {s t : State}
    (h : State.verifyPath slot nodes slack fuel level s = .ok t) : t.latches = s.latches := by
  induction fuel generalizing level s with
  | zero => simp only [State.verifyPath, Except.ok.injEq] at h; rw [h]
  | succ n ih =>
    unfold State.verifyPath at h
    extract_lets idx next pc b at h
    have goesOn : ∀ {u : State}, next u = .ok t → t.latches = u.latches := by
      intro u hu
      unfold next at hu
      split at hu
      · rw [Except.ok.inj hu]
      · exact ih hu
    split at h
    · exact goesOn h
    · split at h
      · exact (goesOn h).trans (State.latches_modVt _ _)
      · split at h
        · exact absurd h (by simp)
        · rename_i up v _ _ _ _ _ c _
          have kept : v.latches = s.latches := by
            unfold v
            split <;> rfl
          exact (goesOn h).trans ((State.latches_modVt _ _).trans kept)

@[simp] theorem State.latches_wakeWaiters (s : State) (slot : Nat) : (s.wakeWaiters slot).latches = s.latches := by
  simp [State.wakeWaiters]

@[simp] theorem State.latches_readFailed (s : State) (slot place : Nat) : (s.readFailed slot place).latches = s.latches := by
  unfold State.readFailed
  split
  · simp
  · extract_lets u
    have raised : u.latches = s.latches := by
      unfold u
      split <;> simp
    split
    next ok t h =>
      have kept : t.latches = s.latches := by simp [State.latches_snd h, raised]
      split <;> simp [kept]

@[simp] theorem State.latches_park (s : State) (slot : Nat) : (s.park slot).latches = s.latches := rfl

@[simp] theorem State.latches_blobReturn (s : State) (slot : Nat) (e : SlotEnt) (read : VaultRead) :
    (s.blobReturn slot e read).latches = s.latches := by
  unfold State.blobReturn
  split
  · simp
  · split
    · simp
    · split
      next ok t h =>
        have kept : t.latches = s.latches := State.latches_of_fabRead h
        split <;> simp [kept]

@[simp] theorem State.latches_recordReturn (s : State) (slot : Nat) (read : VaultRead) :
    (s.recordReturn slot read).latches = s.latches := by
  unfold State.recordReturn
  split
  · simp
  · simp
  · split
    · simp
    · split
      next t h => simp [State.latches_snd h]
      next t h => simp [State.latches_snd h]

@[simp] theorem State.latches_missReturn (s : State) (slot : Nat) (read : VaultRead) :
    (s.missReturn slot read).latches = s.latches := by
  unfold State.missReturn
  split
  · simp
  · extract_lets cached
    split
    · simp
    · split
      · simp
      · split
        · simp
        next t h => split <;> simp [State.latches_verifyPath h]

@[simp] theorem State.latches_retryLookups (s : State) : s.retryLookups.latches = s.latches := by
  unfold State.retryLookups
  refine State.latches_foldl (fun s n => ?_) _ _
  split
  · extract_lets u
    have kept : u.latches = s.latches := State.latches_modVt _ _
    split
    next ok t h => split <;> simp [State.latches_snd h, kept]
  · rfl

@[simp] theorem State.latches_keepResident (s : State) : s.keepResident.latches = s.latches := by
  unfold State.keepResident
  split
  · rfl
  · refine State.latches_foldl (fun s n => ?_) _ _
    split
    · rfl
    · split
      next ok t h => split <;> simp [State.latches_snd h]

@[simp] theorem State.latches_closeStep (s : State) : s.closeStep.latches = s.latches := by
  simp [State.closeStep, apply_ite State.latches]

@[simp] theorem State.latches_commitSlot (s : State) (recovery : Bool) (slot : Nat) (e : SlotEnt) :
    (s.commitSlot recovery slot e).latches = s.latches := by
  unfold State.commitSlot
  dsimp only
  split <;> simp

@[simp] theorem State.latches_commitBatch (s : State) (b : Batch) (r : List Batch) :
    (s.commitBatch b r).latches = s.latches := by
  unfold State.commitBatch
  extract_lets up s1 s2 s3 s4 s5 s6 s7 s8
  have h3 : s3.latches = s.latches := State.latches_foldl (fun t p => t.latches_modVt _) _ _
  have h4 : s4.latches = s3.latches := State.latches_foldl (fun t p => t.latches_commitSlot _ _ _) _ _
  have h5 : s5.latches = s4.latches := State.latches_foldl (fun t p => by split <;> simp) _ _
  have h7 : s7.latches = s5.latches := by
    unfold s7
    split <;> simp [s6]
  have h8 : s8.latches = s7.latches := State.latches_foldl (fun t p => t.latches_resume _) _ _
  clear_value s8 s7 s5 s4 s3
  simp [h8, h7, h5, h4, h3]

@[simp] theorem State.latches_cacheError (s : State) : s.cacheError.latches = s.latches := rfl

@[simp] theorem State.latches_vaultBack (s : State) : s.vaultBack.latches = s.latches := by
  simp [State.vaultBack, apply_ite State.latches]

@[simp] theorem State.latches_recoveryDone (s : State) (d : BatchDesc) : (s.recoveryDone d).latches = s.latches := by
  unfold State.recoveryDone
  split
  · rfl
  · extract_lets u kept b
    have node : u.latches = s.latches := State.latches_foldl (fun t p => t.latches_modVt _) _ _
    clear_value u
    simp [node]

@[simp] theorem State.latches_recoverReturn (s : State) (slot : Nat) (read : VaultRead) (d : BatchDesc) :
    (s.recoverReturn slot read d).latches = s.latches := by
  unfold State.recoverReturn
  extract_lets new settle failed
  have settles : ∀ u e, (settle u e).latches = u.latches := fun u e => by simp [settle]
  have fails : ∀ u place, (failed u place).latches = u.latches := fun u place => by
    simp [failed, apply_ite State.latches, settles]
  split
  · exact fails _ _
  next t h =>
    have kept : t.latches = s.latches := State.latches_verifyPath h
    split
    · exact (settles _ _).trans kept
    · split
      · exact (settles _ _).trans kept
      · split
        · exact (settles _ _).trans kept
        · exact (fails _ _).trans kept

@[simp] theorem State.latches_openVault (s : State) : s.openVault.latches = s.latches := by
  unfold State.openVault
  dsimp only
  split <;> simp

@[simp] theorem State.latches_beginOpen (s : State) : s.beginOpen.latches = s.latches := by
  simp [State.beginOpen, apply_ite State.latches]

@[simp] theorem State.latches_tryOpen (s : State) : s.tryOpen.latches = s.latches := by
  simp [State.tryOpen, apply_ite State.latches]

@[simp] theorem State.latches_imageReturn (s : State) (image : List Byte) (failed : Bool) :
    (s.imageReturn image failed).latches = s.latches := by
  simp [State.imageReturn, apply_ite State.latches]

@[simp] theorem State.latches_ringStopped (s : State) (f r : Nat) (cons : Word) (reason : Nat) :
    (s.ringStopped f r cons reason).latches = s.latches := by
  simp [State.ringStopped]

@[simp] theorem State.latches_refuseEnable (s : State) (f r : Nat) (cons : Word) (reason : Nat) :
    (s.refuseEnable f r cons reason).latches = s.latches := by
  simp [State.refuseEnable]

@[simp] theorem State.latches_ringEnable (s : State) (f r : Nat) (hdr : BitVec 48) :
    (s.ringEnable f r hdr).latches = s.latches := by
  simp [State.ringEnable, apply_ite State.latches]

@[simp] theorem State.latches_fetchStop (s : State) (r : Nat) : (s.fetchStop r).latches = s.latches := by
  simp [State.fetchStop, apply_ite State.latches]

@[simp] theorem State.latches_readHeader (s : State) (f r : Nat) : (s.readHeader f r).latches = s.latches := by
  simp [State.readHeader, apply_ite State.latches]

@[simp] theorem State.latches_ringKick (s : State) (f r : Nat) : (s.ringKick f r).latches = s.latches := by
  simp [State.ringKick, apply_ite State.latches]

@[simp] theorem State.latches_ringAct (s : State) (f r : Nat) (op : RingOp) (hdr : BitVec 48) :
    (s.ringAct f r op hdr).latches = s.latches := by
  unfold State.ringAct
  (repeat' split) <;> simp [apply_ite State.latches]

@[simp] theorem State.latches_ringDo (s : State) (f r : Nat) (op : RingOp) (hdr : BitVec 48) :
    (s.ringDo f r op hdr).latches = s.latches := by
  simp [State.ringDo, apply_ite State.latches]

@[simp] theorem State.latches_ringsBack (s : State) : s.ringsBack.latches = s.latches := by
  simp [State.ringsBack, apply_ite State.latches]

@[simp] theorem State.latches_doorbell (s : State) (f loc : Nat) (op : RingOp) (hdr : BitVec 48) :
    (s.doorbell f loc op hdr).latches = s.latches := by
  simp [State.doorbell, apply_ite State.latches]

@[simp] theorem State.latches_rtCommand (s : State) (op : RingOp) : (s.rtCommand op).latches = s.latches := by
  unfold State.rtCommand
  dsimp only
  (repeat' split) <;> simp

@[simp] theorem State.latches_haltFn (s : State) (f loc : Nat) (pos : Word) : (s.haltFn f loc pos).latches = s.latches := by
  simp [State.haltFn]

@[simp] theorem State.latches_publishSq (s : State) (f r : Nat) : (s.publishSq f r).latches = s.latches := by
  simp [State.publishSq]

@[simp] theorem State.latches_malformed (s : State) (f r : Nat) (pos : Word) (reason : Nat) :
    (s.malformed f r pos reason).latches = s.latches := by
  simp [State.malformed, apply_ite State.latches]

@[simp] theorem State.latches_fetchLoop (fuel : Nat) (s : State) (f r : Nat) :
    (State.fetchLoop fuel s f r).latches = s.latches := by
  induction fuel generalizing s with
  | zero => rfl
  | succ n ih =>
    unfold State.fetchLoop
    extract_lets x size room idx k u
    split
    · rfl
    · split
      next ok t h =>
        have kept : t.latches = s.latches := (State.latches_of_fabRead h).trans (s.latches_setRing _ _)
        split <;> simp [ih, kept]

@[simp] theorem State.latches_fetch (s : State) (f r : Nat) : (s.fetch f r).latches = s.latches := by
  simp [State.fetch, apply_ite State.latches]

@[simp] theorem State.latches_formLoop (fuel : Nat) (s : State) (f r : Nat) :
    (State.formLoop fuel s f r).latches = s.latches := by
  induction fuel generalizing s with
  | zero => rfl
  | succ n ih =>
    unfold State.formLoop
    dsimp only
    split
    · rfl
    · split
      · rfl
      · split
        · split
          · split <;> simp
          · split <;> simp
        · split
          · split <;> simp
          · simp [ih]

@[simp] theorem State.latches_headerSeen (s : State) (f r : Nat) (data : List Byte) :
    (s.headerSeen f r data).latches = s.latches := by
  simp [State.headerSeen, apply_ite State.latches]

@[simp] theorem State.latches_enableCheck (s : State) (f r : Nat) (b : List Byte) :
    (s.enableCheck f r b).latches = s.latches := by
  simp [State.enableCheck, apply_ite State.latches]

@[simp] theorem State.latches_stopComplete (s : State) (f r : Nat) : (s.stopComplete f r).latches = s.latches := by
  simp [State.stopComplete, apply_ite State.latches]

@[simp] theorem State.latches_signalRing (s : State) (f r : Nat) (already : Bool) :
    (s.signalRing f r already).latches = s.latches := by
  simp [State.signalRing, apply_ite State.latches]

@[simp] theorem State.latches_putRecord (s : State) (r : RecordOf) : (s.putRecord r).latches = s.latches := by
  simp [State.putRecord, apply_ite State.latches]

@[simp] theorem State.latches_putRecords (s : State) (fl : Flight) (missed : Bool) (link : Nat) (tags : List Nat) :
    (s.putRecords fl missed link tags).latches = s.latches := by
  induction tags generalizing s link with
  | nil => rfl
  | cons t r ih => simp [State.putRecords, ih]

@[simp] theorem State.latches_fetchOn (s : State) (f : Nat) : (s.fetchOn f).latches = s.latches := by
  simp [State.fetchOn, apply_ite State.latches]

@[simp] theorem State.latches_packetEnd (s : State) (n : Nat) : (s.packetEnd n).latches = s.latches := by
  simp [State.packetEnd]

@[simp] theorem State.latches_abortLink (s : State) (t : Nat) : (s.abortLink t).latches = s.latches := by
  simp [State.abortLink]

@[simp] theorem State.latches_chainFails (s : State) (fl : Flight) (t : Nat) : (s.chainFails fl t).latches = s.latches := by
  simp [State.chainFails, apply_ite State.latches]

@[simp] theorem State.latches_linkEnded (s : State) (t : Nat) : (s.linkEnded t).latches = s.latches := by
  unfold State.linkEnded
  (repeat' split) <;> simp [apply_ite State.latches]

@[simp] theorem State.latches_takeTags (s : State) (free : List Nat) (n : Nat) :
    (s.takeTags free n).2.latches = s.latches := by
  induction n generalizing s free with
  | zero => rfl
  | succ k ih => simp [State.takeTags, ih]

@[simp] theorem State.latches_issuePast (s : State) (f r : Nat) (p : Packet) : (s.issuePast f r p).latches = s.latches := by
  simp [State.issuePast]

@[simp] theorem State.latches_journalIssue (s : State) (f r : Nat) (p : Packet) :
    (s.journalIssue f r p).latches = s.latches := by
  simp [State.journalIssue, apply_ite State.latches]

@[simp] theorem State.latches_refusePacket (s : State) (f r : Nat) (p : Packet) (link : Nat) (l : List Desc) :
    (s.refusePacket f r p link l).latches = s.latches := by
  induction l generalizing s link with
  | nil => rfl
  | cons d rest ih => simp [State.refusePacket, ih]

@[simp] theorem State.latches_bindTags (s : State) (f r n link : Nat) (l : List (Nat × Desc)) :
    (s.bindTags f r n link l).latches = s.latches := by
  induction l generalizing s link with
  | nil => rfl
  | cons d rest ih => simp [State.bindTags, ih]

@[simp] theorem State.latches_startPacket (s : State) (f r : Nat) (p : Packet) :
    (s.startPacket f r p).latches = s.latches := by
  simp [State.startPacket, apply_ite State.latches]

@[simp] theorem State.latches_badActs (s : State) (f r : Nat) : (s.badActs f r).latches = s.latches := by
  simp [State.badActs, apply_ite State.latches]

@[simp] theorem State.latches_waitTags (s : State) (r : Nat) : (s.waitTags r).latches = s.latches := rfl

@[simp] theorem State.latches_issueNext (s : State) (r : Nat) : (s.issueNext r).latches = s.latches := by
  unfold State.issueNext
  dsimp only
  (repeat' split) <;> simp

@[simp] theorem State.latches_modPort (s : State) (p : Nat) (f : SPort → SPort) : (s.modPort p f).latches = s.latches := rfl

@[simp] theorem State.latches_verdictRecord (s : State) (p : Nat) (v : VWord) :
    (s.verdictRecord p v).latches = s.latches := by
  unfold State.verdictRecord
  (repeat' split) <;> simp

@[simp] theorem State.latches_emit (s : State) (p : Nat) (v : VWord) : (s.emit p v).latches = s.latches := by
  simp [State.emit]

@[simp] theorem State.latches_emitRange (s : State) (p : Nat) (code : Verdict) (first : Word) (count : Nat) (time : DWord) :
    (s.emitRange p code first count time).latches = s.latches := by
  simp [State.emitRange]

@[simp] theorem State.latches_early (s : State) (p : Nat) (seq : Word) (code : Verdict) (x : Option Parsed)
    (k : Option KmEnt) (time : DWord) :
    (s.early p seq code x k time).latches = s.latches := by
  simp [State.early]

@[simp] theorem State.latches_assignUnits (s : State) (p : Nat) : (s.assignUnits p).latches = s.latches := rfl

@[simp] theorem State.latches_loseJobs (s : State) (p : Nat) (lost : Job → Bool) :
    (s.loseJobs p lost).latches = s.latches := by
  simp [State.loseJobs]

@[simp] theorem State.latches_moveJobs (s : State) (u : Nat) (taker : Option Nat) :
    (s.moveJobs u taker).latches = s.latches := by
  unfold State.moveJobs
  dsimp only
  (repeat' split) <;> simp

@[simp] theorem State.latches_unitJoins (s : State) (u : Nat) : (s.unitJoins u).latches = s.latches := by
  unfold State.unitJoins
  split <;> simp

@[simp] theorem State.latches_capacity (s : State) (src working spares : Nat) :
    (s.capacity src working spares).latches = s.latches := by
  simp [State.capacity]

@[simp] theorem State.latches_poolStep (s : State) (p : Nat) (fault : Bool) (f : State → State)
    (h : (f s).latches = s.latches) : (s.poolStep p fault f).latches = s.latches := by
  unfold State.poolStep
  extract_lets w0 sp0 r0 u w sp u1 u2 u3
  have h0 : u.latches = s.latches := h
  have h1 : u1.latches = u.latches := by
    unfold u1
    split <;> simp
  have h2 : u2.latches = u1.latches := by
    unfold u2
    split <;> simp
  have h3 : u3.latches = u2.latches := by
    unfold u3
    split <;> simp
  clear_value u3 u2 u1 u
  split <;> simp [h3, h2, h1, h0]

@[simp] theorem State.latches_domOff (s : State) (d : Nat) (st : DomState) (why : DomWhy) :
    (s.domOff d st why).latches = s.latches := rfl

@[simp] theorem State.latches_domWants (s : State) (d : Nat) (why : DomWhy) : (s.domWants d why).latches = s.latches := by
  simp [State.domWants]

@[simp] theorem State.latches_countReplay (s : State) (u : Nat) : (s.countReplay u).latches = s.latches := by
  unfold State.countReplay
  split <;> simp

@[simp] theorem State.latches_moveCtxs (s : State) (u : Nat) (v : Option Nat) : (s.moveCtxs u v).latches = s.latches := by
  unfold State.moveCtxs
  split
  · rfl
  · split
    · refine State.latches_foldl (fun s p => ?_) _ _
      split
      · rfl
      · extract_lets ctr t
        split
        next ok v access =>
          have kept : v.latches = s.latches := (State.latches_of_fabWrite access).trans (s.latches_modDg _)
          split
          · exact kept
          · exact (v.latches_clearLane u).trans kept
    · exact s.latches_clearLane u

@[simp] theorem State.latches_dropBadEntries (s : State) (u : Nat) : (s.dropBadEntries u).latches = s.latches := by
  simp [State.dropBadEntries, apply_ite State.latches]

@[simp] theorem State.latches_portFalls (s : State) (b : Bool) : (s.portFalls b).latches = s.latches := by
  unfold State.portFalls
  split <;> simp

@[simp] theorem State.latches_fencePort (s : State) (b : Bool) : (s.fencePort b).latches = s.latches := by
  simp [State.fencePort, apply_ite State.latches]

@[simp] theorem State.latches_callSpare (s : State) (p : Nat) : (s.callSpare p).latches = s.latches := by
  unfold State.callSpare
  (repeat' split) <;> simp

@[simp] theorem State.latches_takeOver (s : State) (u t : Nat) (taker : Option Nat) :
    (s.takeOver u t taker).latches = s.latches := by
  unfold State.takeOver
  dsimp only
  (repeat' split) <;> simp

@[simp] theorem State.latches_drainTo (s : State) (u t v : Nat) : (s.drainTo u t v).latches = s.latches := by
  simp [State.drainTo]

@[simp] theorem State.latches_fenceUnit (s : State) (u : Nat) : (s.fenceUnit u).latches = s.latches := by
  unfold State.fenceUnit
  extract_lets x
  split
  · rfl
  · split
    · extract_lets v
      have step : v.latches = s.latches := by
        refine State.latches_poolStep _ _ _ _ ?_
        extract_lets taker s1 s2 s3 s4 s5 s6 s7
        clear_value taker
        have h1 : s1.latches = s.latches := by
          unfold s1
          split <;> simp
        have h3 : s3.latches = s2.latches := by
          unfold s3
          split
          · rfl
          · split <;> simp
        have h5 : s5.latches = s4.latches := by
          unfold s5
          split <;> simp
        have h6 : s6.latches = s5.latches := by
          unfold s6
          split <;> simp
        have h7 : s7.latches = s.latches :=
          (s6.latches_moveJobs _ _).trans (h6.trans (h5.trans (s3.latches_renewReserve.trans (h3.trans
            ((s1.latches_modUnit _ _).trans h1)))))
        clear_value s7
        split <;> simp [h7]
      exact v.latches_schedule.trans step
    · rfl

@[simp] theorem State.latches_retireUnit (s : State) (u : Nat) : (s.retireUnit u).latches = s.latches := by
  unfold State.retireUnit
  extract_lets c u1 u2 off
  have turnedOff : ∀ t, (off t).latches = t.latches := fun t => by
    unfold off
    split
    · split <;> simp
    · rfl
  have start : u2.latches = s.latches := rfl
  clear_value off u2
  split
  · refine (State.latches_poolStep _ _ _ _ ?_).trans start
    rw [turnedOff, State.latches_modUnit]
  · rw [turnedOff, State.latches_modUnit, start]

@[simp] theorem State.latches_beginProof (s : State) (u need : Nat) : (s.beginProof u need).latches = s.latches := rfl

@[simp] theorem State.latches_startRepair (s : State) (u : Nat) : (s.startRepair u).latches = s.latches := by
  unfold State.startRepair
  (repeat' split) <;> simp

@[simp] theorem State.latches_joinUnit (s : State) (u : Nat) (announce : Bool) :
    (s.joinUnit u announce).latches = s.latches := by
  unfold State.joinUnit
  extract_lets enter v1 v2
  have enters : ∀ role t, (enter role t).latches = t.latches := fun role t => rfl
  clear_value enter
  have h1 : v1.latches = s.latches := by
    unfold v1
    split
    · exact enters _ _
    · refine State.latches_poolStep _ _ _ _ ?_
      extract_lets w
      have joined : w.latches = s.latches := enters _ _
      clear_value w
      split
      · exact joined
      · split
        · exact joined
        · simp [joined]
  have h2 : v2.latches = v1.latches := by
    unfold v2
    split <;> simp
  simp [h2, h1]

@[simp] theorem State.latches_repairUnit (s : State) (u : Nat) : (s.repairUnit u).latches = s.latches := by
  simp [State.repairUnit, apply_ite State.latches]

@[simp] theorem State.latches_modRng (s : State) (f : Rng → Rng) : (s.modRng f).latches = s.latches := rfl
@[simp] theorem State.latches_entropy (s : State) (n : Nat) : (s.entropy n).2.latches = s.latches := rfl
@[simp] theorem State.latches_rngInstantiate (s : State) : s.rngInstantiate.latches = s.latches := rfl
@[simp] theorem State.latches_rngFromReserve (s : State) : s.rngFromReserve.latches = s.latches := rfl

@[simp] theorem State.latches_rngReserve (s : State) : s.rngReserve.latches = s.latches := by
  simp [State.rngReserve, apply_ite State.latches]

@[simp] theorem State.latches_reseedNow (s : State) : s.reseedNow.latches = s.latches := rfl

@[simp] theorem State.latches_request (s : State) (n : Nat) (pr : Bool) : (s.request n pr).2.latches = s.latches := by
  unfold State.request
  dsimp only
  (repeat' split) <;> simp

@[simp] theorem State.latches_requests (s : State) (ns : List Nat) : (s.requests ns).2.latches = s.latches := by
  induction ns generalizing s with
  | nil => rfl
  | cons n r ih =>
    unfold State.requests
    split
    next h =>
      split
      next g => exact (State.latches_snd g).trans ((ih _).trans ((State.latches_snd h).trans (s.latches_request n _)))
      next => rfl
    next => rfl

@[simp] theorem State.latches_healthFail (s : State) (adaptive : Bool) : (s.healthFail adaptive).latches = s.latches := rfl

theorem State.latches_reserveOut {s u : State} {t : Nat} (h : s.reserveOut t = some u) : u.latches = s.latches := by
  unfold State.reserveOut at h
  split at h
  · rw [Option.some.inj h]
  · extract_lets n b free k at h
    split at h
    · rw [Option.some.inj h]
    · split at h
      · rw [← Option.some.inj h]
        rfl
      · split at h
        · cases h
        · rw [← Option.some.inj h]
          rfl

theorem State.keepOut_keepsLatches (s : State) (t : Nat) (out : List Byte) : s.KeepsLatches (s.keepOut t out) := by
  unfold State.keepOut
  split
  · exact rfl
  · split
    · exact rfl
    · extract_lets us base u1 u2
      have start : u2.latches = s.latches := rfl
      clear_value u2
      refine Eq.trans (State.KeepsLatches.foldl (fun r p => ?_) _ _) start
      extract_lets c
      split
      next ok v access => exact State.latches_of_fabWrite access

@[simp] theorem State.latches_keepOut (s : State) (t : Nat) (out : List Byte) : (s.keepOut t out).2.latches = s.latches :=
  s.keepOut_keepsLatches t out

@[simp] theorem State.latches_readOn (s : State) (l : Link) (before x : List Byte) (upTo : Nat) :
    (s.readOn l before x upTo).2.latches = s.latches := by
  unfold State.readOn
  split <;> simp

theorem State.inputOf_keepsLatches (s : State) (l : Link) : s.KeepsLatches (s.inputOf l) := by
  unfold State.inputOf
  split
  · exact s.latches_readOn _ _ _ _
  · extract_lets e
    split
    · exact rfl
    · split
      next ok t h =>
        have kept : t.latches = s.latches := by
          refine (State.latches_snd h).trans (State.KeepsLatches.foldl (fun r p => ?_) _ _)
          split
          next ok v access => exact State.latches_of_fabRead access
        split
        · exact kept
        · extract_lets got
          cases got with
          | some x => exact kept
          | none => exact kept

@[simp] theorem State.latches_inputOf (s : State) (l : Link) : (s.inputOf l).2.latches = s.latches :=
  s.inputOf_keepsLatches l

@[simp] theorem State.latches_modGone (s : State) (slot : Nat) (e : SlotEnt) : (s.modGone slot e).latches = s.latches := rfl

theorem State.allocate_keepsLatches (s : State) (slot mode : Nat) (supplied : List Byte) (fixed : Word) (gone : Bool)
    (e : SlotEnt) : s.KeepsLatches (s.allocate slot mode supplied fixed gone e) := by
  unfold State.allocate
  extract_lets fam built other drawn
  have drew : drawn.2.latches = s.latches := by
    unfold drawn
    split <;> simp
  clear_value drawn
  split
  · exact rfl
  · split
    · exact drew
    · exact drew
    next iv u =>
      split
      · exact drew
      · split
        extract_lets v t
        have counted : v.latches = u.latches := by
          unfold v
          split <;> simp
        clear_value v
        have told : t.latches = v.latches := by
          unfold t
          split
          · simp
          · split <;> simp
        exact told.trans (counted.trans drew)

@[simp] theorem State.latches_allocate (s : State) (slot mode : Nat) (supplied : List Byte) (fixed : Word) (gone : Bool)
    (e : SlotEnt) : (s.allocate slot mode supplied fixed gone e).2.latches = s.latches :=
  s.allocate_keepsLatches slot mode supplied fixed gone e

@[simp] theorem State.latches_laneError (s : State) (l : Link) : (s.laneError l).latches = s.latches := by
  simp [State.laneError, apply_ite State.latches]

@[simp] theorem State.latches_accessFails (s : State) (l : Link) (addr : Nat) (write timedOut : Bool) :
    (s.accessFails l addr write timedOut).latches = s.latches := by
  simp [State.accessFails, apply_ite State.latches]

@[simp] theorem State.latches_readsDone (s : State) (t : Nat) : (s.readsDone t).latches = s.latches := rfl

@[simp] theorem State.latches_writeOut (s : State) (l : Link) (out : List Byte) :
    (s.writeOut l out).2.latches = s.latches := by
  unfold State.writeOut
  (repeat' split) <;> simp

@[simp] theorem State.latches_writeBlob (s : State) (slot : Nat) (e : SlotEnt) :
    (s.writeBlob slot e).2.latches = s.latches := by
  unfold State.writeBlob
  split <;> simp

@[simp] theorem State.latches_toCommit (s : State) (l : Link) (fills : Option Nat) (out : Nat) (result : DWord) :
    (s.toCommit l fills out result).latches = s.latches := by
  unfold State.toCommit
  (repeat' split) <;> simp

@[simp] theorem State.latches_conclude (s : State) (l : Link) (r : Ended) : (s.conclude l r).latches = s.latches := by
  cases r with
  | fail st => exact s.latches_finish _ _ _ _
  | failWith st res => exact s.latches_finish _ _ _ _
  | later => rfl
  | failAfter st out =>
    rw [State.conclude]
    split
    next u a b h _ => simp [(State.latches_snd h).trans (s.latches_writeOut _ _)]
    next u h _ => simp [(State.latches_snd h).trans (s.latches_writeOut _ _)]
    next u h => simp [(State.latches_snd h).trans (s.latches_writeOut _ _)]
  | good out res =>
    rw [State.conclude]
    split
    next u a b h _ => simp [(State.latches_snd h).trans (s.latches_writeOut _ _)]
    next u h _ => simp [(State.latches_snd h).trans (s.latches_writeOut _ _)]
    next u h => simp [(State.latches_snd h).trans (s.latches_writeOut _ _)]
  | writes slots regs out res =>
    rw [State.conclude]
    split
    next ok t h =>
      have wrote : t.latches = s.latches := (State.latches_snd h).trans (s.latches_writeOut _ _)
      split
      next ok' u h' =>
        have kept : u.latches = s.latches := by
          refine ((State.latches_snd h').trans (State.KeepsLatches.foldl (fun r p => ?_) _ _)).trans wrote
          split
          next ok v g => exact (State.latches_snd g).trans (r.2.latches_writeBlob _ _)
        split
        · simp [kept]
        · split
          · simp [kept]
          · split
            · simp [kept]
            · split <;> simp [kept]

@[simp] theorem State.latches_takeCounts (s : State) (supplied : List Byte) (passed : SlotEnt)
    (uses : List (Nat × Bool × Option Nat)) (iv : Iv) : (s.takeCounts supplied passed uses iv).2.latches = s.latches := by
  induction uses generalizing s iv with
  | nil => rfl
  | cons use r ih =>
    obtain ⟨n, consumes, alloc⟩ := use
    unfold State.takeCounts
    split
    · exact ih _ _
    · extract_lets live gone e u
      have touched : u.latches = s.latches := s.latches_touchSlot n
      clear_value u
      cases alloc with
      | none =>
        dsimp only
        split
        · exact touched
        · rw [ih]
          split <;> simp [touched]
      | some m =>
        dsimp only
        split
        next x t h => exact (State.latches_snd h).trans ((u.latches_allocate _ _ _ _ _ _).trans touched)
        next iv t h => exact (ih _ _).trans ((State.latches_snd h).trans ((u.latches_allocate _ _ _ _ _ _).trans touched))

@[simp] theorem State.latches_modTag (s : State) (t : Nat) (f : TagEnt → TagEnt) : (s.modTag t f).latches = s.latches := by
  unfold State.modTag
  split <;> simp

@[simp] theorem State.latches_drbgOpen (s : State) (l : Link) : (s.drbgOpen l).latches = s.latches := rfl

@[simp] theorem State.latches_drbgClose (s : State) (t : Nat) (waits : Bool) : (s.drbgClose t waits).latches = s.latches :=
  rfl

@[simp] theorem State.latches_paramsRead (s : State) (l : Link) (p : Plan) : (s.paramsRead l p).2.latches = s.latches := by
  unfold State.paramsRead
  split <;> simp

@[simp] theorem State.latches_checkFailed (s : State) (l : Link) (m : Mark) : (s.checkFailed l m).latches = s.latches := by
  simp [State.checkFailed, apply_ite State.latches]

/-- The state that the start of a link leaves. -/
def Begun.after : Begun → State
  | .stays s => s
  | .runs s _ _ _ => s

theorem State.latches_beginLink (s : State) (l : Link) (p : Plan) (sup : List Byte) :
    (s.beginLink l p sup).after.latches = s.latches := by
  unfold State.beginLink
  split
  · rfl
  · split
    next ok t h =>
      have read : t.latches = s.latches := (State.latches_snd h).trans (s.latches_paramsRead l p)
      split
      · simp [Begun.after, read]
      · split
        · simp [Begun.after, read]
        · split
          · simp [Begun.after, read]
          · split
            · simp [Begun.after, read]
            · simp [Begun.after]
            next e w _ =>
              split
              · simp [Begun.after, read]
              next u reserved =>
                have kept : u.latches = s.latches := (State.latches_reserveOut reserved).trans read
                extract_lets marked
                have stays : marked.latches = s.latches := (u.latches_modTag _ _).trans kept
                clear_value marked
                split
                · simp [Begun.after, kept]
                · simp [Begun.after, stays]
                · simp [Begun.after, stays]
                · simp [Begun.after, stays]
                · split
                  next => simp [Begun.after, stays]
                  next x v _ counted =>
                    have kept' : v.latches = s.latches :=
                      (State.latches_snd counted).trans (by simp [kept])
                    simp [Begun.after, kept']
                  next iv v counted =>
                    have kept' : v.latches = s.latches :=
                      (State.latches_snd counted).trans (by simp [kept])
                    simp [Begun.after, kept']

/-- The work of an opcode leaves the latches alone. -/
def Plan.KeepsLatches (p : Plan) : Prop := ∀ s e w iv x, (p.body s e w iv x).2.latches = s.latches

theorem State.latches_runPlan (s : State) (l : Link) {p : Plan} (h : p.KeepsLatches) (sup : List Byte) :
    (s.runPlan l p sup).latches = s.latches := by
  unfold State.runPlan
  extract_lets r
  refine (r.latches_readsDone _).trans ?_
  have begins := s.latches_beginLink l p sup
  unfold r
  split
  next t b => rwa [b] at begins
  next t e w iv b =>
    rw [b] at begins
    have begun : t.latches = s.latches := begins
    split
    next u g =>
      have kept : u.latches = s.latches := ((State.latches_snd g).trans (t.latches_inputOf l)).trans begun
      simp [kept]
    next x u g =>
      have kept : u.latches = s.latches := ((State.latches_snd g).trans (t.latches_inputOf l)).trans begun
      split
      · simp [kept]
      · split
        next => simp [begun]
        next r v _ work =>
          have kept' : v.latches = s.latches := (State.latches_snd work).trans ((h _ _ _ _ _).trans (by simp [kept]))
          split <;> simp [kept']

theorem State.latches_runOp (s : State) (t : BitVec 14) (d : LinkData) (p : Nat → Bool) {plan : State → Link → Plan}
    (h : ∀ s l, (plan s l).KeepsLatches) (sup : Link → List Byte) : (s.runOp t d p plan sup).latches = s.latches := by
  unfold State.runOp
  split
  · rfl
  · exact s.latches_runPlan _ (h _ _) _

@[simp] theorem State.latches_readTo (s : State) (l : Link) (p : Plan) (pos : Nat) :
    (s.readTo l p pos).2.latches = s.latches := by
  unfold State.readTo
  extract_lets upTo
  split
  next t h => exact (State.latches_snd h).trans (s.latches_inputOf _)
  next x t h =>
    have kept : t.latches = s.latches := (State.latches_snd h).trans (s.latches_inputOf _)
    extract_lets y
    split
    · exact kept
    · split
      · exact kept
      · split
        next u g => exact ((State.latches_snd g).trans (t.latches_readOn _ _ _ _)).trans kept
        next y u g => exact ((State.latches_snd g).trans (t.latches_readOn _ _ _ _)).trans kept

@[simp] theorem State.latches_markLink (s : State) (l : Link) (p : Plan) (sup : List Byte) (pos : Nat) :
    (s.markLink l p sup pos).2.latches = s.latches := by
  have begins := s.latches_beginLink l p sup
  unfold State.markLink
  split
  next t b =>
    rw [b] at begins
    exact (t.latches_readsDone _).trans begins
  next t e w iv b =>
    rw [b] at begins
    have begun : t.latches = s.latches := begins
    split
    next u g =>
      have kept : u.latches = s.latches := ((State.latches_snd g).trans (t.latches_readTo l p pos)).trans begun
      simp [kept]
    next f u g =>
      have kept : u.latches = s.latches := ((State.latches_snd g).trans (t.latches_readTo l p pos)).trans begun
      split
      · simp [kept]
      · extract_lets m out
        split
        next ok v wrote =>
          have kept' : v.latches = s.latches := by
            refine (State.latches_snd wrote).trans ?_
            split
            · exact kept
            · exact (u.latches_writeOut _ _).trans kept
          split
          · simp [kept']
          · split <;> simp [kept']

@[simp] theorem State.latches_drawAhead (s : State) (l : Link) (p : Plan) : (s.drawAhead l p).latches = s.latches := by
  unfold State.drawAhead
  split <;> simp

@[simp] theorem State.latches_authFailed (s : State) : (s.authFailed).2.latches = s.latches := rfl

@[simp] theorem State.latches_secondPass (a : Aead) (l : Link) (key matched : List Byte) (x : List Byte) (s : State) :
    (secondPass a l key matched x s).2.latches = s.latches := by
  unfold secondPass
  dsimp only
  split <;> simp

@[simp] theorem State.latches_fetchCtxs (s : State) (t : Nat) : (s.fetchCtxs t).latches = s.latches := by
  unfold State.fetchCtxs
  split
  · rfl
  · split
    · rfl
    · split <;> rename_i h <;> simp [(State.latches_snd h).trans (s.latches_digestStart _ _ _)]

theorem State.latches_runDigest (s : State) (t : BitVec 14) (d : LinkData) (p : Nat → Bool) {plan : State → Link → Plan}
    (h : ∀ s l, (plan s l).KeepsLatches) : (s.runDigest t d p plan).latches = s.latches := by
  unfold State.runDigest
  extract_lets u
  have ran : u.latches = s.latches := s.latches_runOp _ _ _ h _
  clear_value u
  split
  · exact s.latches_fetchCtxs _
  · split
    · split <;> simp [ran]
    · exact ran

@[simp] theorem State.latches_sessAbsorb (s : State) (l : Link) (c : DCtx) (x : List Byte) :
    (s.sessAbsorb l c x).2.latches = s.latches := by
  unfold State.sessAbsorb
  dsimp only
  split <;> simp

@[simp] theorem State.latches_contextRestored (s : State) (k : Nat) (data : List Byte) :
    (s.contextRestored k data).latches = s.latches := by
  unfold State.contextRestored
  dsimp only
  (repeat' split) <;> simp

@[simp] theorem State.latches_withRandom (s : State) (n : Nat) (f : State → List Byte → Ended × State)
    (h : ∀ t b, (f t b).2.latches = t.latches) : (s.withRandom n f).2.latches = s.latches := by
  unfold State.withRandom
  split
  next g => exact (h _ _).trans ((State.latches_snd g).trans (s.latches_request _ _))
  next g => exact (State.latches_snd g).trans (s.latches_request _ _)
  next g => exact (State.latches_snd g).trans (s.latches_request _ _)

theorem State.latches_bisect {c : Edwards} {fuel : Nat} {l : List EdItem} {s t : State} {v : List Nat}
    (h : State.bisect c fuel l s = .ok (v, t)) : t.latches = s.latches := by
  induction fuel generalizing l s t v with
  | zero =>
    cases h
    rfl
  | succ n ih =>
    unfold State.bisect at h
    split at h
    · cases h
      rfl
    · split at h
      · cases h
      · cases h
      next b u g =>
        have drew : u.latches = s.latches := (State.latches_snd g).trans (s.latches_request _ _)
        split at h
        · cases h
          exact drew
        · extract_lets k half at h
          have halves : ∀ {x : List EdItem} {s1 s2 : State} {w : List Nat}, half x s1 = .ok (w, s2) →
              s2.latches = s1.latches := fun {x s1 s2 w} e => by
            unfold half at e
            split at e
            · cases e
              rfl
            · exact ih e
          clear_value half
          split at h
          · cases h
          next v1 u1 first =>
            split at h
            · cases h
            next v2 u2 second =>
              cases h
              exact (halves second).trans ((halves first).trans drew)

end Sys2Proof.Machine
end

section
/-! SUPPORT. The plans of the opcodes and the events of the rings leave the latches alone. -/

namespace Sys2Proof.Machine

theorem cbcPlan_keepsLatches (dec : Bool) (s : State) (l : Link) : (cbcPlan dec s l).KeepsLatches :=
  fun _ _ _ _ _ => rfl

theorem ctrPlan_keepsLatches (dec : Bool) (s : State) (l : Link) : (ctrPlan dec s l).KeepsLatches :=
  fun _ _ _ _ _ => rfl

theorem xtsPlan_keepsLatches (dec : Bool) (s : State) (l : Link) : (xtsPlan dec s l).KeepsLatches :=
  fun _ _ _ _ _ => rfl

theorem sealPlan_keepsLatches (a : Aead) (mac : Bool) (s : State) (l : Link) : (sealPlan a mac s l).KeepsLatches :=
  fun _ _ _ _ _ => rfl

theorem openPlan_keepsLatches (a : Aead) (mac : Bool) (s : State) (l : Link) : (openPlan a mac s l).KeepsLatches := by
  intro t e w iv x
  unfold openPlan
  dsimp only
  generalize (if mac = true then l.n - l.tagLen else l.aadLen) = k
  split
  · simp
  · split
    · rfl
    · split
      · simp
      · split <;> rename_i h
        · simp [(State.latches_snd h).trans (t.latches_readOn _ _ _ _)]
        · exact (State.latches_snd h).trans (t.latches_readOn _ _ _ _)

theorem kwWrapPlan_keepsLatches (s : State) (l : Link) : (kwWrapPlan s l).KeepsLatches :=
  fun _ _ _ _ _ => rfl

theorem kwUnwrapPlan_keepsLatches (s : State) (l : Link) : (kwUnwrapPlan s l).KeepsLatches := by
  intro t e w iv x
  dsimp only [kwUnwrapPlan]
  split <;> simp

theorem kwpWrapPlan_keepsLatches (s : State) (l : Link) : (kwpWrapPlan s l).KeepsLatches :=
  fun _ _ _ _ _ => rfl

theorem kwpUnwrapPlan_keepsLatches (s : State) (l : Link) : (kwpUnwrapPlan s l).KeepsLatches := by
  intro t e w iv x
  dsimp only [kwpUnwrapPlan]
  (repeat' split) <;> simp

theorem digestPlan_keepsLatches (code : Nat → Nat) (shake : Bool) (s : State) (l : Link) :
    (digestPlan code shake s l).KeepsLatches :=
  fun _ _ _ _ _ => rfl

theorem hmacPlan_keepsLatches (s : State) (l : Link) : (hmacPlan s l).KeepsLatches :=
  fun _ _ _ _ _ => rfl

theorem kdfPlan_keepsLatches (k : Kdf) (s : State) (l : Link) : (kdfPlan k s l).KeepsLatches := by
  intro t e w iv x
  dsimp only [kdfPlan]
  (repeat' split) <;> simp

theorem sessStartPlan_keepsLatches (s : State) (l : Link) : (sessStartPlan s l).KeepsLatches := by
  intro t e w iv x
  simp [sessStartPlan]

theorem sessUpdatePlan_keepsLatches (s : State) (l : Link) : (sessUpdatePlan s l).KeepsLatches := by
  intro t e w iv x
  dsimp only [sessUpdatePlan]
  split <;> simp

theorem sessFinishPlan_keepsLatches (s : State) (l : Link) : (sessFinishPlan s l).KeepsLatches := by
  intro t e w iv x
  dsimp only [sessFinishPlan]
  (repeat' split) <;> simp

theorem sessAbortPlan_keepsLatches (s : State) (l : Link) : (sessAbortPlan s l).KeepsLatches := by
  intro t e w iv x
  dsimp only [sessAbortPlan]
  split <;> simp

theorem oaepEncryptPlan_keepsLatches (s : State) (l : Link) : (oaepEncryptPlan s l).KeepsLatches := by
  intro t e w iv x
  dsimp only [oaepEncryptPlan]
  split <;> simp

theorem oaepDecryptPlan_keepsLatches (s : State) (l : Link) : (oaepDecryptPlan s l).KeepsLatches := by
  intro t e w iv x
  dsimp only [oaepDecryptPlan]
  (repeat' split) <;> simp

theorem rsaSignPlan_keepsLatches (pss : Bool) (s : State) (l : Link) : (rsaSignPlan pss s l).KeepsLatches := by
  intro t e w iv x
  refine t.latches_withRandom _ _ (fun u b => ?_)
  dsimp only
  (repeat' split) <;> rfl

theorem rsaVerifyPlan_keepsLatches (pss : Bool) (s : State) (l : Link) : (rsaVerifyPlan pss s l).KeepsLatches := by
  intro t e w iv x
  dsimp only [rsaVerifyPlan]
  split <;> simp

theorem rsaRawPlan_keepsLatches (s : State) (l : Link) : (rsaRawPlan s l).KeepsLatches := by
  intro t e w iv x
  dsimp only [rsaRawPlan]
  (repeat' split) <;> simp

theorem keygenPlan_keepsLatches (algs : Nat → Bool) (binding : Nat) (s : State) (l : Link) :
    (keygenPlan algs binding s l).KeepsLatches :=
  fun t _ _ _ _ => t.latches_withRandom _ _ (fun _ _ => rfl)

theorem ecdsaSignPlan_keepsLatches (s : State) (l : Link) : (ecdsaSignPlan s l).KeepsLatches := by
  intro t e w iv x
  refine t.latches_withRandom _ _ (fun u b => ?_)
  split <;> rfl

theorem verifyPlan_keepsLatches (f : PkForm) (isHash : Bool) (binding : Nat)
    (equation : Nat → List Byte → List Byte → List Byte → List Byte → Bool) (s : State) (l : Link) :
    (verifyPlan f isHash binding equation s l).KeepsLatches := by
  intro t e w iv x
  dsimp only [verifyPlan]
  split <;> simp

theorem ecdsaVerifyPlan_keepsLatches (s : State) (l : Link) : (ecdsaVerifyPlan s l).KeepsLatches :=
  verifyPlan_keepsLatches _ _ _ _ s l

theorem eddsaSignPlan_keepsLatches (s : State) (l : Link) : (eddsaSignPlan s l).KeepsLatches :=
  fun t _ _ _ _ => t.latches_withRandom _ _ (fun _ _ => rfl)

theorem eddsaVerifyPlan_keepsLatches (s : State) (l : Link) : (eddsaVerifyPlan s l).KeepsLatches :=
  verifyPlan_keepsLatches _ _ _ _ s l

theorem batchPlan_keepsLatches {f : PkForm} {binding : Nat}
    {decideItems : State → Nat → List Byte → List (List Byte × List Byte × List Byte) → Except Ended (List Nat × State)}
    (h : ∀ s a c i v t, decideItems s a c i = .ok (v, t) → t.latches = s.latches) (s : State) (l : Link) :
    (batchPlan f binding decideItems s l).KeepsLatches := by
  intro t e w iv x
  unfold batchPlan
  dsimp only
  split
  · rfl
  · split
    · rfl
    next g => exact h _ _ _ _ _ _ g

theorem eddsaBatchPlan_keepsLatches (s : State) (l : Link) : (eddsaBatchPlan s l).KeepsLatches :=
  batchPlan_keepsLatches (fun _ _ _ _ _ _ h => State.latches_bisect h) s l

theorem xdhAgreePlan_keepsLatches (s : State) (l : Link) : (xdhAgreePlan s l).KeepsLatches :=
  fun t _ _ _ _ => t.latches_withRandom _ _ (fun _ _ => rfl)

theorem pkPublicPlan_keepsLatches (algs : Nat → Bool) (binding : Nat → Bool) (s : State) (l : Link) :
    (pkPublicPlan algs binding s l).KeepsLatches :=
  fun _ _ _ _ _ => rfl

theorem encapsPlan_keepsLatches (s : State) (l : Link) : (encapsPlan s l).KeepsLatches := by
  intro t e w iv x
  dsimp only [encapsPlan]
  split <;> simp

theorem decapsPlan_keepsLatches (s : State) (l : Link) : (decapsPlan s l).KeepsLatches :=
  fun t _ _ _ _ => t.latches_withRandom _ _ (fun _ _ => rfl)

theorem mldsaSignPlan_keepsLatches (s : State) (l : Link) : (mldsaSignPlan s l).KeepsLatches := by
  intro t e w iv x
  unfold mldsaSignPlan
  dsimp only
  split
  · split <;> rfl
  · exact t.latches_withRandom _ _ (fun u b => by split <;> rfl)

theorem mldsaVerifyPlan_keepsLatches (s : State) (l : Link) : (mldsaVerifyPlan s l).KeepsLatches :=
  verifyPlan_keepsLatches _ _ _ _ s l

theorem mldsaBatchPlan_keepsLatches (s : State) (l : Link) : (mldsaBatchPlan s l).KeepsLatches :=
  batchPlan_keepsLatches (fun _ _ _ _ _ _ h => by
    cases h
    rfl) s l

theorem hssVerifyPlan_keepsLatches (s : State) (l : Link) : (hssVerifyPlan s l).KeepsLatches :=
  verifyPlan_keepsLatches _ _ _ _ s l

theorem slhVerifyPlan_keepsLatches (s : State) (l : Link) : (slhVerifyPlan s l).KeepsLatches :=
  verifyPlan_keepsLatches _ _ _ _ s l

theorem randomPlan_keepsLatches (s : State) (l : Link) : (randomPlan s l).KeepsLatches := by
  intro t e w iv x
  unfold randomPlan
  dsimp only
  split <;> rename_i h <;> exact (State.latches_snd h).trans (t.latches_request _ _)

@[simp] theorem State.latches_withBlob (s : State) (e : SlotEnt) (f : State → SlotEnt → Ended × State)
    (h : ∀ t x, (f t x).2.latches = t.latches) : (s.withBlob e f).2.latches = s.latches := by
  unfold State.withBlob
  split
  · exact s.latches_withRandom _ _ (fun t k => h _ _)
  · exact h _ _

@[simp] theorem State.latches_drawKey (fuel binding n : Nat) (s : State) :
    (State.drawKey fuel binding n s).2.latches = s.latches := by
  induction fuel generalizing s with
  | zero => rfl
  | succ f ih =>
    unfold State.drawKey
    split
    next b t h =>
      have drew : t.latches = s.latches := (State.latches_snd h).trans (s.latches_request _ _)
      split
      · exact (ih t).trans drew
      · exact drew
    · exact s.latches_request _ _

theorem createPlan_keepsLatches (s : State) (l : Link) : (createPlan s l).KeepsLatches := by
  intro t e w iv x
  unfold createPlan
  dsimp only
  split <;> rename_i h <;> exact (State.latches_snd h).trans (State.latches_drawKey _ _ _ _)

theorem importPlan_keepsLatches (s : State) (l : Link) : (importPlan s l).KeepsLatches := by
  intro t e w iv x
  unfold importPlan
  dsimp only
  split
  · rfl
  · split
    · rfl
    · exact t.latches_withBlob _ _ (fun _ _ => rfl)

theorem exportPlan_keepsLatches (s : State) (l : Link) : (exportPlan s l).KeepsLatches :=
  fun _ _ _ _ _ => rfl

theorem importPublicPlan_keepsLatches (s : State) (l : Link) : (importPublicPlan s l).KeepsLatches := by
  intro t e w iv x
  unfold importPublicPlan
  dsimp only
  split
  · rfl
  · exact t.latches_withBlob _ _ (fun _ _ => rfl)

theorem derivePlan_keepsLatches (s : State) (l : Link) : (derivePlan s l).KeepsLatches :=
  fun t _ _ _ _ => t.latches_withBlob _ _ (fun _ _ => rfl)

theorem setAttrPlan_keepsLatches (s : State) (l : Link) : (setAttrPlan s l).KeepsLatches :=
  fun _ _ _ _ _ => rfl

theorem queryPlan_keepsLatches (s : State) (l : Link) : (queryPlan s l).KeepsLatches :=
  fun _ _ _ _ _ => rfl

theorem retirePlan_keepsLatches (s : State) (l : Link) : (retirePlan s l).KeepsLatches :=
  fun _ _ _ _ _ => rfl

theorem authRegisterPlan_keepsLatches (s : State) (l : Link) : (authRegisterPlan s l).KeepsLatches := by
  intro t e w iv x
  dsimp only [authRegisterPlan]
  (repeat' split) <;> simp

theorem authClearPlan_keepsLatches (s : State) (l : Link) : (authClearPlan s l).KeepsLatches :=
  fun _ _ _ _ _ => rfl

theorem sweepPlan_keepsLatches (s : State) (l : Link) : (sweepPlan s l).KeepsLatches := by
  intro t e w iv x
  dsimp only [sweepPlan]
  (repeat' split) <;> simp

theorem escrowExportPlan_keepsLatches (s : State) (l : Link) : (escrowExportPlan s l).KeepsLatches :=
  fun _ _ _ _ _ => rfl

theorem escrowImportPlan_keepsLatches (s : State) (l : Link) : (escrowImportPlan s l).KeepsLatches := by
  intro t e w iv x
  unfold escrowImportPlan
  dsimp only
  split
  · rfl
  · split
    · rfl
    · exact t.latches_withBlob _ _ (fun _ _ => rfl)

@[simp] theorem State.latches_missReadReturn (s : State) (slot : Nat) (read : VaultRead) :
    (s.missReadReturn slot read).latches = s.latches := by
  unfold State.missReadReturn
  dsimp only
  (repeat' split) <;> simp

@[simp] theorem State.latches_batchClose (s : State) : s.batchClose.latches = s.latches := by
  simp [State.batchClose, apply_ite State.latches]

@[simp] theorem State.latches_batchCommit (s : State) : s.batchCommit.latches = s.latches := by
  unfold State.batchCommit
  (repeat' split) <;> simp

@[simp] theorem State.latches_batchFail (s : State) : s.batchFail.latches = s.latches := by
  unfold State.batchFail
  (repeat' split) <;> simp

@[simp] theorem State.latches_sweepTo (s : State) (pos : Nat) : (s.sweepTo pos).latches = s.latches := by
  simp [State.sweepTo, apply_ite State.latches]

@[simp] theorem State.latches_clearBatch (s : State) (place idx : Nat) : (s.clearBatch place idx).latches = s.latches := by
  simp [State.clearBatch]

@[simp] theorem State.latches_sweepSkip (s : State) (pos place : Nat) : (s.sweepSkip pos place).latches = s.latches := by
  simp [State.sweepSkip, apply_ite State.latches]

@[simp] theorem State.latches_sweepFails (s : State) (pos place : Nat) : (s.sweepFails pos place).latches = s.latches := by
  simp [State.sweepFails, apply_ite State.latches]

@[simp] theorem State.latches_sweepJoin (s : State) (pos : Nat) (read : VaultRead) :
    (s.sweepJoin pos read).latches = s.latches := by
  unfold State.sweepJoin
  (repeat' split) <;> simp

@[simp] theorem State.latches_sweepStep (s : State) (read : VaultRead) : (s.sweepStep read).latches = s.latches := by
  unfold State.sweepStep
  split
  · extract_lets pos asked u
    have start : u.latches = s.latches := s.latches_answered _
    clear_value u
    split
    · split <;> simp [start]
    · split
      · simp [start]
      · split
        · simp [start]
        · split
          · simp [start]
          next t h =>
            have kept : t.latches = s.latches := (State.latches_verifyPath h).trans ((u.latches_touchPath pos).trans start)
            split <;> simp [kept]
  · rfl

@[simp] theorem State.latches_closeVault (s : State) : s.closeVault.latches = s.latches := by
  simp [State.closeVault, apply_ite State.latches]

@[simp] theorem State.latches_writeRegion (s : State) (q : WReq) : (s.writeRegion q).latches = s.latches := by
  simp [State.writeRegion, apply_ite State.latches]

@[simp] theorem State.latches_writeBlobReg (s : State) (q : WReq) : (s.writeBlobReg q).latches = s.latches := by
  simp [State.writeBlobReg, apply_ite State.latches]

@[simp] theorem State.latches_pvWrite (s : State) (off : Nat) (q : WReq) : (pvWrite s off q).latches = s.latches := by
  unfold pvWrite
  split <;> simp

@[simp] theorem State.latches_modBu (s : State) (f : Burin → Burin) : (s.modBu f).latches = s.latches := rfl
@[simp] theorem State.latches_modEtch (s : State) (f : Etch → Etch) : (s.modEtch f).latches = s.latches := rfl
@[simp] theorem State.latches_etchErr (s : State) (n : Nat) : (s.etchErr n).latches = s.latches := rfl

@[simp] theorem State.latches_etchOpen (s : State) : s.etchOpen.latches = s.latches := by
  simp [State.etchOpen, apply_ite State.latches]

@[simp] theorem State.latches_etchOpenDone (s : State) : s.etchOpenDone.latches = s.latches := by
  simp [State.etchOpenDone, apply_ite State.latches]

@[simp] theorem State.latches_etchClose (s : State) : s.etchClose.latches = s.latches := by
  simp [State.etchClose, apply_ite State.latches]

@[simp] theorem State.latches_etchCtrlClear (s : State) : s.etchCtrlClear.latches = s.latches := by
  simp [State.etchCtrlClear, apply_ite State.latches]

@[simp] theorem State.latches_etchCtrl (s : State) (q : WReq) : (s.etchCtrl q).latches = s.latches := by
  unfold State.etchCtrl
  dsimp only
  (repeat' split) <;> simp

@[simp] theorem State.latches_etchStep (s : State) : s.etchStep.latches = s.latches := rfl

@[simp] theorem State.latches_etchData (s : State) (x : DWord) : (s.etchData x).latches = s.latches := by
  simp [State.etchData, apply_ite State.latches]

@[simp] theorem State.latches_bootFails (s : State) (code : Nat) : (s.bootFails code).latches = s.latches := rfl

@[simp] theorem State.latches_bootBegin (s : State) : s.bootBegin.latches = s.latches := by
  unfold State.bootBegin
  dsimp only
  split <;> simp

@[simp] theorem State.latches_bootStart (s : State) (image : List Byte) (unsigned : Bool) :
    (s.bootStart image unsigned).latches = s.latches := rfl

@[simp] theorem State.latches_bootVerify (s : State) (image : List Byte) (busError : Bool) :
    (s.bootVerify image busError).latches = s.latches := by
  unfold State.bootVerify
  dsimp only
  (repeat' split) <;> simp

@[simp] theorem State.latches_rolledBack (s : State) : s.rolledBack.latches = s.latches := by
  simp [State.rolledBack, apply_ite State.latches]

@[simp] theorem State.latches_bootPtr (s : State) (q : WReq) : (s.bootPtr q).latches = s.latches := by
  simp [State.bootPtr, apply_ite State.latches]

@[simp] theorem State.latches_buWrite (s : State) (off : Nat) (q : WReq) : (buWrite s off q).latches = s.latches := by
  simp [buWrite, apply_ite State.latches]

@[simp] theorem State.latches_buTake (s : State) (off : Nat) : (buTake s off).latches = s.latches := by
  simp [buTake, apply_ite State.latches]

@[simp] theorem State.latches_modCh (s : State) (c : Nat) (f : DmaCh → DmaCh) : (s.modCh c f).latches = s.latches := rfl

@[simp] theorem State.latches_chEnd (s : State) (c : Nat) (st : DmaState) (err : Nat) :
    (s.chEnd c st err).latches = s.latches := by
  simp [State.chEnd, apply_ite State.latches]

@[simp] theorem State.latches_sramWrite (s : State) (space addr : Nat) (l : List Byte) :
    (s.sramWrite space addr l).latches = s.latches := by
  simp [State.sramWrite, apply_ite State.latches]

@[simp] theorem State.latches_modBurst (s : State) (c n : Nat) (f : Burst → Burst) :
    (s.modBurst c n f).latches = s.latches := rfl
@[simp] theorem State.latches_chStop (s : State) (c err : Nat) : (s.chStop c err).latches = s.latches := rfl

@[simp] theorem State.latches_crcWrite (s : State) (c : Nat) : (s.crcWrite c).latches = s.latches := by
  simp [State.crcWrite, apply_ite State.latches]

@[simp] theorem State.latches_chFinish (s : State) (c : Nat) : (s.chFinish c).latches = s.latches := by
  simp [State.chFinish, apply_ite State.latches]

@[simp] theorem State.latches_chSettle (s : State) (c : Nat) : (s.chSettle c).latches = s.latches := by
  unfold State.chSettle
  dsimp only
  (repeat' split) <;> simp

@[simp] theorem State.latches_burstWrite (s : State) (c : Nat) (b : Burst) : (s.burstWrite c b).latches = s.latches := by
  simp [State.burstWrite, apply_ite State.latches]

@[simp] theorem State.latches_burstRead (s : State) (c : Nat) (b : Burst) : (s.burstRead c b).latches = s.latches := by
  simp [State.burstRead, apply_ite State.latches]

@[simp] theorem State.latches_mover (fuel : Nat) (s : State) : (State.mover fuel s).latches = s.latches := by
  induction fuel generalizing s with
  | zero => rfl
  | succ n ih =>
    unfold State.mover
    split
    · rfl
    · split
      · rfl
      · simp [ih]

@[simp] theorem State.latches_moveOn (s : State) : s.moveOn.latches = s.latches := by
  simp [State.moveOn, apply_ite State.latches]

@[simp] theorem State.latches_dmaStart (s : State) (c : Nat) : (s.dmaStart c).latches = s.latches := by
  simp [State.dmaStart, apply_ite State.latches]

@[simp] theorem State.latches_dmaPause (s : State) (c : Nat) : (s.dmaPause c).latches = s.latches := by
  simp [State.dmaPause, apply_ite State.latches]

@[simp] theorem State.latches_dmaAbort (s : State) (c : Nat) : (s.dmaAbort c).latches = s.latches := by
  simp [State.dmaAbort, apply_ite State.latches]

@[simp] theorem State.latches_dmaReadReturn (s : State) (c n : Nat) (data : List Byte) :
    (s.dmaReadReturn c n data).latches = s.latches := by
  unfold State.dmaReadReturn
  (repeat' split) <;> simp [apply_ite State.latches]

@[simp] theorem State.latches_dmaBurstDone (s : State) (c n : Nat) : (s.dmaBurstDone c n).latches = s.latches := by
  unfold State.dmaBurstDone
  (repeat' split) <;> simp

@[simp] theorem State.latches_dmaBurstFail (s : State) (c n : Nat) (denied : Bool) :
    (s.dmaBurstFail c n denied).latches = s.latches := by
  unfold State.dmaBurstFail
  (repeat' split) <;> simp [apply_ite State.latches]

@[simp] theorem State.latches_dmaCrcFail (s : State) (c : Nat) : (s.dmaCrcFail c).latches = s.latches := by
  simp [State.dmaCrcFail, apply_ite State.latches]

@[simp] theorem State.latches_dmaRetry (s : State) (c n : Nat) : (s.dmaRetry c n).latches = s.latches := by
  unfold State.dmaRetry
  (repeat' split) <;> simp [apply_ite State.latches]

@[simp] theorem State.latches_dmaCrcWritten (s : State) (c : Nat) : (s.dmaCrcWritten c).latches = s.latches := by
  simp [State.dmaCrcWritten, apply_ite State.latches]

@[simp] theorem State.latches_dmaResume (s : State) : s.dmaResume.latches = s.latches := by
  simp [State.dmaResume, apply_ite State.latches]

@[simp] theorem State.latches_dmaFault (s : State) : s.dmaFault.latches = s.latches := by
  simp [State.dmaFault, apply_ite State.latches]

@[simp] theorem State.latches_dmaHaltAll (s : State) (err : Nat) : (s.dmaHaltAll err).latches = s.latches := by
  simp [State.dmaHaltAll, apply_ite State.latches]

@[simp] theorem State.latches_dmCtrl (s : State) (c : Nat) (x : DWord) (init : BitVec 16) :
    (s.dmCtrl c x init).latches = s.latches := by
  simp [State.dmCtrl, apply_ite State.latches]

@[simp] theorem State.latches_dmWrite (s : State) (off : Nat) (q : WReq) : (dmWrite s off q).latches = s.latches := by
  unfold dmWrite
  (repeat' split) <;> simp [apply_ite State.latches]

@[simp] theorem State.latches_frameArrival (s : State) (p : Nat) (f : FrameIn) :
    (s.frameArrival p f).latches = s.latches := by
  simp [State.frameArrival, apply_ite State.latches]

@[simp] theorem State.latches_lookup (s : State) (p : Nat) (f : Queued) (x : Parsed) (a : Option KmEnt) :
    (s.lookup p f x a).latches = s.latches := by
  unfold State.lookup
  dsimp only
  (repeat' split) <;> simp

@[simp] theorem State.latches_parseFrame (s : State) (p : Nat) : (s.parseFrame p).latches = s.latches := by
  unfold State.parseFrame
  dsimp only
  (repeat' split) <;> simp

@[simp] theorem State.latches_parseGap (s : State) (p : Nat) : (s.parseGap p).latches = s.latches := by
  unfold State.parseGap
  (repeat' split) <;> simp

@[simp] theorem State.latches_freshness (s : State) (p : Nat) (j : Job) : (s.freshness p j).2.latches = s.latches := by
  unfold State.freshness
  (repeat' split) <;> simp

@[simp] theorem State.latches_tagFailed (s : State) (j : Job) : (s.tagFailed j).latches = s.latches := by
  simp [State.tagFailed, apply_ite State.latches]

@[simp] theorem State.latches_tagComplete (s : State) (p : Nat) (seq : Word) :
    (s.tagComplete p seq).latches = s.latches := by
  unfold State.tagComplete
  dsimp only
  (repeat' split) <;> simp

@[simp] theorem State.latches_portRestart (s : State) (p : Nat) : (s.portRestart p).latches = s.latches := by
  simp [State.portRestart, apply_ite State.latches]

@[simp] theorem State.latches_portDrained (s : State) (p : Nat) : (s.portDrained p).latches = s.latches := by
  simp [State.portDrained, apply_ite State.latches]

@[simp] theorem State.latches_portReady (s : State) (p : Nat) : (s.portReady p).latches = s.latches := rfl

@[simp] theorem State.latches_portCtrl (s : State) (p : Nat) (x : DWord) : (s.portCtrl p x).latches = s.latches := by
  simp [State.portCtrl, apply_ite State.latches]

@[simp] theorem State.latches_kmFinish (s : State) (i : Nat) (k : KmEnt) : (s.kmFinish i k).latches = s.latches := by
  unfold State.kmFinish
  (repeat' split) <;> simp

@[simp] theorem State.latches_kmCommit (s : State) : s.kmCommit.latches = s.latches := by
  unfold State.kmCommit
  dsimp only
  (repeat' split) <;> simp

@[simp] theorem State.latches_kmResume (s : State) : s.kmResume.latches = s.latches := by
  unfold State.kmResume
  (repeat' split) <;> simp

@[simp] theorem State.latches_kmInvalidate (s : State) : s.kmInvalidate.latches = s.latches := rfl

@[simp] theorem State.latches_activate (s : State) : s.activate.latches = s.latches := by
  simp [State.activate, apply_ite State.latches]

@[simp] theorem State.latches_actReached (s : State) (i : Nat) : (s.actReached i).latches = s.latches := by
  simp [State.actReached, apply_ite State.latches]

@[simp] theorem State.latches_kmBusyClear (s : State) : s.kmBusyClear.latches = s.latches := by
  unfold State.kmBusyClear
  (repeat' split) <;> simp

@[simp] theorem State.latches_kmLoad (s : State) : s.kmLoad.latches = s.latches := rfl

@[simp] theorem State.latches_kmCmd (s : State) (op : Nat) : (s.kmCmd op).latches = s.latches := by
  unfold State.kmCmd
  (repeat' split) <;> simp

@[simp] theorem State.latches_ssCommit (s : State) : s.ssCommit.latches = s.latches := by
  simp [State.ssCommit, apply_ite State.latches]

@[simp] theorem State.latches_ssCmd (s : State) (op : Nat) : (s.ssCmd op).latches = s.latches := by
  unfold State.ssCmd
  split <;> simp

@[simp] theorem State.latches_stWrite (s : State) (off : Nat) (q : WReq) : (stWrite s off q).latches = s.latches := by
  unfold stWrite
  (repeat' split) <;> simp

@[simp] theorem State.latches_stTake (s : State) (off : Nat) (hi : Bool) : (stTake s off hi).latches = s.latches := by
  simp [stTake, apply_ite State.latches]

@[simp] theorem State.latches_loseLink (s : State) (t : Nat) (e : TagEnt) : (s.loseLink t e).latches = s.latches := by
  unfold State.loseLink
  split <;> simp

@[simp] theorem State.latches_eraseSession (s : State) : s.eraseSession.latches = s.latches := by
  simp [State.eraseSession, apply_ite State.latches]

@[simp] theorem State.latches_eraseAll (s : State) : s.eraseAll.latches = s.latches := by
  simp [State.eraseAll]

@[simp] theorem State.latches_respond (s : State) (response : Nat) : (s.respond response).latches = s.latches := by
  unfold State.respond
  (repeat' split) <;> simp

@[simp] theorem State.latches_tamperRecord (s : State) (cause response : Nat) :
    (s.tamperRecord cause response).latches = s.latches := by
  simp [State.tamperRecord, apply_ite State.latches]

@[simp] theorem State.latches_tamperEvent (s : State) (cause response : Nat) (time : DWord) :
    (s.tamperEvent cause response time).latches = s.latches := by
  simp [State.tamperEvent]

@[simp] theorem State.latches_alarmRecords (s : State) (line response : Nat) :
    (s.alarmRecords line response).latches = s.latches := by
  simp [State.alarmRecords, apply_ite State.latches]

@[simp] theorem State.latches_alarms (s : State) (lines : List Nat) : (s.alarms lines).latches = s.latches := by
  simp [State.alarms, apply_ite State.latches]

@[simp] theorem State.latches_alarmLevels (s : State) (levels : BitVec 16) : (s.alarmLevels levels).latches = s.latches := by
  simp [State.alarmLevels]

@[simp] theorem State.latches_preempt (s : State) : s.preempt.latches = s.latches := by
  simp [State.preempt]

@[simp] theorem State.latches_cellCritical (s : State) : s.cellCritical.latches = s.latches := by
  simp [State.cellCritical, apply_ite State.latches]

@[simp] theorem State.latches_cellLevel (s : State) (c : Cell) : (s.cellLevel c).latches = s.latches := by
  simp [State.cellLevel, apply_ite State.latches]

@[simp] theorem State.latches_cellDepleted (s : State) : s.cellDepleted.latches = s.latches := by
  simp [State.cellDepleted, apply_ite State.latches]

@[simp] theorem State.latches_testGo (s : State) (line window : Nat) : (s.testGo line window).latches = s.latches := by
  simp [State.testGo, apply_ite State.latches]

@[simp] theorem State.latches_testEnd (s : State) (seen still : Bool) : (s.testEnd seen still).latches = s.latches := by
  simp [State.testEnd, apply_ite State.latches]

@[simp] theorem State.latches_tsTest (s : State) (q : WReq) : (s.tsTest q).latches = s.latches := by
  simp [State.tsTest, apply_ite State.latches]

@[simp] theorem State.latches_lineWrite (s : State) (n : Nat) (v : Word) : (s.lineWrite n v).latches = s.latches := by
  simp [State.lineWrite, apply_ite State.latches]

@[simp] theorem State.latches_softErase (s : State) (response cause : Nat) :
    (s.softErase response cause).latches = s.latches := by
  simp [State.softErase]

@[simp] theorem State.latches_tsWrite (s : State) (off : Nat) (q : WReq) : (tsWrite s off q).latches = s.latches := by
  simp [tsWrite, apply_ite State.latches]

@[simp] theorem State.latches_modFc (s : State) (f : Collector → Collector) (h : (f s.fc).halted = s.fc.halted)
    (h' : (f s.fc).lockdown = s.fc.lockdown) : (s.modFc f).latches = s.latches := by
  show ((f s.fc).halted, (f s.fc).lockdown, s.po.rpUp) = _
  rw [h, h']
  rfl

@[simp] theorem State.latches_burinHalts (s : State) : s.burinHalts.latches = s.latches := rfl

@[simp] theorem State.latches_putBack (s : State) (u : Nat) : (s.putBack u).latches = s.latches := by
  unfold State.putBack
  split <;> simp

@[simp] theorem State.latches_fenceSource (s : State) (n : Nat) : (s.fenceSource n).latches = s.latches := by
  unfold State.fenceSource
  (repeat' split) <;> simp

@[simp] theorem State.latches_takeOut (s : State) (n : Nat) : (s.takeOut n).latches = s.latches := by
  unfold State.takeOut
  (repeat' split) <;> simp

@[simp] theorem State.latches_burinLink (s : State) : s.burinLink.latches = s.latches := by
  unfold State.burinLink
  (repeat' split) <;> simp

@[simp] theorem State.latches_actL3 (s : State) (n : Nat) : (s.actL3 n).latches = s.latches := by
  unfold State.actL3
  (repeat' split) <;> simp [apply_ite State.latches]

@[simp] theorem State.latches_settleHeld (s : State) : s.settleHeld.latches = s.latches := by
  simp [State.settleHeld, apply_ite State.latches]

@[simp] theorem State.latches_capture (s : State) (m : FMsg) (lv : Nat) : (s.capture m lv).latches = s.latches := by
  simp [State.capture, apply_ite State.latches]

@[simp] theorem State.latches_faultEvent (s : State) (m : FMsg) (lv : Nat) : (s.faultEvent m lv).latches = s.latches := by
  simp [State.faultEvent]

@[simp] theorem State.latches_armedCheck (s : State) (n kind : Nat) : (s.armedCheck n kind).latches = s.latches := by
  simp [State.armedCheck, apply_ite State.latches]

@[simp] theorem State.latches_checker (s : State) (n kind : Nat) (addr : BitVec 44) :
    (s.checker n kind addr).latches = s.latches := by
  unfold State.checker
  dsimp only
  (repeat' split) <;> simp

@[simp] theorem State.latches_fcCtrl (s : State) (q : WReq) : (s.fcCtrl q).latches = s.latches := by
  simp [State.fcCtrl, apply_ite State.latches]

@[simp] theorem State.latches_srcCfg (s : State) (q : WReq) : (s.srcCfg q).latches = s.latches := by
  simp [State.srcCfg, apply_ite State.latches]

@[simp] theorem State.latches_fcAck (s : State) (x : DWord) : (s.fcAck x).latches = s.latches := by
  simp [State.fcAck, apply_ite State.latches]

@[simp] theorem State.latches_fcInj (s : State) (q : WReq) : (s.fcInj q).latches = s.latches := by
  simp [State.fcInj, apply_ite State.latches]

@[simp] theorem State.latches_fcUnit (s : State) (q : WReq) : (s.fcUnit q).latches = s.latches := by
  unfold State.fcUnit
  dsimp only
  (repeat' split) <;> simp

@[simp] theorem State.latches_fcWrite (s : State) (off : Nat) (q : WReq) : (fcWrite s off q).latches = s.latches := by
  simp [fcWrite, apply_ite State.latches]

@[simp] theorem State.latches_modMb (s : State) (f : Mailboxes → Mailboxes) : (s.modMb f).latches = s.latches := rfl
@[simp] theorem State.latches_modPath (s : State) (b : MailBox) (g : MbPath → MbPath) :
    (s.modPath b g).latches = s.latches := rfl
@[simp] theorem State.latches_evtSync (s : State) : s.evtSync.latches = s.latches := rfl

@[simp] theorem State.latches_mbSignal (s : State) (f : Nat) : (s.mbSignal f).latches = s.latches := by
  simp [State.mbSignal, apply_ite State.latches]

@[simp] theorem State.latches_mbWake (s : State) (b : MailBox) : (s.mbWake b).latches = s.latches := by
  unfold State.mbWake
  (repeat' split) <;> simp

@[simp] theorem State.latches_goCarried (s : State) (b : MailBox) (init : BitVec 16) (world : Bool) :
    (s.goCarried b init world).latches = s.latches := by
  unfold State.goCarried
  dsimp only
  (repeat' split) <;> simp

@[simp] theorem State.latches_goDo (s : State) (b : MailBox) (off : Nat) (init : BitVec 16) (world : Bool) :
    (s.goDo b off init world).latches = s.latches := by
  simp [State.goDo, apply_ite State.latches]

@[simp] theorem State.latches_mbRelease (s : State) (b : MailBox) : (s.mbRelease b).latches = s.latches := rfl

@[simp] theorem State.latches_txWrite (s : State) (b : MailBox) (o : Nat) (q : WReq) :
    (s.txWrite b o q).latches = s.latches := by
  simp [State.txWrite, apply_ite State.latches]

@[simp] theorem State.latches_rxWrite (s : State) (b : MailBox) (o : Nat) (q : WReq) :
    (s.rxWrite b o q).latches = s.latches := by
  simp [State.rxWrite, apply_ite State.latches]

@[simp] theorem State.latches_mbStat (s : State) (f : Nat) (x : DWord) : (s.mbStat f x).latches = s.latches := rfl

@[simp] theorem State.latches_mbWrite (s : State) (off : Nat) (q : WReq) : (mbWrite s off q).latches = s.latches := by
  unfold mbWrite
  (repeat' split) <;> simp

@[simp] theorem State.latches_mbAnswer (s : State) (f : Nat) (p : Nat → Bool) (len : Option Nat) (known : Bool)
    (ans : State → List Word → List Word) :
    (s.mbAnswer f p len known ans).latches = s.latches := by
  unfold State.mbAnswer
  (repeat' split) <;> simp [apply_ite State.latches]

@[simp] theorem State.latches_resetRequest (s : State) (f : Nat) (squash byPort : Bool) :
    (s.resetRequest f squash byPort).2.latches = s.latches := by
  unfold State.resetRequest
  dsimp only
  (repeat' split) <;> simp

@[simp] theorem State.latches_drainTimeout (s : State) (f : Nat) : (s.drainTimeout f).latches = s.latches := by
  simp [State.drainTimeout, apply_ite State.latches]

@[simp] theorem State.latches_sendReset (s : State) (f : Nat) : (s.sendReset f).latches = s.latches := by
  simp [State.sendReset, apply_ite State.latches]

@[simp] theorem State.latches_resetDone (s : State) (f : Nat) : (s.resetDone f).latches = s.latches := by
  simp [State.resetDone, apply_ite State.latches]

@[simp] theorem State.latches_ftLoad (s : State) : s.ftLoad.latches = s.latches := rfl

@[simp] theorem State.latches_ftCommit (s : State) : s.ftCommit.latches = s.latches := by
  simp [State.ftCommit, apply_ite State.latches]

@[simp] theorem State.latches_ftEnable (s : State) : s.ftEnable.latches = s.latches := by
  simp [State.ftEnable, apply_ite State.latches]

@[simp] theorem State.latches_ftUnbind (s : State) : s.ftUnbind.latches = s.latches := by
  simp [State.ftUnbind, apply_ite State.latches]

@[simp] theorem State.latches_ftReset (s : State) (squash : Bool) : (s.ftReset squash).latches = s.latches := by
  simp [State.ftReset, apply_ite State.latches]

@[simp] theorem State.latches_ftCmd (s : State) (op : Nat) : (s.ftCmd op).latches = s.latches := by
  unfold State.ftCmd
  (repeat' split) <;> simp

@[simp] theorem State.latches_ftNumVf (s : State) (n : BitVec 10) : (s.ftNumVf n).latches = s.latches := by
  simp [State.ftNumVf, apply_ite State.latches]

@[simp] theorem State.latches_ftWrite (s : State) (off : Nat) (q : WReq) : (ftWrite s off q).latches = s.latches := by
  simp [ftWrite, apply_ite State.latches]

@[simp] theorem State.latches_eqCtrl (s : State) (f : Nat) (x : DWord) : (s.eqCtrl f x).latches = s.latches := by
  simp [State.eqCtrl, apply_ite State.latches]

@[simp] theorem State.latches_eqBase (s : State) (f : Nat) (x : DWord) : (s.eqBase f x).latches = s.latches := by
  simp [State.eqBase, apply_ite State.latches]

@[simp] theorem State.latches_eqCons (s : State) (f : Nat) (c : Word) : (s.eqCons f c).latches = s.latches := by
  simp [State.eqCons, apply_ite State.latches]

@[simp] theorem State.latches_pstateDone (s : State) (f : Nat) : (s.pstateDone f).latches = s.latches := by
  simp [State.pstateDone, apply_ite State.latches]

@[simp] theorem State.latches_unflush (s : State) (f n : Nat) : (s.unflush f n).latches = s.latches := by
  simp [State.unflush]

@[simp] theorem State.latches_vecCfg (s : State) (f : Nat) (x : DWord) : (s.vecCfg f x).latches = s.latches := by
  unfold State.vecCfg
  (repeat' split) <;> simp [apply_ite State.latches]

@[simp] theorem State.latches_pstateWrite (s : State) (f : Nat) (st : BitVec 2) :
    (s.pstateWrite f st).latches = s.latches := by
  simp [State.pstateWrite, apply_ite State.latches]

@[simp] theorem State.latches_macc (s : State) (ok : Bool) : (s.macc ok).latches = s.latches := by
  unfold State.macc
  (repeat' split) <;> simp

@[simp] theorem State.latches_flrReq (s : State) (f : Nat) : (s.flrReq f).latches = s.latches := by
  simp [State.flrReq, apply_ite State.latches]

@[simp] theorem State.latches_fnTake (s : State) (f off : Nat) (lo : Bool) : (fnTake s f off lo).latches = s.latches := by
  simp [fnTake, apply_ite State.latches]

@[simp] theorem State.latches_doorbellWrite (s : State) (f : Nat) (q : WReq) :
    (s.doorbellWrite f q).latches = s.latches := by
  unfold State.doorbellWrite
  dsimp only
  (repeat' split) <;> simp

@[simp] theorem State.latches_fnWrite (s : State) (f off : Nat) (q : WReq) : (fnWrite s f off q).latches = s.latches := by
  simp [fnWrite, apply_ite State.latches]

end Sys2Proof.Machine
end

section
/-! SUPPORT. The events of the stream verifier, of the vault and of the ports leave the latches alone. -/

namespace Sys2Proof.Machine

@[simp] theorem State.latches_modPw (s : State) (f : Power → Power) : (s.modPw f).latches = s.latches := rfl
@[simp] theorem State.latches_stopStartup (s : State) (step : Nat) : (s.stopStartup step).latches = s.latches := rfl

@[simp] theorem State.latches_stepOne (s : State) : s.stepOne.latches = s.latches := by
  simp [State.stepOne, apply_ite State.latches]

@[simp] theorem State.latches_stepTwo (s : State) : s.stepTwo.latches = s.latches := by
  simp [State.stepTwo, apply_ite State.latches]

@[simp] theorem State.latches_stepFour (s : State) : s.stepFour.latches = s.latches := by
  unfold State.stepFour
  dsimp only
  split <;> simp

@[simp] theorem State.latches_stepFiveBegin (s : State) : s.stepFiveBegin.latches = s.latches := by
  unfold State.stepFiveBegin
  extract_lets u
  have start : u.latches = s.latches := rfl
  refine (State.latches_foldl (fun t d => ?_) _ _).trans start
  split
  · split
    · rfl
    · split <;> simp
  · rfl

@[simp] theorem State.latches_katPools (s : State) : s.katPools.latches = s.latches := by
  simp [State.katPools, apply_ite State.latches]

@[simp] theorem State.latches_katEnd (s : State) : s.katEnd.latches = s.latches := by
  simp [State.katEnd, apply_ite State.latches]

@[simp] theorem State.latches_progress (s : State) : s.progress.latches = s.latches := by
  unfold State.progress
  (repeat' split) <;> simp [apply_ite State.latches]

@[simp] theorem State.latches_rngStart (s : State) : s.rngStart.latches = s.latches := by
  simp [State.rngStart, apply_ite State.latches]

@[simp] theorem State.latches_rngUp (s : State) : s.rngUp.latches = s.latches := by
  simp [State.rngUp, apply_ite State.latches]

@[simp] theorem State.latches_startJoin (s : State) (u : Nat) : (s.startJoin u).latches = s.latches := by
  simp [State.startJoin]

@[simp] theorem State.latches_startRetire (s : State) (u : Nat) : (s.startRetire u).latches = s.latches := by
  unfold State.startRetire
  extract_lets c v1 v2 v3 v4 v5
  have h2 : v2.latches = s.latches := rfl
  have h3 : v3.latches = s.latches := by
    unfold v3
    split
    · split
      · exact h2
      · exact (v2.latches_domOff _ _ _).trans h2
    · exact h2
  have h4 : v4.latches = s.latches := by
    unfold v4
    split <;> simp [h3]
  have h5 : v5.latches = s.latches := by
    unfold v5
    split <;> simp [h4]
  exact v5.latches_progress.trans h5

@[simp] theorem State.latches_burinUp (s : State) : s.burinUp.latches = s.latches := by
  simp [State.burinUp]

@[simp] theorem State.latches_bootEnd (s : State) (image : List Byte) (busError : Bool) :
    (s.bootEnd image busError).latches = s.latches := by
  unfold State.bootEnd
  split
  · extract_lets u v
    have verified : u.latches = s.latches := s.latches_bootVerify _ _
    clear_value u
    split
    · split <;> simp [v, verified]
    · split <;> simp [verified]
  · rfl

@[simp] theorem State.latches_bootAnswer (s : State) (image : List Byte) (busError : Bool) :
    (s.bootAnswer image busError).latches = s.latches := by
  simp [State.bootAnswer, apply_ite State.latches]

@[simp] theorem State.latches_bootPtrPhase (s : State) : s.bootPtrPhase.latches = s.latches := by
  simp [State.bootPtrPhase, apply_ite State.latches]

@[simp] theorem State.latches_derived (s : State) (uk : BitVec 256) : (s.derived uk).latches = s.latches := rfl
@[simp] theorem State.latches_freshVault (s : State) (secret : List Byte) : (s.freshVault secret).latches = s.latches := rfl

@[simp] theorem State.latches_spillKeys (s : State) : s.spillKeys.latches = s.latches := by
  unfold State.spillKeys
  split <;> rename_i h <;> exact (State.latches_snd h).trans (s.latches_requests _)

@[simp] theorem State.latches_ready (s : State) : s.ready.latches = s.latches := by
  unfold State.ready
  extract_lets recs v1 alarms ports v2 v3 v4 v5 d v6
  have h3 : v3.latches = s.latches := v2.latches_event _ _ _ _ _
  have h4 : v4.latches = s.latches := by
    unfold v4
    split
    · exact (v3.latches_event _ _ _ _ _).trans h3
    · exact h3
  have h5 : v5.latches = s.latches := (State.latches_foldl (fun t r => t.latches_tamperEvent _ _ _) _ _).trans h4
  have h6 : v6.latches = s.latches := by
    unfold v6
    split
    · exact (v5.latches_event _ _ _ _ _).trans h5
    · exact h5
  clear_value v6
  simp [h6]

@[simp] theorem State.latches_startupReady (s : State) (uk : BitVec 256) : (s.startupReady uk).latches = s.latches := by
  unfold State.startupReady
  split
  · rfl
  · split
    · split
      next b t h => simp [(State.latches_snd h).trans (s.latches_request _ _)]
      · rfl
    · simp

@[simp] theorem State.latches_pwrAck (s : State) (d : Nat) (level : Bool) : (s.pwrAck d level).latches = s.latches := by
  unfold State.pwrAck
  dsimp only
  split <;> simp

@[simp] theorem State.latches_ackTimeout (s : State) (d : Nat) : (s.ackTimeout d).latches = s.latches := by
  unfold State.ackTimeout
  dsimp only
  split <;> simp

@[simp] theorem State.latches_laneUp (s : State) (d : Nat) (why : DomWhy) : (s.laneUp d why).latches = s.latches := by
  unfold State.laneUp
  refine State.latches_foldl (fun t u => ?_) _ _
  extract_lets x
  split
  · rfl
  · split
    · split <;> simp
    · simp

theorem State.latches_withBu (s : State) (b : Burin) : ({ s with bu := b } : State).latches = s.latches := rfl

@[simp] theorem State.latches_etchCheck (s : State) : s.etchCheck.latches = s.latches := by
  unfold State.etchCheck
  extract_lets old b
  split
  · exact s.latches_withBu b
  · exact (State.latches_raise _ _ _ _).trans (s.latches_withBu _)

@[simp] theorem State.latches_unitBack (s : State) (u : Nat) (returned : Bool) :
    (s.unitBack u returned).latches = s.latches := by
  unfold State.unitBack
  extract_lets v1 v2 w1 w2 w3 w4
  have h2 : v2.latches = s.latches := by
    unfold v2
    split <;> rfl
  clear_value v2
  have h3 : w3.latches = s.latches := (w2.latches_modBu _).trans ((w1.latches_etchCheck).trans h2)
  have h4 : w4.latches = s.latches := h2
  clear_value w3 w4
  split
  · split <;> simp [h3]
  · split
    · split <;> simp [h4]
    · split
      · simp [h2]
      · split
        · simp [h2]
        · split
          · simp [h2]
          · split
            · simp [h2]
            · split <;> simp [h2]

@[simp] theorem State.latches_spareFails (s : State) (u : Nat) : (s.spareFails u).latches = s.latches := by
  simp [State.spareFails]

@[simp] theorem State.latches_drainCycle (s : State) (u : Nat) (clean : Bool) :
    (s.drainCycle u clean).latches = s.latches := by
  unfold State.drainCycle
  split <;> simp

@[simp] theorem State.latches_proofCycle (s : State) (u : Nat) (clean : Bool) :
    (s.proofCycle u clean).latches = s.latches := by
  unfold State.proofCycle
  extract_lets x booting v
  split
  · rfl
  · split
    · split <;> simp
    · split
      · simp
      · split
        · rfl
        · split
          · split
            · simp
            · split <;> simp
          · split
            · rfl
            · split
              · simp
              · split
                · split <;> simp [v]
                · simp

@[simp] theorem State.latches_standDown (s : State) (u : Nat) : (s.standDown u).latches = s.latches := by
  unfold State.standDown
  extract_lets x taker v1 v2 v3
  have h1 : v1.latches = s.latches := by
    unfold v1
    split <;> simp
  clear_value v1
  have h3 : v3.latches = s.latches := by
    unfold v3
    split
    · exact (v2.latches_moveCtxs _ _).trans h1
    · exact h1
  exact v3.latches_renewReserve.trans h3

@[simp] theorem State.latches_holdDomain (s : State) (d : Nat) : (s.holdDomain d).latches = s.latches := by
  unfold State.holdDomain
  extract_lets c v live w x
  have start : v.latches = s.latches := rfl
  have pools : w.latches = s.latches := by
    refine (State.latches_foldl (fun t u => ?_) _ _).trans start
    extract_lets p n m y
    have stood : y.latches = t.latches := t.latches_poolStep _ _ _ (t.latches_standDown u)
    split <;> simp [stood]
  clear_value w
  have unit : x.latches = s.latches := by
    unfold x
    split
    · exact pools
    · split
      · exact pools
      next u _ _ =>
        extract_lets y1 y2 y3 y4
        have h1 : y1.latches = s.latches := by
          unfold y1
          split <;> simp [pools]
        clear_value y1
        have h2 : y2.latches = s.latches := by
          unfold y2
          split <;> simp [h1]
        clear_value y2
        have h3 : y3.latches = s.latches := by
          unfold y3
          split <;> simp [h2]
        clear_value y3
        have h4 : y4.latches = s.latches := by
          unfold y4
          split <;> simp [h3]
        simp [h4]
  clear_value x
  refine (State.latches_schedule _).trans ?_
  split <;> simp [unit]

@[simp] theorem State.latches_domCtrl (s : State) (hold : Bool) : (s.domCtrl hold).latches = s.latches := by
  unfold State.domCtrl
  extract_lets d v x u
  have start : v.latches = s.latches := rfl
  split
  · rfl
  · split
    · rfl
    · split
      · exact start
      · split
        · simp [start]
        · split <;> simp [u, start]

@[simp] theorem State.latches_idleGate (s : State) (u : Nat) : (s.idleGate u).latches = s.latches := by
  unfold State.idleGate
  extract_lets x v lane may w
  have start : v.latches = s.latches := by
    unfold v
    split <;> simp
  clear_value v
  split
  · exact start
  · split
    · split <;> simp [start]
    · split <;> simp [w, start]

@[simp] theorem State.latches_proofWake (s : State) (u : Nat) : (s.proofWake u).latches = s.latches := by
  unfold State.proofWake
  extract_lets x v
  split
  · split <;> simp [v]
  · rfl

@[simp] theorem State.latches_powerReturn (s : State) : s.powerReturn.latches = s.latches := by
  unfold State.powerReturn
  split <;> simp

@[simp] theorem State.latches_identityValid (s : State) (ids : Identity) : (s.identityValid ids).latches = s.latches := by
  unfold State.identityValid
  split <;> simp

@[simp] theorem State.latches_refLost (s : State) : s.refLost.latches = s.latches := by
  unfold State.refLost
  split <;> simp

@[simp] theorem State.latches_refHoldover (s : State) : s.refHoldover.latches = s.latches := by
  unfold State.refHoldover
  split <;> simp

@[simp] theorem State.latches_refReturn (s : State) : s.refReturn.latches = s.latches := by
  unfold State.refReturn
  simp

@[simp] theorem State.latches_timeTo (s : State) (tm : DWord) : (s.timeTo tm).latches = s.latches := by
  unfold State.timeTo
  simp

@[simp] theorem State.latches_timeUpdate (s : State) (tm : DWord) : (s.timeUpdate tm).latches = s.latches := by
  unfold State.timeUpdate
  simp

@[simp] theorem State.latches_dropTxn (s : State) (id : Nat) : (s.dropTxn id).latches = s.latches := rfl

@[simp] theorem State.latches_dropFailed (s : State) (q : FabReq) : (s.dropFailed q).latches = s.latches := by
  simp [State.dropFailed, apply_ite State.latches]

@[simp] theorem State.latches_modTxn (s : State) (id : Nat) (f : FabReq → FabReq) : (s.modTxn id f).latches = s.latches :=
  rfl

@[simp] theorem State.latches_laneLinkFails (s : State) (u : Nat) : (s.laneLinkFails u).latches = s.latches := by
  unfold State.laneLinkFails
  split <;> simp

@[simp] theorem State.latches_linkAccessFails (s : State) (t : Nat) : (s.linkAccessFails t).latches = s.latches := by
  unfold State.linkAccessFails
  (repeat' split) <;> simp

@[simp] theorem State.latches_contextFails (s : State) (k : Nat) : (s.contextFails k).latches = s.latches := by
  unfold State.contextFails
  (repeat' split) <;> simp

@[simp] theorem State.latches_fetchFails (s : State) (r : Nat) (header : Bool) :
    (s.fetchFails r header).latches = s.latches := by
  unfold State.fetchFails
  (repeat' split) <;> simp

@[simp] theorem State.latches_completionFails (s : State) (r : Nat) : (s.completionFails r).latches = s.latches := by
  simp [State.completionFails, apply_ite State.latches]

@[simp] theorem State.latches_txnFails (s : State) (q : FabReq) : (s.txnFails q).latches = s.latches := by
  unfold State.txnFails
  split <;> simp

@[simp] theorem State.latches_failTxn (s : State) (q : FabReq) : (s.failTxn q).latches = s.latches := by
  simp [State.failTxn, apply_ite State.latches]

@[simp] theorem State.latches_lateAnswer (s : State) (id : Nat) : (s.lateAnswer id).latches = s.latches := rfl

@[simp] theorem State.latches_keepTid (s : State) (q : FabReq) : (s.keepTid q).latches = s.latches := by
  unfold State.keepTid
  split <;> simp

@[simp] theorem State.latches_responseFail (s : State) (id : Nat) (retry : Bool) :
    (s.responseFail id retry).latches = s.latches := by
  unfold State.responseFail
  (repeat' split) <;> simp

@[simp] theorem State.latches_retryTxn (s : State) (id : Nat) : (s.retryTxn id).latches = s.latches := by
  unfold State.retryTxn
  (repeat' split) <;> simp

@[simp] theorem State.latches_timeoutTxn (s : State) (id : Nat) : (s.timeoutTxn id).latches = s.latches := by
  unfold State.timeoutTxn
  (repeat' split) <;> simp

@[simp] theorem State.latches_fabParity (s : State) (portB : Bool) : (s.fabParity portB).latches = s.latches := by
  simp [State.fabParity]

@[simp] theorem State.latches_creditBack (s : State) (c : Channel) (n : BitVec 4) :
    (s.creditBack c n).latches = s.latches := by
  simp [State.creditBack, apply_ite State.latches]

@[simp] theorem State.latches_syncCheck (s : State) : s.syncCheck.latches = s.latches := by
  simp [State.syncCheck, apply_ite State.latches]

@[simp] theorem State.latches_modPf (s : State) (f : Profile → Profile) : (s.modPf f).latches = s.latches := rfl

@[simp] theorem State.latches_profileAsk (s : State) (r : BitVec 2) : (s.profileAsk r).latches = s.latches := by
  simp [State.profileAsk, apply_ite State.latches]

@[simp] theorem State.latches_withdraw (s : State) (u : Nat) : (s.withdraw u).latches = s.latches := by
  simp [State.withdraw]

@[simp] theorem State.latches_profileDone (s : State) : s.profileDone.latches = s.latches := by
  unfold State.profileDone
  split
  · rfl
  · extract_lets old new kept u lanes v1 v2 v3 v4 v5
    have start : u.latches = s.latches := rfl
    have h1 : v1.latches = s.latches := by
      unfold v1
      split
      · exact (State.latches_foldl (fun t u => by split <;> rfl) _ _).trans start
      · exact start
    clear_value v1
    have h2 : v2.latches = s.latches := by
      unfold v2
      split
      · exact (State.latches_foldl (fun t u => t.latches_withdraw u) _ _).trans h1
      · exact h1
    clear_value v2
    have h3 : v3.latches = s.latches := by
      unfold v3
      split
      · refine (State.latches_foldl (fun t u => ?_) _ _).trans h2
        split
        · split <;> simp
        · rfl
      · exact h2
    clear_value v3
    clear_value kept
    have h5 : v5.latches = s.latches := by
      unfold v5
      split <;> simp [v4, h3]
    exact v5.latches_schedule.trans h5

@[simp] theorem State.latches_capWrite (s : State) (x : DWord) : (s.capWrite x).latches = s.latches := by
  simp [State.capWrite, apply_ite State.latches]

@[simp] theorem State.latches_override (s : State) (x : DWord) : (s.override x).latches = s.latches := by
  simp [State.override, apply_ite State.latches]

@[simp] theorem State.latches_fabricCfg (s : State) (x : DWord) : (s.fabricCfg x).latches = s.latches := by
  simp [State.fabricCfg, apply_ite State.latches]

@[simp] theorem State.latches_gcWrite (s : State) (off : Nat) (q : WReq) : (gcWrite s off q).latches = s.latches := by
  unfold gcWrite
  (repeat' split) <;> simp

@[simp] theorem State.latches_rtWrite (s : State) (off : Nat) (q : WReq) : (rtWrite s off q).latches = s.latches := by
  unfold rtWrite
  (repeat' split) <;> simp

@[simp] theorem State.latches_modSq (s : State) (f : Seq → Seq) : (s.modSq f).latches = s.latches := rfl

@[simp] theorem State.latches_scSpill (s : State) (x : DWord) : (s.scSpill x).latches = s.latches := by
  simp [State.scSpill, apply_ite State.latches]

@[simp] theorem State.latches_scWrite (s : State) (off : Nat) (q : WReq) : (scWrite s off q).latches = s.latches := by
  unfold scWrite
  (repeat' split) <;> simp

@[simp] theorem State.latches_scTake (s : State) (off : Nat) (lo hi : Bool) : (scTake s off lo hi).latches = s.latches := by
  simp [scTake, apply_ite State.latches]

@[simp] theorem State.latches_dlSpill (s : State) (x : DWord) : (s.dlSpill x).latches = s.latches := by
  simp [State.dlSpill, apply_ite State.latches]

@[simp] theorem State.latches_dlWrite (s : State) (off : Nat) (q : WReq) : (dlWrite s off q).latches = s.latches := by
  simp [dlWrite, apply_ite State.latches]

@[simp] theorem State.latches_rawMode (s : State) (on : Bool) : (s.rawMode on).latches = s.latches := by
  unfold State.rawMode
  dsimp only
  (repeat' split) <;> simp

@[simp] theorem State.latches_reseedAsk (s : State) : s.reseedAsk.latches = s.latches := rfl

@[simp] theorem State.latches_rngRestart (s : State) : s.rngRestart.latches = s.latches := by
  simp [State.rngRestart, apply_ite State.latches]

@[simp] theorem State.latches_rngCtrl (s : State) (x : DWord) : (s.rngCtrl x).latches = s.latches := by
  unfold State.rngCtrl
  dsimp only
  (repeat' split) <;> simp

@[simp] theorem State.latches_reseedDone (s : State) : s.reseedDone.latches = s.latches := by
  simp [State.reseedDone, apply_ite State.latches]

@[simp] theorem State.latches_reseedDue (s : State) : s.reseedDue.latches = s.latches := by
  simp [State.reseedDue, apply_ite State.latches]

@[simp] theorem State.latches_healthTest (s : State) (adaptive : Bool) : (s.healthTest adaptive).latches = s.latches := by
  unfold State.healthTest
  (repeat' split) <;> simp [apply_ite State.latches]

@[simp] theorem State.latches_pkWrite (s : State) (off : Nat) (q : WReq) : (pkWrite s off q).latches = s.latches := by
  simp [pkWrite, apply_ite State.latches]

@[simp] theorem State.latches_pkTake (s : State) (off : Nat) (lo hi : Bool) : (pkTake s off lo hi).latches = s.latches := by
  simp [pkTake, apply_ite State.latches]

@[simp] theorem State.latches_regTake (s : State) (off : Nat) (lo hi : Bool) :
    (regTake s off lo hi).latches = s.latches := by
  unfold regTake
  (repeat' split) <;> simp [apply_ite State.latches]

@[simp] theorem State.latches_measured (s : State) (off : Nat) : (s.measured off).latches = s.latches := by
  simp [State.measured, apply_ite State.latches]

@[simp] theorem State.latches_windowRead (s : State) (off : Nat) (lo hi : Bool) :
    (s.windowRead off lo hi).2.latches = s.latches := by
  simp [State.windowRead]

@[simp] theorem State.latches_journalWrite (s : State) (w : WLog) (old : DWord) (ignored denied : Bool) :
    (s.journalWrite w old ignored denied).latches = s.latches := by
  simp [State.journalWrite, apply_ite State.latches]

@[simp] theorem State.latches_rpAnswer (s : State) (data : DWord) (tag : BitVec 5) (error : Bool) :
    (s.rpAnswer data tag error).latches = s.latches := rfl

@[simp] theorem State.latches_portDown (s : State) (tag : BitVec 5) : (s.portDown tag).latches = s.latches := by
  simp [State.portDown, apply_ite State.latches]

@[simp] theorem State.latches_pageDenied (s : State) (off : Nat) (q : PortReq) (write : Bool) :
    (s.pageDenied off q write).latches = s.latches := rfl

@[simp] theorem State.latches_portRead (s : State) (off : Nat) (q : PortReq) : (s.portRead off q).latches = s.latches := by
  simp [State.portRead, apply_ite State.latches]

@[simp] theorem State.latches_routineEnds (s : State) (cause : Nat) : (s.routineEnds cause).latches = s.latches := by
  unfold State.routineEnds
  (repeat' split) <;> simp

@[simp] theorem State.latches_routineTraps (s : State) (pc : Word) (cause : Nat) :
    (s.routineTraps pc cause).latches = s.latches := by
  simp [State.routineTraps, apply_ite State.latches]

@[simp] theorem State.latches_viewLoad (s : State) (off : Nat) : (s.viewLoad off).2.latches = s.latches := by
  unfold State.viewLoad
  (repeat' split) <;> simp [apply_ite State.latches]

@[simp] theorem State.latches_secondMismatch (s : State) : s.secondMismatch.latches = s.latches := rfl

@[simp] theorem State.latches_wfeWake (s : State) : s.wfeWake.latches = s.latches := by
  simp [State.wfeWake, apply_ite State.latches]

@[simp] theorem State.latches_lockstepMismatch (s : State) : s.lockstepMismatch.latches = s.latches := by
  unfold State.lockstepMismatch
  dsimp only
  (repeat' split) <;> simp

@[simp] theorem State.latches_routine (s : State) (l : Link) (input : List Byte) :
    (s.routine l input).2.latches = s.latches := by
  unfold State.routine
  dsimp only
  (repeat' split) <;> simp

theorem etchedPlan_keepsLatches (s : State) (l : Link) : (etchedPlan s l).KeepsLatches := by
  intro t e w iv x
  dsimp only [etchedPlan]
  split <;> simp

@[simp] theorem State.latches_routineBudget (s : State) (t : Nat) : (s.routineBudget t).latches = s.latches := by
  unfold State.routineBudget
  dsimp only
  (repeat' split) <;> simp

@[simp] theorem State.latches_tapSelect (s : State) (ir : BitVec 5) (dr : BitVec 128) :
    (s.tapSelect ir dr).latches = s.latches := rfl
@[simp] theorem State.latches_tapIdcode (s : State) : s.tapIdcode.latches = s.latches := rfl
@[simp] theorem State.latches_tapBypass (s : State) : s.tapBypass.latches = s.latches := rfl
@[simp] theorem State.latches_tapReset (s : State) : s.tapReset.latches = s.latches := rfl

@[simp] theorem State.latches_dbgEnable (s : State) (on : Bool) : (s.dbgEnable on).latches = s.latches := by
  simp [State.dbgEnable, apply_ite State.latches]

theorem State.latches_withTap (s : State) (status : BitVec 2) (dr : BitVec 128) :
    ({ s with po := { s.po with tapStatus := status, tapDr := dr } } : State).latches = s.latches := rfl

@[simp] theorem State.latches_dbgDone (s : State) (dr : BitVec 128) (data : DWord) (status : BitVec 2) :
    (s.dbgDone dr data status).latches = s.latches :=
  s.latches_withTap status _

@[simp] theorem State.latches_debugDenied (s : State) (addr : Nat) (write : Bool) :
    (s.debugDenied addr write).latches = s.latches := rfl

@[simp] theorem State.latches_dbgFabric (s : State) (dr : BitVec 128) (addr : Nat) (write : Bool) (data answer : DWord) :
    (s.dbgFabric dr addr write data answer).latches = s.latches := by
  unfold State.dbgFabric
  extract_lets a fn u
  have start : u.latches = s.latches := s.latches_answered _
  clear_value u
  split
  · simp [start]
  · split
    · simp [start]
    · split
      next ok t h =>
        have kept : t.latches = s.latches := by
          refine (State.latches_snd h).trans ?_
          split <;> simp [start]
        split <;> simp [kept]

theorem latches_onBurin {f : State → List Byte → Ended × State} {s : State} {x : List Byte}
    (h : (f s x).2.latches = s.latches) : (onBurin f s x).2.latches = s.latches := by
  unfold onBurin
  split
  · exact h
  · rfl

@[simp] theorem State.latches_etchLoad (s : State) (b : List Byte) : (s.etchLoad b).2.latches = s.latches := by
  unfold State.etchLoad
  dsimp only
  (repeat' split) <;> simp

theorem etchLoadPlan_keepsLatches (s : State) (l : Link) : (etchLoadPlan s l).KeepsLatches :=
  fun t _ _ _ _ => latches_onBurin (t.latches_etchLoad _)

theorem etchClearPlan_keepsLatches (s : State) (l : Link) : (etchClearPlan s l).KeepsLatches :=
  fun _ _ _ _ _ => latches_onBurin rfl

@[simp] theorem State.latches_plateMark (s : State) (l : Link) (nonce : List Byte) :
    (s.plateMark l nonce).2.latches = s.latches := by
  unfold State.plateMark
  extract_lets payload
  split
  next t h => exact (State.latches_snd h).trans (s.latches_requests _)
  next t h => exact (State.latches_snd h).trans (s.latches_requests _)
  next rnd t h =>
    have drew : t.latches = s.latches := (State.latches_snd h).trans (s.latches_requests _)
    extract_lets ec pq
    clear_value ec pq
    split
    · split <;> exact drew
    · exact drew

theorem plateMarkPlan_keepsLatches (s : State) (l : Link) : (plateMarkPlan s l).KeepsLatches :=
  fun t _ _ _ _ => latches_onBurin (t.latches_plateMark _ _)

theorem plateKeysPlan_keepsLatches (s : State) (l : Link) : (plateKeysPlan s l).KeepsLatches :=
  fun _ _ _ _ _ => latches_onBurin rfl

theorem packPlan_keepsLatches (s : State) (l : Link) : (packPlan s l).KeepsLatches := by
  intro t e w iv x
  dsimp only [packPlan]
  split <;> simp

theorem unpackPlan_keepsLatches (s : State) (l : Link) : (unpackPlan s l).KeepsLatches := by
  intro t e w iv x
  dsimp only [unpackPlan]
  split <;> simp

@[simp] theorem State.latches_stippleCount (s : State) (pack : Bool) (n : Nat) (e : TagEnt) :
    (s.stippleCount pack n e).latches = s.latches := by
  unfold State.stippleCount
  (repeat' split) <;> simp

theorem State.latches_runStipple (s : State) (pack : Bool) (t : BitVec 14) (d : LinkData) (op : Nat)
    {plan : State → Link → Plan}
    (h : ∀ s l, (plan s l).KeepsLatches) : (s.runStipple pack t d op plan).latches = s.latches := by
  unfold State.runStipple
  split
  · rfl
  · extract_lets u
    have ran : u.latches = s.latches := s.latches_runOp _ _ _ h _
    clear_value u
    split
    · split <;> simp [ran]
    · exact ran

@[simp] theorem State.latches_yieldUnit (s : State) (l : Link) (p : Plan) (m : Mark) :
    (s.yieldUnit l p m).latches = s.latches := by
  simp [State.yieldUnit, apply_ite State.latches]

@[simp] theorem State.latches_suspendLink (s : State) (t pos : Nat) (d : LinkData) :
    (s.suspendLink t pos d).latches = s.latches := by
  unfold State.suspendLink
  split
  · rfl
  · split
    · rfl
    · split
      · rfl
      · extract_lets p k core pos' yields ends
        split
        · split
          next ok u h =>
            have marked : u.latches = s.latches := (State.latches_snd h).trans (s.latches_markLink _ _ _ _)
            extract_lets v
            have drew : v.latches = s.latches := by
              unfold v
              split <;> simp [marked]
            clear_value v
            split
            · exact drew
            · split
              · exact drew
              · split
                · simp [drew]
                · split
                  · exact drew
                  · rfl
        · rfl

@[simp] theorem State.latches_impression (s : State) (u : Nat) (d : LinkData) : (s.impression u d).latches = s.latches := by
  unfold State.impression
  split
  · rfl
  · split
    · rfl
    · split
      · rfl
      · split
        · extract_lets p
          split
          next ok v h =>
            have marked : v.latches = s.latches := (State.latches_snd h).trans (s.latches_markLink _ _ _ _)
            split <;> simp [marked]
        · rfl

@[simp] theorem State.latches_answeredFirst (s : State) (w : Who) (n : Nat) : (s.answeredFirst w n).latches = s.latches :=
  rfl

@[simp] theorem State.latches_enableReturn (s : State) (r : Nat) (data : List Byte) :
    (s.enableReturn r data).latches = s.latches := by
  unfold State.enableReturn
  (repeat' split) <;> simp

@[simp] theorem State.latches_headerReturn (s : State) (r : Nat) (data : List Byte) :
    (s.headerReturn r data).latches = s.latches := by
  unfold State.headerReturn
  (repeat' split) <;> simp [apply_ite State.latches]

@[simp] theorem State.latches_poll (s : State) (r : Nat) : (s.poll r).latches = s.latches := by
  unfold State.poll
  (repeat' split) <;> simp [apply_ite State.latches]

@[simp] theorem State.latches_entryReturn (s : State) (r : Nat) (data : List Byte) :
    (s.entryReturn r data).latches = s.latches := by
  unfold State.entryReturn
  (repeat' split) <;> simp

@[simp] theorem State.latches_tableReturn (s : State) (r : Nat) (data : List Byte) :
    (s.tableReturn r data).latches = s.latches := by
  unfold State.tableReturn
  dsimp only
  (repeat' split) <;> simp

@[simp] theorem State.latches_fetchError (s : State) (r : Nat) (what : FetchKind) :
    (s.fetchError r what).latches = s.latches := by
  unfold State.fetchError
  (repeat' split) <;> simp [apply_ite State.latches]

@[simp] theorem State.latches_cqProdWrite (s : State) (r : Nat) (upTo : Word) :
    (s.cqProdWrite r upTo).latches = s.latches := by
  unfold State.cqProdWrite
  (repeat' split) <;> simp [apply_ite State.latches]

@[simp] theorem State.latches_recordFail (s : State) (r : Nat) : (s.recordFail r).latches = s.latches := by
  simp [State.recordFail, apply_ite State.latches]

@[simp] theorem State.latches_ringStop (s : State) (r : Nat) : (s.ringStop r).latches = s.latches := by
  unfold State.ringStop
  (repeat' split) <;> simp

@[simp] theorem State.latches_nopLink (s : State) (t : Nat) : (s.nopLink t).latches = s.latches := by
  unfold State.nopLink
  (repeat' split) <;> simp

@[simp] theorem State.latches_undefinedLink (s : State) (t : Nat) : (s.undefinedLink t).latches = s.latches := by
  unfold State.undefinedLink
  (repeat' split) <;> simp

@[simp] theorem State.latches_ageLink (s : State) (t : Nat) : (s.ageLink t).latches = s.latches := by
  unfold State.ageLink
  (repeat' split) <;> simp

@[simp] theorem State.latches_vecTimer (s : State) (v : Nat) : (s.vecTimer v).latches = s.latches := by
  unfold State.vecTimer
  (repeat' split) <;> simp [apply_ite State.latches]

@[simp] theorem State.latches_recordsAnswered (s : State) (f v : Nat) : (s.recordsAnswered f v).latches = s.latches := by
  simp [State.recordsAnswered, apply_ite State.latches]

@[simp] theorem State.latches_offer (s : State) (v : Nat) : (s.offer v).latches = s.latches := by
  unfold State.offer
  split <;> simp

@[simp] theorem State.latches_offerAgain (s : State) (o : Offer) : (s.offerAgain o).latches = s.latches := by
  unfold State.offerAgain
  (repeat' split) <;> simp

@[simp] theorem State.latches_spillWritten (s : State) (c : CtxRef) : (s.spillWritten c).latches = s.latches := by
  simp [State.spillWritten, apply_ite State.latches]

@[simp] theorem State.latches_ctxReturn (s : State) (c : CtxRef) (data : List Byte) :
    (s.ctxReturn c data).latches = s.latches := by
  simp [State.ctxReturn, apply_ite State.latches]

end Sys2Proof.Machine
end

section
/-! SUPPORT. Lockdown (13_faults_repair.md R327, R330): what may halt or reset the block, and every write of a register, keeps
the lockdown latch; so does every command but the loss of main power. -/

namespace Sys2Proof.Machine

/-- The block is in lockdown (R327). -/
def State.Locked (s : State) : Prop := s.fc.lockdown = true

theorem State.Locked.of_latches {s t : State} (l : s.Locked) (h : t.latches = s.latches) : t.Locked :=
  (State.lockdown_of_latches h).trans l

theorem State.Locked.foldl {α : Type} {f : State → α → State} (h : ∀ s a, s.Locked → (f s a).Locked) (xs : List α) :
    ∀ {s : State}, s.Locked → (xs.foldl f s).Locked := by
  induction xs with
  | nil => exact fun l => l
  | cons a xs ih => exact fun l => ih (h _ a l)

/-! The fault levels (R326, R327). -/

theorem State.Locked.halt {s : State} (l : s.Locked) (n : Nat) : (s.halt n).Locked := by
  unfold State.halt
  split
  · exact l
  · extract_lets s1 s2
    have h1 : s1.Locked := l
    have h2 : s2.Locked := State.Locked.foldl (fun u c k => k.of_latches (u.latches_dmaAbort c)) _ h1
    exact h2.of_latches (by simp)

theorem State.locked_lockdownAct (s : State) (m : FMsg) : (s.lockdownAct m).Locked := rfl

theorem State.Locked.levelAct {s : State} (l : s.Locked) (m : FMsg) (lv : Nat) : (s.levelAct m lv).Locked := by
  unfold State.levelAct
  extract_lets n fence x top x' s1 s2 s3
  have h3 : s3.Locked := l.of_latches (by
    unfold s3
    split <;> simp [s2, s1])
  clear_value s3
  split
  · exact s3.locked_lockdownAct m
  · split
    · exact h3.halt n
    · split
      · exact h3.of_latches (by simp)
      · exact h3

theorem State.Locked.vitalFails {s : State} (l : s.Locked) (u : Nat) : (s.vitalFails u).Locked :=
  (l.levelAct _ _).of_latches (State.latches_stopStartup _ _)

theorem State.Locked.classify {s : State} (l : s.Locked) (n : Nat) : (s.classify n).Locked := by
  unfold State.classify
  split
  · exact l
  · exact State.Locked.of_latches (State.Locked.levelAct (l.of_latches (by rfl)) _ _) (State.latches_settleHeld _)

theorem State.Locked.collectorUe {s : State} (_ : s.Locked) (a : BitVec 44) : (s.collectorUe a).Locked :=
  State.Locked.levelAct (by rfl) _ _

/-! Resets keep the latch (R391). -/

theorem State.Locked.afterReset {s : State} (l : s.Locked) : s.afterReset.Locked := l

theorem State.Locked.blockReset {s : State} (l : s.Locked) : s.blockReset.Locked :=
  l.afterReset.of_latches (State.latches_stepOne _)

theorem State.Locked.resetFn0 {s : State} (l : s.Locked) (p : Bool) : (s.resetFn0 p).Locked :=
  State.Locked.blockReset l

theorem State.Locked.flrReq0 {s : State} (l : s.Locked) : s.flrReq0.Locked := by
  unfold State.flrReq0
  split
  · exact l.resetFn0 false
  · exact l

theorem State.Locked.flrMessage {s : State} (l : s.Locked) (f : Nat) (p : Bool) : (s.flrMessage f p).Locked := by
  unfold State.flrMessage
  dsimp only
  split
  · exact l
  · split
    · split
      · exact l
      · exact l.resetFn0 true
    · split
      · exact l.of_latches (by simp)
      · exact l.of_latches (by simp)

theorem State.Locked.porAssert {s : State} (l : s.Locked) : s.porAssert.Locked := by
  unfold State.porAssert
  split
  · exact l
  · exact State.Locked.afterReset l

theorem State.Locked.porDeassert {s : State} (l : s.Locked) (ids : Identity) : (s.porDeassert ids).Locked := by
  unfold State.porDeassert
  split
  · exact l
  · exact State.Locked.of_latches (by exact l) (State.latches_stepOne _)

theorem State.Locked.blkInput {s : State} (l : s.Locked) (v : Bool) : (s.blkInput v).Locked := by
  unfold State.blkInput
  split
  · exact l
  · exact State.Locked.blockReset l

/-! Start-up and power domains (R376, R388). -/

theorem State.Locked.portsUp {s : State} (l : s.Locked) : s.portsUp.Locked := by
  unfold State.portsUp
  extract_lets ports s1 s2
  have h1 : s1.Locked := l
  have h2 : s2.Locked := h1.of_latches (by
    unfold s2
    split <;> simp)
  exact h2.of_latches (by simp)

theorem State.Locked.startupUnit {s : State} (l : s.Locked) (d : Nat) (pass : Bool) : (s.startupUnit d pass).Locked := by
  unfold State.startupUnit
  extract_lets s1 ports s2
  have h1 : s1.Locked := State.Locked.foldl (fun u n k => by
    split
    · exact k
    · exact k.of_latches (by simp)) _ l
  have h2 : s2.Locked := by
    unfold s2
    split
    · exact h1
    · split
      · exact h1
      · exact h1
  clear_value s2
  split
  · exact h2.of_latches (by simp)
  · split
    · exact h2.vitalFails _
    · extract_lets s3
      have h3 : s3.Locked := h2
      clear_value s3
      split
      · exact h3.of_latches (by simp)
      · split
        · exact h3.of_latches (by simp)
        · split
          · exact h3.portsUp
          · split
            · exact h3.of_latches (by simp)
            · exact h3.of_latches (by simp)

theorem State.Locked.fail1ms {s : State} (l : s.Locked) (d : Nat) : (s.fail1ms d).Locked := by
  unfold State.fail1ms
  extract_lets x stand booting
  split
  · exact l
  · refine State.Locked.of_latches ?_ (State.latches_settleHeld _)
    have hs : ∀ u : State, u.Locked → (stand u).Locked := fun u k => k
    clear_value stand
    split
    · exact l
    · split
      · refine hs _ ?_
        split
        · exact l.vitalFails _
        · exact l.levelAct _ _
      · split
        · extract_lets s1 s2
          have h1 : s1.Locked := by
            unfold s1
            split
            · exact l
            · exact l.of_latches (by simp)
          have h2 : s2.Locked := hs _ h1
          clear_value s2
          split
          · split
            · exact h2.of_latches (by simp)
            · exact h2.of_latches (by simp)
          · exact h2
        · split
          · exact (hs _ (l.of_latches (s.latches_startRetire _))).of_latches (State.latches_progress _)
          · exact hs _ (l.of_latches (s.latches_retireUnit _))

theorem State.Locked.domainDone {s : State} (l : s.Locked) (d : Nat) (pass : Bool) : (s.domainDone d pass).Locked := by
  unfold State.domainDone
  extract_lets x counted s1 s2
  split
  · exact l
  · suffices h2 : s2.Locked by exact h2.of_latches (by simp)
    have h1 : s1.Locked := l
    unfold s2
    clear_value s1
    split
    · exact h1.startupUnit d pass
    iterate 4 exact h1
    · extract_lets s3
      have h3 : s3.Locked := h1.of_latches (by simp [s3])
      clear_value s3
      split
      · exact h3
      · extract_lets out s4
        have h4 : s4.Locked := h3.of_latches (by
          unfold s4
          split <;> simp)
        clear_value s4
        split
        · exact h4.of_latches (by simp)
        · split
          · exact h4.of_latches (by simp)
          · split
            · exact h4.levelAct _ _
            · exact h4.of_latches (by simp)

/-! Register writes (R407). -/

theorem State.Locked.pwWrite {s : State} (l : s.Locked) (off : Nat) (q : WReq) : (pwWrite s off q).Locked := by
  unfold Machine.pwWrite
  split
  · exact l
  · split
    · split
      · exact l.blockReset
      · exact l
    · split
      · exact l
      · split
        · exact l.of_latches (by simp)
        · exact l

theorem State.Locked.pageWrite {s : State} (l : s.Locked) (f o : Nat) (q : WReq) : (pageWrite s f o q).Locked := by
  unfold Machine.pageWrite
  split
  · exact l
  · split
    · split
      · exact l.flrReq0
      · exact l
    · refine l.of_latches ?_
      (repeat' split) <;> simp

theorem State.Locked.regWrite {s : State} (l : s.Locked) (off : Nat) (q : WReq) : (regWrite s off q).Locked := by
  unfold Machine.regWrite
  extract_lets o
  split
  · exact l.pageWrite _ _ q
  · split
    case h_14 =>
      split
      · exact l
      · exact l.pwWrite _ q
    all_goals
      refine l.of_latches ?_
      (repeat' split) <;> simp

theorem State.Locked.doWrite {s : State} (l : s.Locked) (w : WLog) : (s.doWrite w).Locked := by
  unfold State.doWrite
  extract_lets old x t
  have h : t.Locked := l.regWrite _ _
  clear_value t
  split
  · exact h.of_latches (by simp)
  · exact h

theorem State.Locked.portWrite {s : State} (l : s.Locked) (off : Nat) (q : PortReq) : (s.portWrite off q).Locked := by
  unfold State.portWrite
  extract_lets lo hi w refuse err t
  have hr : ∀ u d, u.Locked → (refuse u d).Locked := fun u d k => k.of_latches (by simp [refuse])
  have h : t.Locked := l.doWrite w
  clear_value t refuse
  split
  · exact l.of_latches (by simp)
  · split
    · exact l.of_latches (by simp)
    · split
      · exact hr _ _ (l.of_latches (by simp))
      · split
        · exact hr _ _ l
        · split
          · exact hr _ _ l
          · split
            · exact h.of_latches (by simp)
            · exact h

theorem State.Locked.command {s : State} (l : s.Locked) (off lo n v : Nat) (q : PortReq) : (s.command off lo n v q).Locked :=
  l.portWrite _ _

theorem State.Locked.burinWrite {s : State} (l : s.Locked) (off : Nat) (x : DWord) (lo hi : Bool) :
    (s.burinWrite off x lo hi).Locked := l.doWrite _

theorem State.Locked.unitWrite {s : State} (l : s.Locked) (off : Nat) (q : PortReq) : (s.unitWrite off q).Locked := by
  unfold State.unitWrite
  split
  · exact l.burinWrite _ _ _ _
  · exact l.portWrite _ _

theorem State.Locked.releaseWrite {s : State} (l : s.Locked) (w : Nat × DWord × Bool) : (s.releaseWrite w).Locked := by
  unfold State.releaseWrite
  (repeat' split) <;> exact l.burinWrite _ _ _ _

theorem State.Locked.mailGo {s : State} (l : s.Locked) (b : MailBox) (q : PortReq) : (s.mailGo b q).Locked := by
  cases b with
  | fnToBurin f => exact l.portWrite _ _
  | burinToFn f | burinToSen | burinToVs =>
    dsimp only [State.mailGo]
    split
    · exact l.of_latches (by simp)
    · exact l.portWrite _ _
  | senToBurin | vsToBurin => exact l.of_latches (State.latches_goDo ..)

theorem State.Locked.mailRelease {s : State} (l : s.Locked) (b : MailBox) (q : PortReq) : (s.mailRelease b q).Locked := by
  cases b with
  | burinToFn f => exact l.portWrite _ _
  | fnToBurin f | senToBurin | vsToBurin =>
    dsimp only [State.mailRelease]
    split
    · exact l.of_latches (by simp)
    · exact l.portWrite _ _
  | burinToSen | burinToVs => exact l.of_latches (State.latches_mbRelease ..)

/-! The debug master (R354, R355). -/

theorem State.Locked.dbgRegister {s : State} (l : s.Locked) (dr : BitVec 128) (a : Nat) (wr wide : Bool) (d : DWord) :
    (s.dbgRegister dr a wr wide d).Locked := by
  unfold State.dbgRegister
  extract_lets off lo hi be x w shut s1 refused
  have h1 : s1.Locked := l.of_latches (by simp [s1])
  have hw : (s.doWrite w).Locked := l.doWrite w
  split
  · refine h1.of_latches ?_
    clear_value s1
    split <;> simp
  · split
    · split
      · exact l.of_latches (by simp)
      · exact hw.of_latches (by simp)
    · split
      · exact l.of_latches (by simp)
      · split
        next v t e =>
          have k : t.Locked := l.of_latches ((State.latches_snd e).trans (State.latches_windowRead ..))
          exact k.of_latches (by simp)

theorem State.Locked.dbgAccess {s : State} (l : s.Locked) (dr : BitVec 128) (v : DWord) : (s.dbgAccess dr v).Locked := by
  unfold State.dbgAccess
  extract_lets ports s1 x data addr wr
  have h1 : s1.Locked := l
  clear_value s1
  split
  · exact h1
  · split
    · exact h1.of_latches (by simp)
    · exact h1.dbgRegister _ _ _ _ _

/-! Burin's program (R275, R276, R285). -/

theorem State.Locked.modBu {s : State} (l : s.Locked) (f : Burin → Burin) : (s.modBu f).Locked := l

theorem State.Locked.commit {s : State} (l : s.Locked) : s.commit.Locked := by
  unfold State.commit
  extract_lets b t
  have h : t.Locked := l
  exact State.Locked.foldl (fun u w k => k.releaseWrite w) _ h

theorem State.Locked.boundary {s : State} (l : s.Locked) (ask : Bool) : (s.boundary ask).Locked := by
  unfold State.boundary
  split
  · exact l
  · split
    · exact l.commit
    · exact l

theorem State.Locked.buTraps {s : State} (l : s.Locked) (n : Nat) (fetch : Bool) : (s.buTraps n fetch).Locked := by
  unfold State.buTraps
  extract_lets c addr routine say s1 s2
  have hs : ∀ k u, u.Locked → (say k u).Locked := fun k u h => h.of_latches (by
    unfold say
    split <;> simp)
  have h1 : s1.Locked := l
  have h2 : s2.Locked := by
    unfold s2
    clear_value say s1
    split
    · exact hs _ _ (h1.of_latches (by simp))
    · exact (hs _ _ h1).boundary false
  clear_value s2
  split
  · exact h2.of_latches (by simp)
  · exact h2

theorem State.Locked.retireOut {s : State} (l : s.Locked) (len : Nat) (o : BuOut) : (s.retireOut len o).Locked := by
  unfold State.retireOut
  split
  · exact l.buTraps _ _
  · extract_lets s1 s2 s3
    have h1 : s1.Locked := (l.modBu _).of_latches (State.latches_evtSync _)
    have h2 : s2.Locked := h1.of_latches (by
      unfold s2
      clear_value s1
      split <;> simp)
    clear_value s2
    split
    · exact ((h2.modBu _).commit).modBu _
    · exact h2.boundary _

theorem State.Locked.execLoad {s : State} (l : s.Locked) (rd : BitVec 5) (off len : Nat) (o : BuOut) :
    (s.execLoad rd off len o).Locked := by
  unfold State.execLoad
  extract_lets s1 take
  have ht : ∀ v u, u.Locked → (take v u).Locked := fun v u h => (h.modBu _).retireOut _ _
  have h1 : s1.Locked := by
    unfold s1
    split
    · exact l
    · split
      · exact (l.modBu _).commit
      · exact l
  clear_value take s1
  split
  · split
    · exact ht _ _ (h1.modBu _)
    · exact h1.of_latches (by simp)
  · split
    next v t e => exact ht _ _ (h1.of_latches ((State.latches_snd e).trans (State.latches_viewLoad ..)))

theorem State.Locked.burinStep {s : State} (l : s.Locked) (op : BuOp) : (s.burinStep op).Locked := by
  unfold State.burinStep
  extract_lets s1 s2 o
  have h1 : s1.Locked := l.of_latches (by simp [s1])
  have h2 : s2.Locked := State.Locked.modBu (h1.of_latches (State.latches_evtSync _)) _
  clear_value s2 s1
  split
  · exact h1
  · split
    · exact h2.buTraps _ _
    · split
      · exact h2.execLoad _ _ _ _
      · exact (h2.modBu _).retireOut _ _
      · exact h2.retireOut _ _

theorem State.Locked.burinIllegal {s : State} (l : s.Locked) (a b : BitVec 16) : (s.burinIllegal a b).Locked := by
  unfold State.burinIllegal
  extract_lets s1 s2
  have h1 : s1.Locked := l.of_latches (by simp [s1])
  have h2 : s2.Locked := State.Locked.modBu (h1.of_latches (State.latches_evtSync _)) _
  clear_value s2 s1
  split
  · split
    · exact h2.buTraps _ _
    · exact h2.buTraps _ _
  · exact h1

theorem State.Locked.loadLands {s : State} (l : s.Locked) : s.loadLands.Locked := by
  unfold State.loadLands
  split
  · exact (l.modBu _).boundary _
  · exact l

theorem State.Locked.productLands {s : State} (l : s.Locked) : s.productLands.Locked := by
  unfold State.productLands
  split
  · exact l
  · split
    · exact (l.modBu _).boundary _
    · exact l

theorem State.Locked.commitTimer {s : State} (l : s.Locked) : s.commitTimer.Locked := by
  unfold State.commitTimer
  extract_lets s1
  have h1 : s1.Locked := l.of_latches (by simp [s1])
  clear_value s1
  split
  · exact h1.boundary _
  · exact h1

theorem State.Locked.next {s t : State} (l : s.Locked) (h : Host.Outcome.next (φ := Fault) (ρ := Refusal) s = .next t) :
    t.Locked :=
  Host.Outcome.next.inj h ▸ l

/-- Every command but the loss of main power keeps the lockdown latch: a command is one operation of the block, and those
that are not named here leave all three latches alone. -/
theorem exec_locked {i : Instr} {s t : State} (alive : i ≠ .mainPowerLoss) (locked : s.Locked) (h : exec i s = .next t) :
    t.Locked := by
  cases i
  case registerWrite | ftCmdUndefined | ftNumvfWrite | pstateNotice | eqCtrlWrite | eqBaseWrite | eqConsWrite | kick
    | doorbellEnable | doorbellDisable | rtCmdUndefined | scSpillWrite | profileRequest | overrideWrite
    | powerCapWrite | vecCfgWrite | kmCmdUndefined | dlSpillWrite | rawModeWrite | pkRngCtrlWrite | pvRegionWrite
    | pvBlobWrite | etchDataWrite | bootPtrWrite | mbStatWrite | fcAck | fcCtrlWrite | srcCfgWrite
    | fcUnitCmdUndefined | holdOff | lineCfgWrite | poEntryWrite | dgCtrlWrite | jnCtrlWrite | jnConsWrite
    | gcFabricWrite =>
    exact (locked.portWrite _ _).next h
  case ftLoad | ftCommit | ftEnable | ftResetDrain | ftResetSquash | ftUnbind | flrReq | rtEnable | rtDisable
    | portEnable | portDisable | kmLoad | kmCommit | kmInvalidate | activate | ssLoad | ssCommit | ssInvalidate
    | ssCmdUndefined | reseed | rngRestart | etchOpen | etchClose | etchCtrlClear | etchLock | captureRearm
    | injectionGo | unitReturn | blockReset | softwareBurnish | softwareSession | monitorTest | tamperRecordClear
    | arLoad | arCommit | arInvalidate | arCmdUndefined =>
    exact (locked.command _ _ _ _ _).next h
  case flrRequest =>
    exact (locked.flrMessage _ _).next h
  case cbcEncrypt | cbcDecrypt =>
    exact (locked.of_latches (s.latches_runOp _ _ _ (cbcPlan_keepsLatches _) _)).next h
  case ctrEncrypt | ctrDecrypt =>
    exact (locked.of_latches (s.latches_runOp _ _ _ (ctrPlan_keepsLatches _) _)).next h
  case gcmEncrypt | gmacGenerate | ccmEncrypt | ccpEncrypt =>
    exact (locked.of_latches (s.latches_runOp _ _ _ (sealPlan_keepsLatches _ _) _)).next h
  case gcmDecrypt | gmacVerify | ccmDecrypt | ccpDecrypt =>
    exact (locked.of_latches (s.latches_runOp _ _ _ (openPlan_keepsLatches _ _) _)).next h
  case xtsEncrypt | xtsDecrypt =>
    exact (locked.of_latches (s.latches_runOp _ _ _ (xtsPlan_keepsLatches _) _)).next h
  case kwWrap =>
    exact (locked.of_latches (s.latches_runOp _ _ _ kwWrapPlan_keepsLatches _)).next h
  case kwUnwrap =>
    exact (locked.of_latches (s.latches_runOp _ _ _ kwUnwrapPlan_keepsLatches _)).next h
  case kwpWrap =>
    exact (locked.of_latches (s.latches_runOp _ _ _ kwpWrapPlan_keepsLatches _)).next h
  case kwpUnwrap =>
    exact (locked.of_latches (s.latches_runOp _ _ _ kwpUnwrapPlan_keepsLatches _)).next h
  case sha2 | sha3 | shake =>
    exact (locked.of_latches (s.latches_runDigest _ _ _ (digestPlan_keepsLatches _ _))).next h
  case hmac =>
    exact (locked.of_latches (s.latches_runDigest _ _ _ hmacPlan_keepsLatches)).next h
  case hkdf | hkdfExtract | hkdfExpand | kdfCtr =>
    exact (locked.of_latches (s.latches_runDigest _ _ _ (kdfPlan_keepsLatches _))).next h
  case sessStart =>
    exact (locked.of_latches (s.latches_runDigest _ _ _ sessStartPlan_keepsLatches)).next h
  case sessUpdate =>
    exact (locked.of_latches (s.latches_runDigest _ _ _ sessUpdatePlan_keepsLatches)).next h
  case sessFinish =>
    exact (locked.of_latches (s.latches_runDigest _ _ _ sessFinishPlan_keepsLatches)).next h
  case sessAbort =>
    exact (locked.of_latches (s.latches_runDigest _ _ _ sessAbortPlan_keepsLatches)).next h
  case rsaOaepEncrypt =>
    exact (locked.of_latches (s.latches_runOp _ _ _ oaepEncryptPlan_keepsLatches _)).next h
  case rsaOaepDecrypt =>
    exact (locked.of_latches (s.latches_runOp _ _ _ oaepDecryptPlan_keepsLatches _)).next h
  case rsaPssSign | rsaPkcs1Sign =>
    exact (locked.of_latches (s.latches_runOp _ _ _ (rsaSignPlan_keepsLatches _) _)).next h
  case rsaPssVerify | rsaPkcs1Verify =>
    exact (locked.of_latches (s.latches_runOp _ _ _ (rsaVerifyPlan_keepsLatches _) _)).next h
  case rsaPublicRaw =>
    exact (locked.of_latches (s.latches_runOp _ _ _ rsaRawPlan_keepsLatches _)).next h
  case ecdsaKeygen | eddsaKeygen | xdhKeygen | mlkemKeygen | mldsaKeygen =>
    exact (locked.of_latches (s.latches_runOp _ _ _ (keygenPlan_keepsLatches _ _) _)).next h
  case ecdsaSign =>
    exact (locked.of_latches (s.latches_runOp _ _ _ ecdsaSignPlan_keepsLatches _)).next h
  case ecdsaVerify =>
    exact (locked.of_latches (s.latches_runOp _ _ _ ecdsaVerifyPlan_keepsLatches _)).next h
  case eddsaSign =>
    exact (locked.of_latches (s.latches_runOp _ _ _ eddsaSignPlan_keepsLatches _)).next h
  case eddsaVerify =>
    exact (locked.of_latches (s.latches_runOp _ _ _ eddsaVerifyPlan_keepsLatches _)).next h
  case eddsaVerifyBatch =>
    exact (locked.of_latches (s.latches_runOp _ _ _ eddsaBatchPlan_keepsLatches _)).next h
  case xdhAgree =>
    exact (locked.of_latches (s.latches_runOp _ _ _ xdhAgreePlan_keepsLatches _)).next h
  case pkPublic | pkPublicPq =>
    exact (locked.of_latches (s.latches_runOp _ _ _ (pkPublicPlan_keepsLatches _ _) _)).next h
  case mlkemEncaps =>
    exact (locked.of_latches (s.latches_runOp _ _ _ encapsPlan_keepsLatches _)).next h
  case mlkemDecaps =>
    exact (locked.of_latches (s.latches_runOp _ _ _ decapsPlan_keepsLatches _)).next h
  case mldsaSign =>
    exact (locked.of_latches (s.latches_runOp _ _ _ mldsaSignPlan_keepsLatches _)).next h
  case mldsaVerify =>
    exact (locked.of_latches (s.latches_runOp _ _ _ mldsaVerifyPlan_keepsLatches _)).next h
  case mldsaVerifyBatch =>
    exact (locked.of_latches (s.latches_runOp _ _ _ mldsaBatchPlan_keepsLatches _)).next h
  case hssVerify =>
    exact (locked.of_latches (s.latches_runOp _ _ _ hssVerifyPlan_keepsLatches _)).next h
  case slhdsaVerify =>
    exact (locked.of_latches (s.latches_runOp _ _ _ slhVerifyPlan_keepsLatches _)).next h
  case random =>
    exact (locked.of_latches (s.latches_runOp _ _ _ randomPlan_keepsLatches _)).next h
  case stipplePack =>
    exact (locked.of_latches (s.latches_runStipple _ _ _ _ packPlan_keepsLatches)).next h
  case stippleUnpack =>
    exact (locked.of_latches (s.latches_runStipple _ _ _ _ unpackPlan_keepsLatches)).next h
  case vaultCreate =>
    exact (locked.of_latches (s.latches_runOp _ _ _ createPlan_keepsLatches _)).next h
  case vaultImport =>
    exact (locked.of_latches (s.latches_runOp _ _ _ importPlan_keepsLatches _)).next h
  case vaultExport =>
    exact (locked.of_latches (s.latches_runOp _ _ _ exportPlan_keepsLatches _)).next h
  case vaultImportPublic =>
    exact (locked.of_latches (s.latches_runOp _ _ _ importPublicPlan_keepsLatches _)).next h
  case vaultDerive =>
    exact (locked.of_latches (s.latches_runOp _ _ _ derivePlan_keepsLatches _)).next h
  case vaultSetAttr =>
    exact (locked.of_latches (s.latches_runOp _ _ _ setAttrPlan_keepsLatches _)).next h
  case vaultQuery =>
    exact (locked.of_latches (s.latches_runOp _ _ _ queryPlan_keepsLatches _)).next h
  case vaultRetire =>
    exact (locked.of_latches (s.latches_runOp _ _ _ retirePlan_keepsLatches _)).next h
  case vaultAuthRegister =>
    exact (locked.of_latches (s.latches_runOp _ _ _ authRegisterPlan_keepsLatches _)).next h
  case vaultAuthClear =>
    exact (locked.of_latches (s.latches_runOp _ _ _ authClearPlan_keepsLatches _)).next h
  case vaultRekeySweep =>
    exact (locked.of_latches (s.latches_runOp _ _ _ sweepPlan_keepsLatches _)).next h
  case vaultEscrowExport =>
    exact (locked.of_latches (s.latches_runOp _ _ _ escrowExportPlan_keepsLatches _)).next h
  case vaultEscrowImport =>
    exact (locked.of_latches (s.latches_runOp _ _ _ escrowImportPlan_keepsLatches _)).next h
  case plateMark =>
    exact (locked.of_latches (s.latches_runOp _ _ _ plateMarkPlan_keepsLatches _)).next h
  case plateKeys =>
    exact (locked.of_latches (s.latches_runOp _ _ _ plateKeysPlan_keepsLatches _)).next h
  case etchLoad =>
    exact (locked.of_latches (s.latches_runOp _ _ _ etchLoadPlan_keepsLatches _)).next h
  case etchClear =>
    exact (locked.of_latches (s.latches_runOp _ _ _ etchClearPlan_keepsLatches _)).next h
  case etchedCommand =>
    exact (locked.of_latches (s.latches_runOp _ _ _ etchedPlan_keepsLatches _)).next h
  case mov | add | sub | andOp | orOp | xorOp | andn | shl | shr | sar | ror | slt | sltu | minOp | maxOp | minu
    | maxu | clz | popc | bswap | neg | addi | andi | ori | xori | li | lui | shli | shri | sari | slti | lws | sws
    | lw | lh | lhu | lb | lbu | sw | sh | sb | beqz | bnez | beq | bne | blt | bge | bltu | bgeu | jump | call
    | callr | jr | ret | mul | mulu | mfs | mts | adj | adjl | sysNop | wfe | commit | tret | brk | etch =>
    exact (locked.burinStep _).next h
  case loadWriteback =>
    exact (locked.loadLands).next h
  case productLands =>
    exact (locked.productLands).next h
  case commitTimer =>
    exact (locked.commitTimer).next h
  case mailboxGo =>
    exact (locked.mailGo _ _).next h
  case mailboxRelease =>
    exact (locked.mailRelease _ _).next h
  case dmaStart | dmaPause | dmaAbort =>
    exact (locked.unitWrite _ _).next h
  case faultClassify =>
    exact (locked.classify _).next h
  case collectorUe =>
    exact (locked.collectorUe _).next h
  case domainRestartDone =>
    exact (locked.domainDone _ _).next h
  case domainFail1ms =>
    exact (locked.fail1ms _).next h
  case blockResetInput =>
    exact (locked.blkInput _).next h
  case powerOnReset =>
    exact (locked.porDeassert _).next h
  case mainPowerLoss => exact absurd rfl alive
  case dbgAccess =>
    exact (locked.dbgAccess _ _).next h
  case powerOnResetAsserted =>
    exact (locked.porAssert).next h
  case illegal =>
    exact (locked.burinIllegal _ _).next h
  all_goals
    obtain rfl := Host.Outcome.next.inj h
    exact locked.of_latches (by simp)

end Sys2Proof.Machine

namespace Sys2Proof
open Machine

/-- Settles O55: what every operation of the model does to the lockdown latch is said by the lemmas of `State.latches` and of
`State.Locked`; a command is one of them. -/
theorem lockdownStands : Obligations.LockdownStands :=
  fun _ _ _ alive locked h => exec_locked alive locked h

end Sys2Proof
end

section
/-! SUPPORT. Faults (13_faults_repair.md R320–R342): a report and what it does at once, the level of a message and what it
brings, and the FC_ page. -/

namespace Sys2Proof.Machine

/-! Levels -/

theorem State.levelOf_fixed {s : State} {m : FMsg} {l : Nat} (h : fixedLevel m.source.toNat m.kind.toNat = some l) :
    s.levelOf m = (l, s.src m.source.toNat) := by
  unfold State.levelOf
  simp only [h]

/-- A base level of at most L1 of a source that holds no record and whose window is open: no hold and no restart adds to what
the count makes of it (R328). -/
theorem State.levelOf_counted {s : State} {m : FMsg} (free : fixedLevel m.source.toNat m.kind.toNat = none)
    (plain : progSource m.source.toNat = false) (low : baseLevel m.kind.toNat ≤ 1) (held : (s.src m.source.toNat).held = 0)
    (open_ : (s.src m.source.toNat).count ≠ 0)
    (within : (s.po.tm - (s.src m.source.toNat).winStart).toNat < 2 ^ (s.src m.source.toNat).wcode.toNat * 1000) :
    s.levelOf m =
      if (s.src m.source.toNat).n.toNat ≤ (s.src m.source.toNat).count.toNat + 1 then
        (baseLevel m.kind.toNat + 1, { s.src m.source.toNat with count := 0 })
      else (baseLevel m.kind.toNat, { s.src m.source.toNat with count := (s.src m.source.toNat).count + 1 }) := by
  have two : baseLevel m.kind.toNat ≤ 2 := by omega
  have fresh : (decide ((s.src m.source.toNat).count = 0) ||
      decide (2 ^ (s.src m.source.toNat).wcode.toNat * 1000 ≤ (s.po.tm - (s.src m.source.toNat).winStart).toNat)) = false := by
    simp only [Bool.or_eq_false_iff, decide_eq_false_iff_not]
    exact ⟨open_, by omega⟩
  have noHold : ¬2 ≤ (s.src m.source.toNat).held := by omega
  have noHalt : ¬3 ≤ baseLevel m.kind.toNat + 1 ∧ ¬3 ≤ baseLevel m.kind.toNat := by omega
  have below : min (baseLevel m.kind.toNat + 1) 5 = baseLevel m.kind.toNat + 1 ∧
      min (baseLevel m.kind.toNat) 5 = baseLevel m.kind.toNat := by omega
  unfold State.levelOf
  simp only [free, plain, two, fresh, if_true, Bool.false_eq_true, if_false]
  split <;> simp only [noHold, noHalt, below, false_and, and_false, if_false]

theorem State.halted_halt (s : State) (n : Nat) : (s.halt n).fc.halted = true := by
  unfold State.halt
  split
  · assumption
  · extract_lets s1 s2
    have h2 : s2.latches = s1.latches := State.latches_foldl (fun u c => u.latches_dmaAbort c) _ _
    have h : ((s2.abandon fun _ => true).modBu fun b => { b with state := .halted, waiting := false }).latches = s1.latches := by
      simp [h2]
    exact State.halted_of_latches h

theorem State.halted_lockdownAct (s : State) (m : FMsg) : (s.lockdownAct m).fc.halted = true := by
  unfold State.lockdownAct
  extract_lets t
  have h : t.fc.halted = true := (State.halted_of_latches (State.latches_eraseSession _)).trans (s.halted_halt _)
  clear_value t
  exact h

theorem State.l5_lockdownAct (s : State) (m : FMsg) : (s.lockdownAct m).d0.l5 = some m.word := rfl

theorem State.levelAct_four (s : State) (m : FMsg) : ∃ t : State, s.levelAct m 4 = t.halt m.source.toNat := by
  unfold State.levelAct
  extract_lets n fence x top x' s1 s2 s3
  clear_value s3
  exact ⟨s3, by rw [if_neg (by decide), if_pos rfl]⟩

theorem State.levelAct_five (s : State) (m : FMsg) : ∃ t : State, s.levelAct m 5 = t.lockdownAct m := by
  unfold State.levelAct
  extract_lets n fence x top x' s1 s2 s3
  clear_value s3
  exact ⟨s3, if_pos rfl⟩

/-! Reports -/

theorem mergeMsg_source {o m : FMsg} (h : o.source = m.source) : (mergeMsg o m).source = m.source := by
  unfold mergeMsg
  split
  · exact h
  · rfl

theorem exists_source_enqueueMsg (l : List FMsg) (m : FMsg) : ∃ o ∈ enqueueMsg l m, o.source = m.source := by
  induction l with
  | nil => exact ⟨m, List.mem_singleton.mpr rfl, rfl⟩
  | cons o r ih =>
    unfold enqueueMsg
    split
    next same => exact ⟨_, List.mem_cons_self, mergeMsg_source same⟩
    next =>
      obtain ⟨x, hx, hs⟩ := ih
      exact ⟨x, List.mem_cons_of_mem _ hx, hs⟩

/-- A source that raises has a message that waits for the collector (R320). -/
theorem State.exists_waiting_raise (s : State) (n k : Nat) (a : BitVec 44) :
    ∃ m ∈ (s.raise n k a).fc.waiting, m.source = BitVec.ofNat 12 n :=
  exists_source_enqueueMsg s.fc.waiting { source := BitVec.ofNat 12 n, kind := BitVec.ofNat 8 k, addr := a }

theorem State.armedCheck_none {s : State} (h : s.fc.injLeft = 0) (n k : Nat) : s.armedCheck n k = s :=
  if_neg (by simp [h])

theorem State.checker_plain {s : State} {n k : Nat} (a : BitVec 44) (has : checkerHas n k = true) (reports : s.reports n = true)
    (unarmed : s.fc.injLeft = 0) (plain : isComparator n = false) :
    s.checker n k a =
      let u := s.raise n k a
      let v := if k = 0x32 then u.modBu (fun b => { b with memCe := satAdd b.memCe 1 })
        else if n = 0x004 ∧ k = 0x04 then u.cacheError else u
      if fences k && decide (3 ≤ baseLevel k) then v.fenceSource n else v := by
  unfold State.checker
  rw [if_neg (by simp [has, reports]), State.armedCheck_none unarmed]
  simp only [plain, Bool.false_eq_true, if_false]
  by_cases h : k = 0x32
  · subst h
    simp
  · rw [if_neg h, if_neg h]

theorem comparator_range {n : Nat} (h : isComparator n = true) : 0x200 ≤ n ∧ n < 0x240 ∧ n % 16 = 8 := of_decide_eq_true h

/-- A comparator reports nothing but a mismatch. -/
theorem checkerHas_comparator {n k : Nat} (h : isComparator n = true) (has : checkerHas n k = true) : k = 5 := by
  have r := comparator_range h
  simp only [checkerHas, h, if_neg (show ¬n = 3 by omega), if_true, Bool.and_eq_true, decide_eq_true_eq] at has
  exact has.2

/-- A comparator has no unit of its own to fence. -/
theorem State.fenceSource_comparator (s : State) {n : Nat} (h : isComparator n = true) : s.fenceSource n = s := by
  obtain ⟨lo, hi, eight⟩ := comparator_range h
  have pool : poolOf n = none := by
    have kind : unitKind n = .none := by
      unfold unitKind
      iterate 8 rw [if_neg (by omega)]
    have tag : tagUnit? n = none := by
      unfold tagUnit?
      rw [if_neg (by omega)]
    simp only [poolOf, kind, tag]
    rw [if_neg (by omega)]
  have single : isSingle n = false := by
    simp only [isSingle, isParser, Bool.or_eq_false_iff, decide_eq_false_iff_not]
    omega
  unfold State.fenceSource
  split
  · rfl
  · simp [pool, single]

theorem State.checker_comparator {s : State} {n k : Nat} (a : BitVec 44) {j : Job} {r : List Job} (has : checkerHas n k = true)
    (reports : s.reports n = true) (unarmed : s.fc.injLeft = 0) (comparator : isComparator n = true)
    (jobs : (s.sport ((n - 0x200) / 16)).jobs = j :: r) :
    s.checker n k a =
      let v := (s.raise n k a).loseJobs ((n - 0x200) / 16) (fun i => decide (i.seq = j.seq))
      (match j.unit with
        | some w => v.modPort ((n - 0x200) / 16) (fun x => x.frees w)
        | none => v).assignUnits ((n - 0x200) / 16) := by
  obtain rfl := checkerHas_comparator comparator has
  have range := comparator_range comparator
  have jobs' : ((s.raise n 5 a).sport ((n - 0x200) / 16)).jobs = j :: r := jobs
  unfold State.checker
  rw [if_neg (by simp [has, reports]), State.armedCheck_none unarmed]
  cases unit : j.unit <;>
    simp only [if_neg (show ¬5 = 0x32 by decide), if_neg (show ¬(n = 4 ∧ 5 = 4) by omega), comparator, if_true,
      State.fenceSource_comparator _ comparator, ite_self, jobs', unit]

/-! Writes of a lower 32-bit register, on any page -/

/-- A write of a lower 32-bit register does what its page does with the request, where that leaves the latches alone. -/
theorem PortDoes.of_lower {s u : State} {i : Instr} {off : Nat} {q : PortReq} (hi : exec i s = .next (s.portWrite off q.lower))
    (ho : off < 0x400000)
    (does : LowWord s off q.lower → (s.wreq off q.lower).init ≠ debugId → regWrite s off (s.wreq off q.lower) = u)
    (up : u.latches = s.latches) : PortDoes s i off q.lower u :=
  .of_page hi ho (fun acc => does acc.lower acc.notDebug) (fun acc => (State.up_of_latches up).trans acc.up)

/-- The same of a command. -/
theorem PortDoes.of_forced {s u : State} {i : Instr} {off lo n v : Nat} {q : PortReq}
    (hi : exec i s = .next (s.command off lo n v q)) (ho : off < 0x400000)
    (does : LowWord s off (q.lower.force lo n v) → (s.wreq off (q.lower.force lo n v)).init ≠ debugId →
      regWrite s off (s.wreq off (q.lower.force lo n v)) = u)
    (up : u.latches = s.latches) : PortDoes s i off (q.lower.force lo n v) u :=
  .of_page hi ho (fun acc => does acc.forced acc.notDebug) (fun acc => (State.up_of_latches up).trans acc.up)

theorem WReq.lockLo_of {r : WReq} (lo : r.lo = true) (init : r.init ≠ debugId) (i : Nat) : r.lockLo i = bit r.x i := by
  simp [WReq.lockLo, lo, init]

/-- Of a command with no defined code the fields apart from its code are the request's own. -/
theorem PortReq.fld_undefinedOp_apart (q : PortReq) {lo n v l m : Nat} {p : Nat → Bool} (hv : v < 2 ^ n)
    (h : l + m ≤ lo ∨ lo + n ≤ l) : fld (q.undefinedOp lo n v p).wdata l m = fld q.wdata l m := by
  unfold PortReq.undefinedOp
  split
  · exact fld_force_apart q hv h
  · rfl

/-- The word that the page sees of such a command. -/
theorem State.Accepts.undefinedOp {s : State} {off lo n v : Nat} {q : PortReq} {p : Nat → Bool}
    (h : s.Accepts off (q.lower.undefinedOp lo n v p)) : LowWord s off (q.lower.undefinedOp lo n v p) := by
  have covers : (beLo q.lower.be || beHi q.lower.be) = true := by simpa using h.covers
  exact .of_be (by rw [PortReq.undefinedOp_be, PortReq.lower_be covers])

/-! The FC_ page -/

/-- An acknowledgement of one source's record. -/
theorem State.fcAck_one {s : State} {x : DWord} (one : bit x 12 = false) (held : 2 ≤ (s.src (fld x 0 12).toNat).held) :
    s.fcAck x = (s.setSrc (fld x 0 12).toNat { s.src (fld x 0 12).toNat with acked := true }).settleHeld := by
  unfold State.fcAck
  simp only [one, Bool.false_eq_true, if_false, if_pos held]

/-- FC_CTRL takes values in range while it is not locked. -/
theorem State.fcCtrl_takes {s : State} {r : WReq} (lo : r.lo = true) (init : r.init ≠ debugId) (evt : (fld r.x 2 3).toNat ≤ 5)
    (cap : (fld r.x 5 3).toNat ≤ 5) (rejoin : fld r.x 8 16 ≠ 0) (unlocked : s.fc.lock = false) :
    s.fcCtrl r = s.modFc (fun c => { c with
      compatY7 := bit r.x 0, injUnlock := bit r.x 1, evtMin := fld r.x 2 3, captureMin := fld r.x 5 3, rejoinMs := fld r.x 8 16,
      lock := bit r.x 31 }) := by
  have nonzero : (fld r.x 8 16).toNat ≠ 0 := fun h => rejoin (BitVec.eq_of_toNat_eq h)
  unfold State.fcCtrl
  rw [if_neg (by simp [lo]), if_neg (by omega)]
  simp [unlocked, WReq.lockLo_of lo init, State.modFc]

/-- FC_SRC_CFG takes values in range for a listed source that is not locked. -/
theorem State.srcCfg_takes {s : State} {r : WReq} (lo : r.lo = true) (init : r.init ≠ debugId)
    (known : knownSource s.fc.sel.toNat = true) (count : fld r.x 0 8 ≠ 0) (window : (fld r.x 8 5).toNat ≤ 24)
    (sev : progSource s.fc.sel.toNat = true → (fld r.x 16 3).toNat ≤ 5) (unlocked : (s.src s.fc.sel.toNat).lock = false) :
    s.srcCfg r = s.setSrc s.fc.sel.toNat { s.src s.fc.sel.toNat with
      n := fld r.x 0 8, wcode := fld r.x 8 5, sev := if progSource s.fc.sel.toNat then fld r.x 16 3 else 0,
      lock := bit r.x 31 } := by
  have nonzero : (fld r.x 0 8).toNat ≠ 0 := fun h => count (BitVec.eq_of_toNat_eq h)
  have sev' : (progSource s.fc.sel.toNat && decide (5 < (fld r.x 16 3).toNat)) = false := by
    simp only [Bool.and_eq_false_imp, decide_eq_false_iff_not]
    exact fun h => by have := sev h; omega
  unfold State.srcCfg
  rw [if_neg (by simp [lo, known]), if_neg (by rw [sev']; simp only [Bool.false_eq_true, or_false]; omega)]
  simp only [unlocked, Bool.false_eq_true, if_false, WReq.lockLo_of lo init]

/-- An injection that is allowed arms the checks of its class and raises its own message. -/
theorem State.fcInj_arms {s : State} {r : WReq} (lo : r.lo = true) (go : bit r.x 24 = true) (idle : s.fc.injLeft = 0)
    (allowed : (s.testLife || s.fc.injUnlock) = true) (count : fld r.x 16 8 ≠ 0)
    (cls : (classKind (fld r.x 0 12).toNat (fld r.x 12 4).toNat).isSome = true) :
    s.fcInj r = (s.modFc (fun c => { c with
        injSource := fld r.x 0 12, injClass := fld r.x 12 4, injCount := fld r.x 16 8, injDenied := false,
        injLeft := fld r.x 16 8 })).raise 0x000 0x40
      (BitVec.ofNat 44 ((fld r.x 0 12).toNat + (fld r.x 12 4).toNat * 2 ^ 12 + (fld r.x 16 8).toNat * 2 ^ 16)) := by
  have life (f : Collector → Collector) : (s.modFc f).testLife = s.testLife := rfl
  have unlock : (s.modFc fun c => { c with
      injSource := fld r.x 0 12, injClass := fld r.x 12 4, injCount := fld r.x 16 8 }).fc.injUnlock = s.fc.injUnlock := rfl
  unfold State.fcInj
  simp only [lo, go, idle, life, unlock, allowed, cls, count, ne_eq, not_true_eq_false, not_false_eq_true, decide_true,
    decide_false, Bool.not_true, Bool.or_self, Bool.and_self, Bool.false_eq_true, if_true, if_false]
  rfl

/-- RETURN of a unit that is out of service asks for its domain. -/
theorem State.fcUnit_returns {s : State} {r : WReq} {d : Nat} (lo : r.lo = true) (op : fld r.x 12 2 = 1)
    (idle : s.fc.unitBusy = false) (may : returnable (fld r.x 0 12).toNat = true)
    (out : (s.unit (fld r.x 0 12).toNat).outOfService = true) (dom : unitDomain (fld r.x 0 12).toNat = some d) :
    s.fcUnit r = (s.modFc (fun c => { c with unitSource := fld r.x 0 12, unitErr := false, unitBusy := true })).domWants d .release := by
  unfold State.fcUnit
  simp [lo, op, idle, may, out, dom]

theorem State.fcUnit_undefined {s : State} {r : WReq} (lo : r.lo = true) (op : fld r.x 12 2 ≠ 1) :
    s.fcUnit r = s.modFc (fun c => { c with unitSource := fld r.x 0 12, unitErr := true }) := by
  unfold State.fcUnit
  simp only [lo, op, decide_false, Bool.false_and, Bool.not_true, Bool.not_false, Bool.or_false, Bool.false_eq_true, if_false,
    if_true]

end Sys2Proof.Machine

namespace Sys2Proof
open Machine

/-- Settles O42: a checker's report by whether its source is a comparator; the collector's own errors and the classification
are the operations of the model by definition. -/
theorem faultReports : Obligations.FaultReports := by
  unfold Obligations.FaultReports
  intro s source kind a
  refine ⟨fun has reports unarmed => ⟨fun plain => ?plain, fun j r comparator jobs _ => ?comparator⟩, ?waits, rfl, rfl,
    fun m first => ?classify⟩
  case plain => exact exec_next rfl (State.checker_plain a has reports unarmed plain)
  case comparator => exact exec_next rfl (State.checker_comparator a has reports unarmed comparator jobs)
  case waits => simpa using s.exists_waiting_raise source.toNat kind.toNat a
  case classify =>
    refine exec_next rfl ?_
    unfold State.classify
    rw [first]

/-- Settles O43: the level by what the source's history adds to the kind's, the halt by the frame of what follows it. -/
theorem faultLevels : Obligations.FaultLevels := by
  unfold Obligations.FaultLevels
  intro s m
  obtain ⟨four, h4⟩ := s.levelAct_four m
  obtain ⟨five, h5⟩ := s.levelAct_five m
  refine ⟨fun l fixed => State.levelOf_fixed fixed, fun free plain low held open_ within => ⟨fun n => ?rises, fun n => ?counts⟩,
    ?halts, ?halts', ?locks, ?kept⟩
  case rises => rw [State.levelOf_counted free plain low held open_ within, if_pos n]
  case counts => rw [State.levelOf_counted free plain low held open_ within, if_neg (by omega)]
  case halts => rw [h4]; exact four.halted_halt _
  case halts' => rw [h5]; exact five.halted_lockdownAct m
  case locks => rw [h5]; exact five.locked_lockdownAct m
  case kept => rw [h5]; exact five.l5_lockdownAct m

/-- Settles O44: each command by what the FC_ page does with its register. -/
theorem faultRegisters : Obligations.FaultRegisters := by
  unfold Obligations.FaultRegisters
  intro s q
  refine ⟨fun one held => ?ack, fun evt cap rejoin unlocked => ?ctrl, fun known count window sev unlocked => ?src, ?rearm,
    fun idle allowed count cls acc => ?inject, fun dom idle may out d => ?back, ?undefined⟩
  case ack =>
    refine .of_lower rfl (by decide) (fun low _ => ?_) (by simp)
    show (if (s.wreq 0xE0028 q.lower).lo then s.fcAck (s.wreq 0xE0028 q.lower).x else s) = _
    have source := low.fld 0 12 (by decide)
    have single := low.bit 12 (by decide)
    rw [PortReq.lower_wdata] at source single
    rw [if_pos low.lo, State.fcAck_one (single.trans one) (by rwa [source]), source]
  case ctrl =>
    refine .of_lower rfl (by decide) (fun low init => ?_) rfl
    show s.fcCtrl (s.wreq 0xE0008 q.lower) = _
    have f2 := low.fld 2 3 (by decide)
    have f5 := low.fld 5 3 (by decide)
    have f8 := low.fld 8 16 (by decide)
    rw [PortReq.lower_wdata] at f2 f5 f8
    rw [State.fcCtrl_takes low.lo init (by rwa [f2]) (by rwa [f5]) (by rwa [f8]) unlocked, f2, f5, f8, low.bit 0 (by decide),
      low.bit 1 (by decide), low.bit 31 (by decide), PortReq.lower_wdata]
  case src =>
    refine .of_lower rfl (by decide) (fun low init => ?_) rfl
    show s.srcCfg (s.wreq 0xE0018 q.lower) = _
    have f0 := low.fld 0 8 (by decide)
    have f8 := low.fld 8 5 (by decide)
    have f16 := low.fld 16 3 (by decide)
    rw [PortReq.lower_wdata] at f0 f8 f16
    rw [State.srcCfg_takes low.lo init known (by rwa [f0]) (by rwa [f8]) (by rwa [f16]) unlocked, f0, f8, f16,
      low.bit 31 (by decide), PortReq.lower_wdata]
  case rearm =>
    refine .of_forced rfl (by decide) (fun low _ => ?_) rfl
    show (if (s.wreq 0xE0040 (q.lower.force 0 1 1)).lo && bit (s.wreq 0xE0040 (q.lower.force 0 1 1)).x 0 then _ else s) = _
    rw [low.lo, low.bit 0 (by decide), bit_force _ (by decide) (by decide), if_pos (by decide)]
  case inject =>
    have low : LowWord s 0xE0048 (q.lower.force 24 1 1) := acc.forced
    have f0 := (low.fld 0 12 (by decide)).trans (fld_force_apart _ (by decide) (by decide))
    have f12 := (low.fld 12 4 (by decide)).trans (fld_force_apart _ (by decide) (by decide))
    have f16 := (low.fld 16 8 (by decide)).trans (fld_force_apart _ (by decide) (by decide))
    have go := (low.bit 24 (by decide)).trans (bit_force _ (by decide) (by decide))
    rw [PortReq.lower_wdata] at f0 f12 f16
    have arms := State.fcInj_arms low.lo go idle allowed (by rwa [f16]) (by rwa [f0, f12])
    rw [f0, f12, f16] at arms
    obtain ⟨m, waits, source⟩ := State.exists_waiting_raise (s.modFc (fun c => { c with
      injSource := fld q.wdata 0 12, injClass := fld q.wdata 12 4, injCount := fld q.wdata 16 8, injDenied := false,
      injLeft := fld q.wdata 16 8 })) 0x000 0x40
      (BitVec.ofNat 44 ((fld q.wdata 0 12).toNat + (fld q.wdata 12 4).toNat * 2 ^ 12 + (fld q.wdata 16 8).toNat * 2 ^ 16))
    exact ⟨_, PortDoes.of_forced rfl (by decide) (fun _ _ => arms) (by simp) acc, rfl, rfl, rfl, rfl, m, waits, source⟩
  case back =>
    refine .of_forced rfl (by decide) (fun low _ => ?_) (by simp)
    show s.fcUnit (s.wreq 0xE0050 (q.lower.force 12 2 1)) = _
    have f0 := (low.fld 0 12 (by decide)).trans (fld_force_apart _ (by decide) (by decide))
    have op := (low.fld 12 2 (by decide)).trans (fld_force _ (by decide))
    rw [PortReq.lower_wdata] at f0
    rw [State.fcUnit_returns low.lo op idle (by rwa [f0]) (by rwa [f0]) (by rwa [f0]), f0]
  case undefined =>
    refine .of_page rfl (by decide) (fun acc => ?_) (fun acc => acc.up)
    have low := acc.undefinedOp
    have f0 := (low.fld 0 12 (by decide)).trans (PortReq.fld_undefinedOp_apart _ (by decide) (by decide))
    have op := PortReq.undefinedOp_code (q := q.lower) (lo := 12) (n := 2) (v := 0) (p := fun n => decide (n = 1)) (by decide)
      (by decide) rfl
    rw [← low.fld 12 2 (by decide)] at op
    rw [PortReq.lower_wdata] at f0
    show s.fcUnit (s.wreq 0xE0050 _) = _
    rw [State.fcUnit_undefined low.lo (fun one => by simp [one] at op), f0]

end Sys2Proof
end

section
/-! SUPPORT. The journal and the debug port (14_protection.md R353–R359), the answers of the fabric (16_ports.md R397–R404) and
the test access port (R420). -/

namespace Sys2Proof.Machine

/-! The configuration journal -/

theorem State.jnCtrl_locked {s : State} {r : WReq} (h : s.jn.lock = true) : s.jnCtrl r = s := if_pos (by simp [h])

/-- JN_CTRL takes EN, and SIZE while EN stays 0; a new enable starts both indices at 0. -/
theorem State.jnCtrl_unlocked {s : State} {r : WReq} (lo : r.lo = true) (init : r.init ≠ debugId) (h : s.jn.lock = false)
    (size : (fld r.x 1 4).toNat ≤ 10) :
    s.jnCtrl r = State.drainJournal 70 (s.modJn (fun j => { j with
      en := bit r.x 0, size := if bit r.x 0 then j.size else fld r.x 1 4, lock := bit r.x 31,
      prod := if bit r.x 0 && !j.en then 0 else j.prod, cons := if bit r.x 0 && !j.en then 0 else j.cons })) := by
  unfold State.jnCtrl
  rw [if_neg (by simp [h]; omega)]
  simp only [WReq.lockLo_of lo init, State.modJn]

/-! Answers on the fabric -/

section
variable {s : State} {id : Nat} {q : FabReq} (found : s.txn? id = some q) (sent : q.backoff = false)
include found sent

theorem State.responseFail_retry (plain : q.who.isDma = false) (left : q.retries < q.maxRetries.toNat) :
    s.responseFail id true = s.modTxn id (fun q => { q with backoff := true }) := by
  simp [State.responseFail, found, sent, plain, left]

/-- Where no retry is left, or the answer is ERROR, or the channel has its own retry, the transaction fails (R403, R318). -/
theorem State.responseFail_fails {again : Bool}
    (h : (again && !q.who.isDma && decide (q.retries < q.maxRetries.toNat)) = false) :
    s.responseFail id again = s.failTxn q := by
  simp only [State.responseFail, found, sent, h, Bool.false_eq_true, if_false]

theorem State.timeoutTxn_fails :
    s.timeoutTxn id = (({ (s.dropFailed q).keepTid q with po := { ((s.dropFailed q).keepTid q).po with
      nTimeouts := satAdd ((s.dropFailed q).keepTid q).po.nTimeouts 1 } } : State).raiseFabric (pathSource q.portB) 0x11 q.fn
        q.addr q.write).txnFails q := by
  simp only [State.timeoutTxn, found, sent, Bool.false_eq_true, if_false]

end

theorem State.failTxn_dma {s : State} {q : FabReq} (h : q.who.isDma = true) : s.failTxn q = (s.dropFailed q).txnFails q := by
  simp only [State.failTxn, h, if_true]

theorem State.failTxn_plain {s : State} {q : FabReq} (h : q.who.isDma = false) :
    s.failTxn q = ((s.dropFailed q).raiseFabric (s.initiatorSource q.who) 0x10 q.fn q.addr q.write).txnFails q := by
  simp only [State.failTxn, h, Bool.false_eq_true, if_false]

section
variable {s : State} {id : Nat} {q : FabReq} (found : s.txn? id = some q) (waits : q.backoff = true)
  (may : (s.fc.halted && q.write) = false)
include found waits may

theorem State.retryTxn_denied (h : s.allowed q.fn q.addr q.len q.write = false) :
    s.retryTxn id = ((s.dropFailed q).raiseFabric (secSource (s.po.portB q.addr)) 0x12 q.fn q.addr q.write).txnFails q := by
  simp only [State.retryTxn, found, waits, may, h, Bool.not_true, Bool.false_eq_true, if_false]

theorem State.retryTxn_again (h : s.allowed q.fn q.addr q.len q.write = true) :
    s.retryTxn id =
      let q' : FabReq := { q with retries := q.retries + 1, backoff := false, portB := s.po.portB q.addr }
      let t := (s.modTxn id (fun _ => q')).transmit q'
      { t with po := { t.po with nRetries := satAdd t.po.nRetries 1 } } := by
  simp only [State.retryTxn, found, waits, may, h, Bool.not_true, Bool.false_eq_true, if_false, if_true]

end

/-- A parity error of a path is a checker's report of its port (R404). -/
theorem State.fabParity_reports {s : State} {portB : Bool} (reports : s.reports (pathSource portB) = true)
    (unarmed : s.fc.injLeft = 0) :
    s.fabParity portB =
      if fences 1 && decide (3 ≤ baseLevel 1) then (s.raise (pathSource portB) 1 0).fenceSource (pathSource portB)
      else s.raise (pathSource portB) 1 0 := by
  have has : checkerHas (pathSource portB) 1 = true := by cases portB <;> decide
  have plain : isComparator (pathSource portB) = false := by cases portB <;> decide
  unfold State.fabParity
  rw [State.checker_plain 0 has reports unarmed plain]
  simp only [if_neg (show ¬1 = 0x32 by decide), if_neg (show ¬(pathSource portB = 4 ∧ 1 = 4) by omega)]

theorem State.creditBack_up {s : State} {ch : Channel} {n : BitVec 4} (a : s.po.fpaUp = true) (b : s.po.fpbUp = true)
    (p : s.po.rpUp = true) (f : s.po.fiUp = true) (hn : n ≠ 0) :
    s.creditBack ch n = { s with po := { s.po with chans := s.po.chans.modify {} (chanNo ch) (·.credit n.toNat) } } := by
  have some : decide (n ≠ 0) = true := decide_eq_true hn
  unfold State.creditBack
  cases ch <;> exact if_pos (by simp only [a, b, p, f, some, Bool.and_self])

theorem regWrite_gcFabric (s : State) (r : WReq) (h : r.lo = true) : regWrite s 0x10020 r = s.fabricCfg r.x := by
  show (if !r.lo then s else s.fabricCfg r.x) = _
  simp [h]

/-! The test access port -/

/-- An access of an active master while none is under way, to a whole register. -/
theorem State.dbgAccess_read {s : State} {dr : BitVec 128} (answer : DWord) (master : s.pr.master = true)
    (up : s.debugUp = true) (free : s.po.tapStatus ≠ 3) (read : dr.getLsbD 121 = false) (register : dr.getLsbD 122 = false)
    (wide : dr.getLsbD 123 = true) :
    s.dbgAccess dr answer = ({ s with po := { s.po with tapIr := tapAccessIr } } : State).dbgRegister dr
      (dr.toNat / 2 ^ 64 % 2 ^ 57 % 2 ^ 25) false true (BitVec.ofNat 64 dr.toNat) := by
  have up' : ({ s with po := { s.po with tapIr := tapAccessIr } } : State).debugUp = true := up
  unfold State.dbgAccess
  simp only [up', master, free, read, register, wide, decide_false, Bool.not_true, Bool.or_self, Bool.false_eq_true, if_false]

theorem State.dbgRegister_read {s : State} {dr : BitVec 128} {a : Nat} {d : DWord} (open_ : s.fc.lockdown = false) :
    (s.ownerPasses (a / 8 * 8) debugId true false = true →
      s.dbgRegister dr a false true d =
        (s.windowRead (a / 8 * 8) true true).2.dbgDone dr (s.windowRead (a / 8 * 8) true true).1 1) ∧
    (s.ownerPasses (a / 8 * 8) debugId true false = false →
      s.dbgRegister dr a false true d = (s.raiseReg 0x009 0x14 (a / 8 * 8) debugId.toNat true false).dbgDone dr 0 2) := by
  unfold State.dbgRegister
  refine ⟨fun passes => ?_, fun denied => ?_⟩
  · simp only [passes, open_, Bool.not_true, Bool.false_and, Bool.true_or, Bool.false_eq_true, if_false, if_true]
  · simp only [denied, Bool.not_false, Bool.false_eq_true, if_false, if_true]

end Sys2Proof.Machine

namespace Sys2Proof
open Machine

/-- Settles O50: each command by what its page does with the word it sees. -/
theorem debugAndJournal : Obligations.DebugAndJournal := by
  unfold Obligations.DebugAndJournal
  intro s q
  refine ⟨.of_lower rfl (by decide) (fun low _ => ?debug) rfl, fun locked => .of_lower rfl (by decide) (fun low _ => ?locked) rfl,
    fun unlocked size => .of_lower rfl (by decide) (fun low init => ?control) ((State.latches_drainJournal ..).trans rfl),
    .of_page rfl (by decide) (fun acc => ?cons) (fun acc => (State.up_of_latches (State.latches_drainJournal ..)).trans acc.up),
    fun lower => .of_word rfl (by decide) rfl ?lost⟩
  case debug =>
    show (if (s.wreq 0x110000 q.lower).lo then s.dgWrite (s.wreq 0x110000 q.lower).x else s) = _
    rw [if_pos low.lo, State.dgWrite, low.fld 0 10 (by decide), low.bit 16 (by decide), low.bit 17 (by decide),
      PortReq.lower_wdata]
  case locked =>
    show (if (s.wreq 0x120008 q.lower).lo then s.jnCtrl (s.wreq 0x120008 q.lower) else s) = _
    rw [if_pos low.lo, State.jnCtrl_locked locked]
  case control =>
    have f := low.fld 1 4 (by decide)
    have en := low.bit 0 (by decide)
    have lock := low.bit 31 (by decide)
    rw [PortReq.lower_wdata] at f en lock
    show (if (s.wreq 0x120008 q.lower).lo then s.jnCtrl (s.wreq 0x120008 q.lower) else s) = _
    rw [if_pos low.lo, State.jnCtrl_unlocked low.lo init unlocked (by rwa [f]), f, en, lock]
  case cons =>
    obtain ⟨_, hi, word⟩ := State.wreq_upper (s := s) (off := 0x120010) (q := q.upper) (PortReq.upper_be acc.covers)
    show (if (s.wreq 0x120010 q.upper).hi then s.jnCons (hiHalf (s.wreq 0x120010 q.upper).x) else s) = _
    rw [if_pos hi, word, PortReq.upper_wdata]
    rfl
  case lost =>
    have lo : beLo q.be = true := by rw [lower]; decide
    rw [lo]
    rfl

/-- Settles O51: an answer by whether it is the initiator's last, the timers, and the registers of the ports. -/
theorem fabricAnswers : Obligations.FabricAnswers := by
  unfold Obligations.FabricAnswers
  intro s id q portB again r ch n
  refine ⟨fun found sent => ⟨fun plain left => exec_next rfl (State.responseFail_retry found sent plain left),
      fun dma => exec_next rfl ?dma, fun plain none => exec_next rfl ?exhausted, fun plain => exec_next rfl ?error,
      exec_next rfl (State.timeoutTxn_fails found sent)⟩,
    fun none => exec_next rfl ?late, fun found waits may denied => exec_next rfl (State.retryTxn_denied found waits may denied),
    fun found waits may allowed => exec_next rfl (State.retryTxn_again found waits may allowed),
    fun reports unarmed => exec_next rfl (State.fabParity_reports reports unarmed), fun timeout => ?config, fun zero => ?ignored,
    fun a b p f hn => exec_next rfl (State.creditBack_up a b p f hn)⟩
  case dma => rw [State.responseFail_fails found sent (by simp [dma]), State.failTxn_dma dma]
  case exhausted => rw [State.responseFail_fails found sent (by simp [none]), State.failTxn_plain plain]
  case error => rw [State.responseFail_fails found sent rfl, State.failTxn_plain plain]
  case late =>
    unfold State.responseFail
    rw [none]
    rfl
  case config =>
    refine .of_lower rfl (by decide) (fun low _ => ?_) rfl
    rw [regWrite_gcFabric s _ low.lo, State.fabricCfg, low.fld 8 16 (by decide), low.fld 0 3 (by decide), PortReq.lower_wdata,
      if_neg timeout]
  case ignored =>
    refine .of_lower rfl (by decide) (fun low _ => ?_) rfl
    rw [regWrite_gcFabric s _ low.lo, State.fabricCfg, low.fld 8 16 (by decide), PortReq.lower_wdata, if_pos zero]

/-- Settles O52: the TAP's instructions are as the model defines them; an access by whether a master is active and by the
page's owner. -/
theorem testAccessPort : Obligations.TestAccessPort := by
  unfold Obligations.TestAccessPort
  intro s dr answer on
  refine ⟨rfl, rfl, rfl, fun up => exec_next rfl (if_pos up), fun idle => exec_next rfl ?idle,
    fun master up free read register wide open_ => ?reads⟩
  case idle => exact if_pos (by simp [idle])
  case reads =>
    have access := State.dbgAccess_read answer master up free read register wide
    obtain ⟨passes, denied⟩ := State.dbgRegister_read (s := { s with po := { s.po with tapIr := tapAccessIr } })
      (dr := dr) (a := dr.toNat / 2 ^ 64 % 2 ^ 57 % 2 ^ 25) (d := BitVec.ofNat 64 dr.toNat) open_
    exact ⟨fun owner => exec_next rfl (access.trans (passes owner)), fun owner => exec_next rfl (access.trans (denied owner))⟩

end Sys2Proof
end

section
/-! SUPPORT. Mailboxes (12_mailboxes_dma.md R303–R310): what a go and a release leave of the paths, and the commands that carry
them out. -/

namespace Sys2Proof.Machine

/-! Paths -/

theorem State.path_congr {s t : State} (h : t.mb = s.mb) (b : MailBox) : t.path b = s.path b := by
  cases b <;> simp only [State.path, h]

/-- A change of one path is read there and nowhere else. -/
theorem State.path_modPath (s : State) (b o : MailBox) (g : MbPath → MbPath) :
    (s.modPath b g).path o = if o = b then g (s.path b) else s.path o := by
  by_cases h : o = b
  · subst h
    rw [if_pos rfl]
    cases o with
    | fnToBurin f | burinToFn f => exact Tab.get_modify_same _ _ _ _
    | senToBurin | burinToSen | vsToBurin | burinToVs => rfl
  · rw [if_neg h]
    cases b with
    | fnToBurin f =>
      cases o with
      | fnToBurin g => exact Tab.get_modify_ne _ _ _ (fun e => h (by rw [BitVec.eq_of_toNat_eq e]))
      | burinToFn g | senToBurin | burinToSen | vsToBurin | burinToVs => rfl
    | burinToFn f =>
      cases o with
      | burinToFn g => exact Tab.get_modify_ne _ _ _ (fun e => h (by rw [BitVec.eq_of_toNat_eq e]))
      | fnToBurin g | senToBurin | burinToSen | vsToBurin | burinToVs => rfl
    | senToBurin | burinToSen | vsToBurin | burinToVs =>
      cases o <;> first | exact absurd rfl h | rfl

@[simp] theorem State.path_modPath_same (s : State) (b : MailBox) (g : MbPath → MbPath) :
    (s.modPath b g).path b = g (s.path b) := by
  rw [State.path_modPath, if_pos rfl]

theorem State.path_modPath_ne (s : State) {b o : MailBox} (h : o ≠ b) (g : MbPath → MbPath) :
    (s.modPath b g).path o = s.path o := by
  rw [State.path_modPath, if_neg h]

@[simp] theorem State.evtSync_mb (s : State) : s.evtSync.mb = s.mb := rfl

@[simp] theorem State.pumpDom_mb (s : State) (d : Nat) : (s.pumpDom d).mb = s.mb := by
  simp [State.pumpDom, apply_ite State.mb]

theorem State.mb_foldl {α : Type} {f : State → α → State} (h : ∀ s a, (f s a).mb = s.mb) (l : List α) (s : State) :
    (l.foldl f s).mb = s.mb := by
  induction l generalizing s with
  | nil => rfl
  | cons a r ih => rw [List.foldl_cons, ih, h]

@[simp] theorem State.pump_mb (s : State) : s.pump.mb = s.mb := State.mb_foldl State.pumpDom_mb _ _

@[simp] theorem State.mbWake_mb (s : State) (b : MailBox) : (s.mbWake b).mb = s.mb := by
  unfold State.mbWake
  split
  · split
    · exact State.pump_mb _
    · rfl
  · rfl

@[simp] theorem State.mbSignal_mb (s : State) (f : Nat) : (s.mbSignal f).mb = s.mb := by
  simp [State.mbSignal, apply_ite State.mb]

/-! A go and a release -/

/-- The message that a go of path `b` leaves in an empty receive buffer (R304). -/
def MbPath.message (p : MbPath) (b : MailBox) (init : BitVec 16) (world : Bool) : MbMsg :=
  { words := p.tx, stamp := BitVec.ofNat 32 ((stampOf b init world).1 + p.seq.toNat * 65536),
    initiator := (stampOf b init world).2 }

/-- The path as a go moves it on. -/
def MbPath.moved (p : MbPath) : MbPath := { p with seq := p.seq + 1, err := false }

theorem MbPath.words_message (p : MbPath) (b : MailBox) (init : BitVec 16) (world : Bool) :
    (p.message b init world).words = p.tx := rfl

section
variable {s : State} {b : MailBox} (init : BitVec 16) (world : Bool) (carried : s.goIgnored b = false)
  (alive : ∀ f, b = .burinToFn f → (s.fn f.toNat).state = .enabled ∨ (s.fn f.toNat).state = .halted)
include carried alive

theorem State.mb_goCarried_empty (empty : (s.path b).rx = none) :
    (s.goCarried b init world).mb =
      ((s.modPath b MbPath.moved).modPath b (fun p => { p with rx := some ((s.path b).message b init world) })).mb := by
  unfold State.goCarried
  dsimp only
  rw [if_neg (by simp [carried]), empty]
  cases b with
  | burinToFn f =>
    rw [if_neg (by rcases alive f rfl with h | h <;> simp [h])]
    simp only [State.evtSync_mb, State.mbSignal_mb, State.mbWake_mb]
    rfl
  | fnToBurin f | senToBurin | burinToSen | vsToBurin | burinToVs =>
    rw [if_neg (by exact Bool.false_ne_true)]
    simp only [State.evtSync_mb, State.mbWake_mb]
    rfl

theorem State.mb_goCarried_full {m : MbMsg} (full : (s.path b).rx = some m) :
    (s.goCarried b init world).mb =
      ((s.modPath b MbPath.moved).modPath b (fun p => { p with ovr := satAdd p.ovr 1 })).mb := by
  unfold State.goCarried
  dsimp only
  rw [if_neg (by simp [carried]), full]
  cases b with
  | burinToFn f =>
    rw [if_neg (by rcases alive f rfl with h | h <;> simp [h])]
    rfl
  | fnToBurin f | senToBurin | burinToSen | vsToBurin | burinToVs =>
    rw [if_neg (by exact Bool.false_ne_true)]
    rfl

/-- A go fills an empty receive buffer (R303). -/
theorem State.path_goCarried_empty (empty : (s.path b).rx = none) :
    (s.goCarried b init world).path b = { (s.path b).moved with rx := some ((s.path b).message b init world) } := by
  rw [State.path_congr (State.mb_goCarried_empty init world carried alive empty), State.path_modPath_same,
    State.path_modPath_same]

/-- A go leaves a full receive buffer as it is (R307). -/
theorem State.path_goCarried_full {m : MbMsg} (full : (s.path b).rx = some m) :
    (s.goCarried b init world).path b = { (s.path b).moved with ovr := satAdd (s.path b).ovr 1 } := by
  rw [State.path_congr (State.mb_goCarried_full init world carried alive full), State.path_modPath_same,
    State.path_modPath_same]
  rfl

theorem State.path_goCarried_ne {o : MailBox} (ne : o ≠ b) : (s.goCarried b init world).path o = s.path o := by
  cases full : (s.path b).rx with
  | none => rw [State.path_congr (State.mb_goCarried_empty init world carried alive full), State.path_modPath_ne _ ne,
      State.path_modPath_ne _ ne]
  | some m => rw [State.path_congr (State.mb_goCarried_full init world carried alive full), State.path_modPath_ne _ ne,
      State.path_modPath_ne _ ne]

end

theorem State.path_mbRelease (s : State) (b : MailBox) : (s.mbRelease b).path b = { s.path b with rx := none } :=
  (State.path_congr rfl b).trans (s.path_modPath_same b _)

theorem State.path_mbRelease_ne (s : State) {b o : MailBox} (h : o ≠ b) : (s.mbRelease b).path o = s.path o :=
  (State.path_congr rfl o).trans (s.path_modPath_ne h _)

/-- A go is refused only where its receiver's domain is held off or lost (R306). -/
theorem State.goRefused_of {s : State} {b : MailBox} (h : ∀ d, receiverDomain b = some d → s.adminOff d = false) :
    s.goRefused b = false := by
  unfold State.goRefused
  split
  next d hd => rw [h d hd, Bool.and_false]
  next => rw [Bool.and_false]

theorem State.goDo_carries {s : State} {b : MailBox} (off : Nat) (init : BitVec 16) (world : Bool)
    (h : ∀ d, receiverDomain b = some d → s.adminOff d = false) : s.goDo b off init world = s.goCarried b init world := by
  unfold State.goDo
  rw [if_neg (by simp [State.goRefused_of h])]

/-! The registers of a function's mailboxes -/

@[simp] theorem PortReq.upper_initiator (q : PortReq) : q.upper.initiator = q.initiator := by
  unfold PortReq.upper
  split <;> rfl

@[simp] theorem PortReq.upper_world (q : PortReq) : q.upper.world = q.world := by
  unfold PortReq.upper
  split <;> rfl

/-- A go at a function's page is one of its own path. -/
theorem goOf_go {f : BitVec 10} {hi : Bool} {x : DWord} {b : MailBox} (h : goOf (fnPage f.toNat 0x1038) hi x = some b) :
    b = .fnToBurin f := by
  obtain ⟨-, page, -⟩ := fnPage_bounds f.isLt (show 0x1038 < 0x4000 by decide)
  unfold goOf at h
  split at h
  · rw [page, BitVec.ofNat_toNat, BitVec.setWidth_eq] at h
    exact (Option.some.inj h).symm
  · cases h

theorem bit_hiHalf (x : DWord) {i : Nat} (h : i < 32) : bit x (32 + i) = (hiHalf x).getLsbD i := by
  simp [bit, hiHalf, h]

/-- The bits of the upper half of a write of an upper 32-bit register are the request's. -/
theorem State.Accepts.upperBit {s : State} {off lo n v : Nat} {q : PortReq} (h : s.Accepts off (q.upper.force lo n v)) {i : Nat}
    (hi : i < 32) :
    (s.wreq off (q.upper.force lo n v)).hi = true ∧
    bit (s.wreq off (q.upper.force lo n v)).x (32 + i) = bit (q.upper.force lo n v).wdata (32 + i) := by
  obtain ⟨-, high, word⟩ := State.wreq_upper (s := s) (off := off) (q := q.upper.force lo n v) (PortReq.upper_be (q := q) h.covers)
  exact ⟨high, by rw [bit_hiHalf _ hi, bit_hiHalf _ hi, word]⟩

theorem pageWrite_go {s : State} {f : BitVec 10} {r : WReq} (bound : (s.fn f.toNat).state ≠ .unbound) (hi : r.hi = true)
    (set : bit r.x 32 = true) :
    pageWrite s f.toNat 0x1038 r = s.goDo (.fnToBurin f) (r.off + 4) r.init r.world := by
  unfold pageWrite
  rw [if_neg bound, if_neg (by simp), if_neg (by decide), if_pos (by decide), BitVec.ofNat_toNat, BitVec.setWidth_eq]
  unfold State.txWrite
  rw [if_neg (by decide), if_pos (by simp [hi, set])]

theorem pageWrite_release {s : State} {f : BitVec 10} {r : WReq} (bound : (s.fn f.toNat).state ≠ .unbound) (hi : r.hi = true)
    (set : bit r.x 32 = true) : pageWrite s f.toNat 0x1078 r = s.mbRelease (.burinToFn f) := by
  unfold pageWrite
  rw [if_neg bound, if_neg (by simp), if_neg (by decide), if_neg (by decide), if_pos (by decide), BitVec.ofNat_toNat,
    BitVec.setWidth_eq]
  exact if_pos ⟨by decide, hi, set⟩

theorem pageWrite_mbStat {s : State} {f : Nat} {r : WReq} (bound : (s.fn f).state ≠ .unbound) (lo : r.lo = true) :
    pageWrite s f 0x1080 r = s.mbStat f r.x := by
  unfold pageWrite
  rw [if_neg bound, if_neg (by simp), if_neg (by decide), if_neg (by decide), if_neg (by decide), if_pos rfl, if_pos lo]

/-- A write that the port takes, a go that is not refused among them, is answered without ERROR (R303, R408). -/
theorem State.portWrite_taken {s u : State} {off : Nat} {q : PortReq} (h : s.Accepts off q) (hu : regWrite s off (s.wreq off q) = u)
    (up : u.po.rpUp = true) (go : ∀ b, goOf off (beHi q.be) q.wdata = some b → s.goRefused b = false) :
    s.portWrite off q = s.carried u off q := by
  obtain ⟨up', parity, owner, covers, unlocked, running⟩ := h
  have some : (!beLo q.be && !beHi q.be) = false := by
    rw [← Bool.not_or, covers]
    rfl
  have runs : (s.fc.lockdown || (s.fc.halted && decide (off / 0x10000 ≠ 0x0E))) = false := by
    rcases running with h | h <;> simp [unlocked, h]
  unfold State.portWrite
  extract_lets lo hi w refuse err t
  have noErr : err = false := by
    unfold err
    split
    next b hb => exact go b hb
    next => rfl
  have done : t = u.journalWrite (wlog off q) (regRead s off) (sameBut s u || s.setsHeldPort off (beLo q.be) q.wdata) false := by
    show (if (regWrite s off (s.wreq off q)).po.rpUp = s.po.rpUp then
        (regWrite s off (s.wreq off q)).journalWrite (wlog off q) (regRead s off)
          (sameBut s (regWrite s off (s.wreq off q)) || s.setsHeldPort off (beLo q.be) q.wdata) false
      else regWrite s off (s.wreq off q)) = _
    rw [hu, up, up', if_pos rfl]
  rw [if_neg (by simp [up']), if_neg (by simp [parity]), if_neg (by simp [owner]), if_neg (by simpa [lo, hi] using some),
    if_neg (by rw [runs]; exact Bool.false_ne_true), noErr, done, State.journalWrite_rpUp, if_pos up]
  rfl

/-! Requests to Burin -/

/-- The first word of an answer: the request's SEQ and CODE, the length and the result (R310). -/
def answerHead (h : Word) (ws : List Word) (result : Nat) : Word :=
  BitVec.ofNat 32 (h.toNat % 65536 + ws.length * 65536 + result * 2 ^ 24)

/-- A request that Burin takes up, of a length that fits where its CODE is known, is released and answered. -/
theorem State.mbAnswer_answers {s : State} {f : BitVec 10} {m : MbMsg} (p : Nat → Bool) (len : Option Nat) (known : Bool)
    (ans : State → List Word → List Word) (waits : (s.path (.fnToBurin f)).rx = some m)
    (empty : (s.path (.burinToFn f)).rx = none)
    (alive : (s.fn f.toNat).state = .enabled ∨ (s.fn f.toNat).state = .halted) (run : s.bu.state = .run)
    (runs : s.fc.halted = false) (asked : p ((wordAt m.words 0).toNat % 256) = true)
    (fits : known = true → (wordAt m.words 0).toNat / 65536 % 16 ≤ 13 ∧
      ∀ k, len = some k → (wordAt m.words 0).toNat / 65536 % 16 = k)
    {ws : List Word} {result : Nat}
    (words : (if known then ans s ((m.words.drop 1).take ((wordAt m.words 0).toNat / 65536 % 16)) else []) = ws)
    (code : (if known then 0 else 1) = result) :
    ∃ t a, Host.Outcome.next (φ := Fault) (ρ := Refusal) (s.mbAnswer f.toNat p len known ans) = .next t ∧
      (t.path (.fnToBurin f)).rx = none ∧ (t.path (.burinToFn f)).rx = some a ∧
      a.words = (answerHead (wordAt m.words 0) ws result :: ws) ++ List.replicate (13 - ws.length) 0 := by
  have request : (s.mb.toBurin.get {} f.toNat).rx = some m := waits
  unfold State.mbAnswer
  split
  case h_1 none => exact absurd (none.symm.trans request) (by simp)
  case h_2 m' found =>
  obtain rfl := Option.some.inj (request.symm.trans found)
  extract_lets h c n bad ws' result' head u b v
  have ok : known = true → bad = false := fun k => by
    obtain ⟨short, exactly⟩ := fits k
    refine Bool.or_eq_false_iff.mpr ⟨decide_eq_false (Nat.not_lt.mpr short), ?_⟩
    split
    · exact decide_eq_false (fun ne => ne (exactly _ rfl))
    · rfl
  have hws : ws' = ws := by
    rw [← words]
    unfold ws'
    cases known with
    | false => rfl
    | true => rw [ok rfl]; rfl
  have hresult : result' = result := by
    rw [← code]
    unfold result'
    cases known with
    | false => rfl
    | true => rw [ok rfl]; rfl
  have box : BitVec.ofNat 10 f.toNat = f := by rw [BitVec.ofNat_toNat, BitVec.setWidth_eq]
  have hb : b = .burinToFn f := congrArg MailBox.burinToFn box
  have hu : u = s.mbRelease (.fnToBurin f) := congrArg (fun x => s.mbRelease (.fnToBurin x)) box
  have ne : MailBox.fnToBurin f ≠ .burinToFn f := by simp
  have none : (v.path b).rx = none := by
    rw [State.path_modPath_same, hu, hb]
    exact (congrArg MbPath.rx (s.path_mbRelease_ne ne.symm)).trans empty
  have live : ∀ g, b = .burinToFn g → (v.fn g.toNat).state = .enabled ∨ (v.fn g.toNat).state = .halted := fun g hg => by
    obtain rfl : f = g := by simpa [hb] using hg
    exact alive
  have sends : v.goDo b 0xC00BC burinId true = v.goCarried b burinId true :=
    State.goDo_carries _ _ _ (fun d hd => by rw [hb] at hd; cases hd)
  have ignored : v.goIgnored b = false := by rw [hb]; rfl
  rw [if_neg (by simp [c, h, asked, run, runs]), sends]
  have filled := State.path_goCarried_empty burinId true ignored live none
  refine ⟨_, (v.path b).message b burinId true, rfl, ?_, ?_, ?_⟩
  · rw [State.path_goCarried_ne burinId true ignored live (hb ▸ ne), State.path_modPath_ne _ (hb ▸ ne), hu, State.path_mbRelease]
  · rw [← hb, filled]
  · have words : (v.path b).tx = (head :: ws') ++ List.replicate (13 - ws'.length) 0 :=
      congrArg MbPath.tx (u.path_modPath_same b _)
    have heads : head = answerHead h ws' result' := rfl
    rw [MbPath.words_message, words, heads, hws, hresult]

end Sys2Proof.Machine

namespace Sys2Proof
open Machine

/-- Settles O39: a go by whether the receive buffer is empty; the commands by where each mailbox's registers stand. -/
theorem mailboxCommands : Obligations.MailboxCommands := by
  unfold Obligations.MailboxCommands
  refine ⟨fun s f q => ⟨fun bound => ⟨fun on => ?go, ?release, fun low => ?stat⟩, fun burin => ?byBurin,
    fun b inside on => ?inside⟩, fun s b other init world => ⟨?released, fun carried alive => ?carried⟩⟩
  case go =>
    intro acc
    have receiver (d : Nat) (hd : receiverDomain (.fnToBurin f) = some d) : s.adminOff d = false := Option.some.inj hd ▸ on
    refine exec_next rfl (State.portWrite_taken acc ?_ ?_ (fun b hb => ?_))
    · obtain ⟨high, set⟩ := acc.upperBit (i := 0) (by decide)
      rw [Nat.add_zero, bit_force _ (by decide) (by decide)] at set
      rw [regWrite_fnPage s _ f.isLt (by decide)]
      rw [pageWrite_go (by rcases bound with h | h <;> simp [h]) high set, State.goDo_carries _ _ _ receiver]
      show s.goCarried (.fnToBurin f) q.upper.initiator q.upper.world = _
      rw [PortReq.upper_initiator, PortReq.upper_world]
    · exact (State.up_of_latches (s.latches_goCarried ..)).trans acc.up
    · rw [goOf_go hb]
      exact State.goRefused_of receiver
  case release =>
    refine .of_fnPage rfl f.isLt (by decide) (by decide) (fun acc => ?_) (fun acc => acc.up)
    obtain ⟨high, set⟩ := acc.upperBit (i := 0) (by decide)
    rw [Nat.add_zero, bit_force _ (by decide) (by decide)] at set
    rw [pageWrite_release (by rcases bound with h | h <;> simp [h]) high set]
  case stat =>
    refine .of_fnPage rfl f.isLt (by decide) (by decide) (fun acc => ?_) (fun acc => acc.up)
    rw [pageWrite_mbStat (by rcases bound with h | h <;> simp [h]) low, State.mbStat, State.fld_wreq_low low (by decide),
      bit_of_fld (State.fld_wreq_low low (by decide))]
  case byBurin =>
    have free {b : MailBox} (h : receiverDomain b = none) (d : Nat) (hd : receiverDomain b = some d) : s.adminOff d = false := by
      rw [h] at hd
      cases hd
    refine ⟨exec_next rfl ?_, exec_next rfl ?_, fun on => exec_next rfl ?_, exec_next rfl (if_pos burin),
      exec_next rfl (if_pos burin), exec_next rfl (if_pos burin)⟩
    · exact (if_pos burin).trans (State.goDo_carries _ _ _ (free rfl))
    · exact (if_pos burin).trans (State.goDo_carries _ _ _ (free rfl))
    · exact (if_pos burin).trans (State.goDo_carries _ _ _ (fun d hd => Option.some.inj hd ▸ on))
  case inside =>
    rcases inside with rfl | rfl
    · exact exec_next rfl (State.goDo_carries _ _ _ (fun d hd => Option.some.inj hd ▸ on))
    · exact exec_next rfl (State.goDo_carries _ _ _ (fun d hd => Option.some.inj hd ▸ on))
  case released => rw [State.path_mbRelease]
  case carried =>
    refine ⟨?seq, ?err, fun empty => ?fills, fun m full => ?overrun, fun ne => State.path_goCarried_ne init world carried alive ne⟩
    case seq =>
      cases full : (s.path b).rx with
      | none => rw [State.path_goCarried_empty init world carried alive full]; rfl
      | some m => rw [State.path_goCarried_full init world carried alive full]; rfl
    case err =>
      cases full : (s.path b).rx with
      | none => rw [State.path_goCarried_empty init world carried alive full]; rfl
      | some m => rw [State.path_goCarried_full init world carried alive full]; rfl
    case fills =>
      rw [State.path_goCarried_empty init world carried alive empty]
      exact ⟨rfl, rfl⟩
    case overrun =>
      rw [State.path_goCarried_full init world carried alive full]
      exact ⟨full, rfl⟩

/-- Settles O40: one lemma about an answered request, with each CODE's words and length. -/
theorem mailboxRequests : Obligations.MailboxRequests := by
  unfold Obligations.MailboxRequests
  intro s f m h code n answers waits empty alive run runs
  refine ⟨fun hc hn => ?ping, fun hc hn => ?version, fun hc hn => ?capacity, fun hc hn => ?window, fun hc hn => ?function,
    fun hc => ?unknown⟩
  case ping =>
    exact State.mbAnswer_answers _ _ _ _ waits empty alive run runs (decide_eq_true hc) (fun _ => ⟨hn, fun _ e => by cases e⟩) rfl rfl
  case version | capacity | window | function =>
    exact State.mbAnswer_answers _ _ _ _ waits empty alive run runs (decide_eq_true hc)
      (fun _ => ⟨Nat.le_of_lt (hn.trans_lt (by decide)), fun _ e => by cases e; exact hn⟩) rfl rfl
  case unknown =>
    have none : (!decide (1 ≤ code ∧ code ≤ 5)) = true := by
      clear_value code
      simp only [Bool.not_eq_true', decide_eq_false_iff_not]
      omega
    exact State.mbAnswer_answers _ _ _ _ waits empty alive run runs none (fun k => by cases k) rfl rfl

end Sys2Proof
end

section
/-! SUPPORT. The DMA mover (12_mailboxes_dma.md R313–R318): what DM_CTRL does to a channel, by the port and by Burin, and the ways
of a burst. -/

namespace Sys2Proof.Machine

theorem State.ch_modCh (s : State) (c : Nat) (f : DmaCh → DmaCh) : (s.modCh c f).ch c = f (s.ch c) := Tab.get_modify_same _ _ _ _

/-! DM_CTRL -/

@[simp] theorem PortReq.lower_initiator (q : PortReq) : q.lower.initiator = q.initiator := by
  unfold PortReq.lower
  split <;> rfl

theorem PortReq.lower_be_of {q : PortReq} (h : beOk q.be = true) : q.lower.be = 0x0F := by
  unfold PortReq.lower
  rw [if_pos h]

theorem regWrite_dmCtrl {s : State} {c : Nat} {r : WReq} (hc : c < 32) (lo : r.lo = true) (may : chOpen c r.init = true) :
    regWrite s (0xD0000 + c * 0x40) r = s.dmCtrl c r.x r.init := by
  unfold regWrite
  rw [if_neg (by omega)]
  simp only [show (0xD0000 + c * 0x40) / 0x10000 = 13 by omega, show (0xD0000 + c * 0x40) % 0x10000 = c * 0x40 by omega]
  unfold dmWrite
  rw [if_neg (by omega), Nat.mul_div_cancel _ (by decide), if_pos ⟨by omega, may⟩]
  simp only [Nat.mul_mod_left, lo, if_true]

/-- DM_CTRL reads the low half of its word alone. -/
theorem State.dmCtrl_congr {s : State} {c : Nat} {x y : DWord} (init : BitVec 16)
    (same : ∀ l n, l + n ≤ 32 → fld x l n = fld y l n) : s.dmCtrl c x init = s.dmCtrl c y init := by
  have bits (i : Nat) (h : i < 32) : bit x i = bit y i := bit_of_fld (same i 1 (by omega))
  unfold State.dmCtrl
  rw [same 4 3 (by decide), same 8 3 (by decide), same 14 2 (by decide), same 16 2 (by decide), bits 11 (by decide),
    bits 12 (by decide), bits 0 (by decide), bits 1 (by decide), bits 2 (by decide)]

/-- A write that Burin makes to a register is the page's own, where that is not journalled. -/
theorem State.burinWrite_lower {s u : State} {off : Nat} {x : DWord} (plain : journalled off false burinId = false)
    (page : ∀ r : WReq, r.lo = true → r.init = burinId → (∀ l n, l + n ≤ 32 → fld r.x l n = fld x l n) → regWrite s off r = u)
    (up : u.latches = s.latches) : s.burinWrite off x true false = u := by
  have written := page
    { x := halves (loHalf x) (hiHalf (regRead s off)), lo := true, hi := false, init := burinId, world := true, off := off }
    rfl rfl (fun l n h => fld_halves_lo x _ h)
  unfold State.burinWrite State.doWrite
  extract_lets old y t
  have ht : t = u := written
  rw [ht, if_pos (State.up_of_latches up)]
  unfold State.journalWrite
  exact if_neg (by rw [plain]; exact Bool.false_ne_true)

/-- A command of a channel does what DM_CTRL does with its word, by the port for channels 16–31 and by Burin for all. -/
theorem dmaDoes {s u : State} {i : Instr} {ch : BitVec 5} {q : PortReq} {lo : Nat}
    (hi : exec i s = .next (s.unitWrite (0xD0000 + ch.toNat * 0x40) (q.lower.force lo 1 1)))
    (does : s.dmCtrl ch.toNat (q.lower.force lo 1 1).wdata q.initiator = u) :
    (16 ≤ ch.toNat → PortDoes s i (0xD0000 + ch.toNat * 0x40) (q.lower.force lo 1 1) u) ∧
    (q.initiator = burinId → beOk q.be = true → exec i s = .next u) := by
  have up : u.latches = s.latches := does ▸ s.latches_dmCtrl _ _ _
  have inside := ch.isLt
  refine ⟨fun shared acc => ?_, fun burin be => exec_next hi ?_⟩
  · have notBurin : (q.lower.force lo 1 1).initiator ≠ burinId := acc.notBurin
    have low : LowWord s (0xD0000 + ch.toNat * 0x40) (q.lower.force lo 1 1) := acc.forced
    have write : exec i s = .next (s.portWrite (0xD0000 + ch.toNat * 0x40) (q.lower.force lo 1 1)) :=
      exec_next hi (if_neg notBurin)
    refine PortDoes.of_page write (by omega) (fun acc => ?_) (fun acc => (State.up_of_latches up).trans acc.up) acc
    rw [regWrite_dmCtrl inside low.lo (by simp [chOpen, shared]), State.dmCtrl_congr _ low.fld, ← does, ← PortReq.lower_initiator q]
    rfl
  · have be' : (q.lower.force lo 1 1).be = 0x0F := PortReq.lower_be_of be
    have init : (q.lower.force lo 1 1).initiator = burinId := (PortReq.lower_initiator q).trans burin
    unfold State.unitWrite
    rw [if_pos init, be']
    refine State.burinWrite_lower (by simp only [journalled, if_true, decide_eq_false_iff_not]; omega) (fun r lo init same => ?_) up
    rw [regWrite_dmCtrl inside lo (by simp [chOpen, init]), State.dmCtrl_congr _ same, init, ← does, burin]

section
variable {s : State} {c : Nat} {x : DWord} {init : BitVec 16}

/-- The settings that a write of DM_CTRL gives a channel that has no work (R314). -/
def DmaCh.settings (y : DmaCh) (x : DWord) (rom : Bool) : DmaCh :=
  { y with
    prio := fld x 4 3, retry := fld x 8 3, crcKind := bit x 11, crcStore := bit x 12, srcSpace := fld x 14 2, dstSpace := fld x 16 2,
    byRom := rom }

/-- The settings are apart from START. -/
theorem DmaCh.settings_force (q : PortReq) (rom : Bool) :
    (fun y : DmaCh => y.settings (q.lower.force 0 1 1).wdata rom) = fun y => y.settings q.wdata rom := by
  have fields {l m : Nat} (h : 1 ≤ l) : fld (q.lower.force 0 1 1).wdata l m = fld q.wdata l m :=
    (fld_force_apart _ (by decide) (by omega)).trans (by rw [PortReq.lower_wdata])
  have bits {i : Nat} (h : 1 ≤ i) : bit (q.lower.force 0 1 1).wdata i = bit q.wdata i := bit_of_fld (fields h)
  funext y
  simp only [DmaCh.settings, fields (show 1 ≤ 4 by decide), fields (show 1 ≤ 8 by decide), fields (show 1 ≤ 14 by decide),
    fields (show 1 ≤ 16 by decide), bits (show 1 ≤ 11 by decide), bits (show 1 ≤ 12 by decide)]

/-- A channel as START begins it (R314). -/
def DmaCh.fresh (x : DmaCh) : DmaCh :=
  { x with crc := if x.crcKind then 0 else 0xFFFFFFFF, err := 0, retries := 0, bursts := [], ahead := 0, ending := 0 }

/-- START of a channel that has nothing left to do and is well formed. -/
theorem State.dmaStart_fresh (ended : (s.ch c).state = .idle ∨ (s.ch c).state = .done)
    (served : (s.unit 0x00D).outOfService = false) (ok : ((s.modCh c DmaCh.fresh).ch c).configOk c = true) :
    s.dmaStart c = ((s.modCh c DmaCh.fresh).modCh c (fun x => { x with state := .run })).moveOn := by
  have fresh : (decide ((s.ch c).state = .idle) || decide ((s.ch c).state = .done) ||
      (decide ((s.ch c).state = .halted) && decide ((s.ch c).err = 3))) = true := by
    rcases ended with h | h <;> simp [h]
  unfold State.dmaStart
  simp only [fresh, Bool.not_true, Bool.false_and, Bool.false_eq_true, if_false, served, if_true]
  exact if_pos ok

theorem State.dmaAbort_run (run : (s.ch c).state = .run) :
    s.dmaAbort c = ((s.modCh c (fun x => { x with state := .stopping, ending := 4 })).chSettle c).moveOn := by
  unfold State.dmaAbort
  dsimp only
  rw [if_neg (by rw [run]; decide), if_pos (Or.inl run)]

theorem State.dmCtrl_start (start : bit x 0 = true) (noPause : bit x 1 = false) (noAbort : bit x 2 = false)
    (ended : (s.ch c).state = .idle ∨ (s.ch c).state = .done) :
    s.dmCtrl c x init = (s.modCh c (fun y => y.settings x (s.fromRom init))).dmaStart c := by
  have idle : (s.ch c).active = false := by
    unfold DmaCh.active
    rcases ended with h | h <;> simp [h]
  unfold State.dmCtrl
  simp only [idle, start, noPause, noAbort, Bool.not_false, Bool.and_self, Bool.false_eq_true, if_false, if_true]
  rfl

theorem State.dmCtrl_busy (run : (s.ch c).state = .run) :
    s.dmCtrl c x init =
      if bit x 2 then (if bit x 1 then s.dmaPause c else s).dmaAbort c else if bit x 1 then s.dmaPause c else s := by
  have busy : (s.ch c).active = true := by simp [DmaCh.active, run]
  unfold State.dmCtrl
  simp only [busy, Bool.not_true, Bool.and_false, Bool.false_eq_true, if_false, if_true]

end

/-! Bursts -/

theorem State.dmaBurstDone_writing {s : State} {c n : Nat} {b : Burst} (found : s.burst? c n = some b)
    (writing : b.phase = .writing) :
    s.dmaBurstDone c n =
      (((s.answered (fun w => decide (w = .dmaWrite c n))).modBurst c n (fun y => { y with phase := .written })).chSettle c).moveOn := by
  simp [State.dmaBurstDone, found, writing]

theorem State.dmaRetry_crc {s : State} {c n : Nat} (none : s.burst? c n = none) (waits : (s.ch c).crcWait = true)
    (run : (s.ch c).state = .run) (runs : s.fc.halted = false) : s.dmaRetry c n = s.crcWrite c := by
  simp [State.dmaRetry, none, waits, run, runs]

theorem State.dmaCrcWritten_going {s : State} {c : Nat} (out : (s.ch c).crcOut = true) (going : (s.ch c).state ≠ .stopping) :
    s.dmaCrcWritten c =
      ((s.answered (fun w => decide (w = .dmaCrc c))).modCh c (fun x => { x with crc := x.crcFinal })).chEnd c .done 0 := by
  simp [State.dmaCrcWritten, out, going]

section
variable {s : State} {c n : Nat} {b : Burst} (found : s.burst? c n = some b) (run : (s.ch c).state = .run)
include found run

theorem State.dmaReadReturn_reading {data : List Byte} (reading : b.phase = .reading) :
    s.dmaReadReturn c n data =
      ((s.answered (fun w => decide (w = .dmaRead c n))).burstWrite c { b with data := fit b.len data }).moveOn := by
  have run' (p : Who → Bool) : ((s.answered p).ch c).state = .run := run
  simp [State.dmaReadReturn, found, reading, run']

theorem State.dmaRetry_read (runs : s.fc.halted = false) (waits : b.phase = .readRetry) :
    s.dmaRetry c n = (s.modBurst c n (fun y => { y with phase := .reading })).burstRead c { b with phase := .reading } := by
  simp [State.dmaRetry, found, run, runs, waits]

theorem State.dmaRetry_write (runs : s.fc.halted = false) (waits : b.phase = .writeRetry) : s.dmaRetry c n = s.burstWrite c b := by
  simp [State.dmaRetry, found, run, runs, waits]

theorem State.dmaBurstFail_retry (out : b.phase = .reading ∨ b.phase = .writing) (left : b.tries < (s.ch c).retry.toNat) :
    s.dmaBurstFail c n false =
      ((s.answered (fun w => decide (w = .dmaRead c n ∨ w = .dmaWrite c n))).modBurst c n (fun y => { y with
        tries := b.tries + 1, phase := if b.phase = .reading then .readRetry else .writeRetry })).modCh c (fun x => { x with
          retries := BitVec.ofNat 3 (b.tries + 1) }) := by
  simp only [State.dmaBurstFail, found]
  rw [if_neg (by rcases out with h | h <;> simp [h]), if_neg (by rw [run]; decide), if_neg Bool.false_ne_true, if_pos left,
    if_neg (by rw [run]; simp)]
  rcases out with h | h <;> simp [h]

theorem State.dmaBurstFail_spent (out : b.phase = .reading ∨ b.phase = .writing) (spent : (s.ch c).retry.toNat ≤ b.tries) :
    s.dmaBurstFail c n false =
      (((((s.answered (fun w => decide (w = .dmaRead c n ∨ w = .dmaWrite c n))).modBurst c n (fun y => { y with
        phase := .readRetry })).raiseFabric 0x00D 0x10 0
        (if b.phase = .reading then b.src else b.dst) (decide (b.phase = .writing))).chStop c 1).chSettle c).moveOn := by
  simp only [State.dmaBurstFail, found]
  rw [if_neg (by rcases out with h | h <;> simp [h]), if_neg (by rw [run]; decide), if_neg Bool.false_ne_true,
    if_neg (Nat.not_lt.mpr spent)]
  rcases out with h | h <;> simp [h]

theorem State.dmaBurstFail_denied (out : b.phase = .reading ∨ b.phase = .writing) :
    s.dmaBurstFail c n true =
      ((((s.answered (fun w => decide (w = .dmaRead c n ∨ w = .dmaWrite c n))).modBurst c n (fun y => { y with
        phase := .readRetry })).chStop c 2).chSettle c).moveOn := by
  simp only [State.dmaBurstFail, found]
  rw [if_neg (by rcases out with h | h <;> simp [h]), if_neg (by rw [run]; decide), if_pos trivial]

end

end Sys2Proof.Machine

namespace Sys2Proof
open Machine

/-- Settles O41: DM_CTRL by the state of its channel, a burst by its phase. -/
theorem moverChannels : Obligations.MoverChannels := by
  unfold Obligations.MoverChannels
  refine ⟨?control, ?work⟩
  case control =>
    intro s ch q c off x does cfg begin_
    refine ⟨fun ended served noPause noAbort ok => dmaDoes rfl ?start, fun run noAbort => dmaDoes rfl ?pause,
      fun run noPause => dmaDoes rfl ?abort⟩
    case start =>
      have noPause' := (bit_force_apart q.lower (lo := 0) (n := 1) (v := 1) (i := 1) (by decide) (by decide)).trans
        (by rw [PortReq.lower_wdata, noPause])
      have noAbort' := (bit_force_apart q.lower (lo := 0) (n := 1) (v := 1) (i := 2) (by decide) (by decide)).trans
        (by rw [PortReq.lower_wdata, noAbort])
      rw [State.dmCtrl_start (bit_force _ (by decide) (by decide)) noPause' noAbort' ended, DmaCh.settings_force]
      exact State.dmaStart_fresh ((congrArg DmaCh.state (s.ch_modCh c _)) ▸ ended) served ok
    case pause =>
      rw [State.dmCtrl_busy run, bit_force_apart _ (by decide) (by decide), bit_force _ (by decide) (by decide),
        PortReq.lower_wdata, noAbort, if_neg Bool.false_ne_true, if_pos (by rfl)]
      exact if_pos run
    case abort =>
      rw [State.dmCtrl_busy run, bit_force _ (by decide) (by decide), bit_force_apart _ (by decide) (by decide),
        PortReq.lower_wdata, noPause, if_pos (by rfl), if_neg Bool.false_ne_true]
      exact State.dmaAbort_run run
  case work =>
    intro s ch n b data c x
    refine ⟨fun found run runs => ⟨fun reading => exec_next rfl (State.dmaReadReturn_reading found run reading),
        fun writing => exec_next rfl (State.dmaBurstDone_writing found writing),
        fun out => ⟨fun left => exec_next rfl (State.dmaBurstFail_retry found run out left),
          fun spent => exec_next rfl (State.dmaBurstFail_spent found run out spent),
          exec_next rfl (State.dmaBurstFail_denied found run out)⟩,
        fun waits => exec_next rfl (State.dmaRetry_read found run runs waits),
        fun waits => exec_next rfl (State.dmaRetry_write found run runs waits)⟩,
      fun none waits run runs => exec_next rfl (State.dmaRetry_crc none waits run runs),
      fun out going => exec_next rfl (State.dmaCrcWritten_going out going)⟩

end Sys2Proof
end

section
/-! SUPPORT. Aging, suspension and idle gating (04_chains.md R99–R101, 07_digest.md R180, R189, 08_public_key.md R207,
15_power_startup.md R384). -/

namespace Sys2Proof.Machine

section
variable {s : State} {t : Nat} {d : LinkData} {l : Link} {plan : State → Link → Plan} {sup : Link → List Byte} {m : Mark}
  (ready : s.restoringFor t = false) (found : s.link? t d (fun o => (planOf o).isSome) = some l)
  (meaning : planOf l.op = some (plan, sup))
include ready found meaning

/-- A link of another kind than a core's at position `pos`: past its mark, at the end of a segment or, on a digest lane that
must make way, of a compression, its new mark is committed; then it gives the unit up or goes on (R100, R101). -/
theorem State.suspendLink_plain {pos : Nat} (plain : ¬(unitKind l.unit = .modular ∨ unitKind l.unit = .ntt))
    (past : (plan s l).reached l.mark ≤ pos) (marked : (s.markLink l (plan s l) (sup l) pos).1 = true)
    (mark : ((s.markLink l (plan s l) (sup l) pos).2.tag? t).bind (·.mark) = some m)
    (stop : ((plan s l).segmentEnds l.n pos || ((s.makesWay l.unit l.e && s.dReady (unitKind l.unit) && s.entryFree l) &&
      decide (unitKind l.unit = .digest))) = true) :
    s.suspendLink t pos d =
      if ((s.makesWay l.unit l.e && s.dReady (unitKind l.unit) && s.entryFree l) &&
          ((plan s l).segmentEnds l.n pos || (plan s l).blockEnds s l.n pos m)) = true then
        (s.markLink l (plan s l) (sup l) pos).2.yieldUnit l (plan s l) m
      else if (plan s l).segmentEnds l.n pos then (s.markLink l (plan s l) (sup l) pos).2 else s := by
  unfold State.suspendLink
  simp only [ready, found, meaning, plain, decide_false, Bool.false_eq_true, if_false, Bool.false_or, Bool.or_false,
    if_pos (And.intro past stop), marked, Bool.and_false, mark, Bool.not_true]

/-- A link of a public-key core: at an impression it also keeps what it has drawn (R207). -/
theorem State.suspendLink_core {pos : Nat} (core : unitKind l.unit = .modular ∨ unitKind l.unit = .ntt)
    (past : (plan s l).reached l.mark = 0) (marked : (s.markLink l (plan s l) (sup l) 0).1 = true)
    (yields : (s.makesWay l.unit l.e && s.dReady (unitKind l.unit) && s.entryFree l) = true)
    (mark : (((s.markLink l (plan s l) (sup l) 0).2.drawAhead l (plan s l)).tag? t).bind (·.mark) = some m) :
    s.suspendLink t pos d = ((s.markLink l (plan s l) (sup l) 0).2.drawAhead l (plan s l)).yieldUnit l (plan s l) m := by
  unfold State.suspendLink
  simp only [ready, found, meaning, core, decide_true, Bool.false_eq_true, if_false, if_true, yields, past, Nat.le_refl, marked,
    Bool.and_self, mark, Bool.not_true, Bool.or_true, Bool.true_or, and_self]

end

/-! Gating -/

theorem State.ageLink_ages {s : State} {t : Nat} {e : TagEnt} (found : s.tag? t = some e) (cls : (s.flight e.pkt).cls ≠ .d)
    (queued : e.phase = .queued) (fresh : e.started = false) (on : s.sq.ageUs ≠ 0) :
    s.ageLink t = s.setTag t { e with aged := e.aged + 1, since := s.po.tm } := by
  simp only [State.ageLink, found, queued, fresh, decide_eq_true cls, decide_eq_true on, decide_true, Bool.not_false,
    Bool.and_self, if_true]

/-- An idle lane without resident contexts is gated off with its domain (R384). -/
theorem State.idleGate_gates {s : State} {u d : Nat} (dom : unitDomain u = some d) (runs : s.fc.halted = false)
    (works : (s.unit u).role = .working) (lane : unitKind u = .cipher ∨ unitKind u = .digest ∧ s.residents u = 0)
    (lean : s.pf.current = 2) (idle : (s.unit u).busy = none) :
    s.idleGate u = (s.setUnit u { s.unit u with role := .gated, gatedSpare := false }).domOff d .gated .gate := by
  have noContext : ¬(unitKind u = .digest ∧ 0 < s.residents u) := by
    rcases lane with h | ⟨-, h⟩
    · simp [h]
    · omega
  have isLane : (decide (unitKind u = .cipher) || decide (unitKind u = .digest)) = true := by
    rcases lane with h | ⟨h, -⟩ <;> simp [h]
  have goes : (!(decide (unitKind u = .cipher) || decide (unitKind u = .digest)) ||
      !(decide ((s.unit u).role = .working) || (decide ((s.unit u).role = .spare) && s.powerOver)) ||
      decide (s.pf.current ≠ 2) || (s.unit u).busy.isSome || s.fc.halted) = false := by
    simp [isLane, works, lean, idle, runs]
  have notSpare : ¬(s.unit u).role = .spare := by simp [works]
  unfold State.idleGate
  dsimp only
  rw [if_neg notSpare, if_neg (by rw [goes]; exact Bool.false_ne_true), if_neg noContext, dom]
  show (s.setUnit u { s.unit u with role := .gated, gatedSpare := decide ((s.unit u).role = .spare) }).domOff d .gated .gate = _
  rw [decide_eq_false notSpare]

theorem State.proofWake_wakes {s : State} {u d : Nat} (dom : unitDomain u = some d) (runs : s.fc.halted = false)
    (gated : (s.unit u).role = .gated) (spare : (s.unit u).gatedSpare = true) :
    s.proofWake u = (s.setUnit u { s.unit u with need := 10 }).domWants d .wake := by
  unfold State.proofWake
  dsimp only
  rw [if_pos ⟨gated, spare, runs⟩, dom]
  rfl

end Sys2Proof.Machine

namespace Sys2Proof
open Machine

/-- Settles O28: a suspension by the kind of its unit, the timers by what they ask of the link or the lane. -/
theorem schedulingEvents : Obligations.SchedulingEvents := by
  unfold Obligations.SchedulingEvents
  refine ⟨fun s tag e found cls queued fresh on => exec_next rfl (State.ageLink_ages found cls queued fresh on), ?suspend,
    fun s unit d => ?gate⟩
  case suspend =>
    intro s tag pos d l plan sup m k p core x ends yields ready found meaning marked
    refine ⟨fun plain past mark => ?plain, fun isCore past y mark => ?core⟩
    case plain =>
      have hx : x = s.markLink l p (sup l) pos.toNat := congrArg (s.markLink l p (sup l)) (if_neg plain)
      rw [hx] at marked mark ⊢
      have atSegment (h : ends = true) : (ends || (yields && decide (k = .digest))) = true := by rw [h, Bool.true_or]
      refine ⟨fun atEnd stays => exec_next rfl ((State.suspendLink_plain ready found meaning plain past marked mark
          (atSegment atEnd)).trans ((if_neg ?stays).trans (if_pos atEnd))),
        fun atEnd goes => exec_next rfl ((State.suspendLink_plain ready found meaning plain past marked mark
          (atSegment atEnd)).trans (if_pos ?goes)),
        fun digest goes block => exec_next rfl ((State.suspendLink_plain ready found meaning plain past marked mark ?stop).trans
          (if_pos ?blockEnd))⟩
      case stays =>
        show ¬(yields && (ends || p.blockEnds s l.n pos.toNat m)) = true
        rw [stays, Bool.false_and]
        exact Bool.false_ne_true
      case goes =>
        show (yields && (ends || p.blockEnds s l.n pos.toNat m)) = true
        rw [goes, atEnd, Bool.true_or, Bool.and_self]
      case stop =>
        show (ends || (yields && decide (k = .digest))) = true
        rw [goes, decide_eq_true digest, Bool.and_self, Bool.or_true]
      case blockEnd =>
        show (yields && (ends || p.blockEnds s l.n pos.toNat m)) = true
        rw [goes, block, Bool.or_true, Bool.and_self]
    case core =>
      have hx : x = s.markLink l p (sup l) 0 := congrArg (s.markLink l p (sup l)) (if_pos isCore)
      rw [hx] at marked mark ⊢
      exact exec_next rfl (State.suspendLink_core ready found meaning isCore past marked y mark)
  case gate =>
    intro u x dom runs
    exact ⟨fun works lane lean idle => exec_next rfl (State.idleGate_gates dom runs works lane lean idle),
      fun gated spare => exec_next rfl (State.proofWake_wakes dom runs gated spare)⟩

end Sys2Proof
end

section
/-! SUPPORT. The random number generator (08_public_key.md R207, R216–R220): what PK_RNG_CTRL does with its word, and the
generator's own events. -/

namespace Sys2Proof.Machine

section
variable {s : State} {x : DWord}

/-- The values of PK_RNG_CTRL that are taken (R217). -/
def rngFits (x : DWord) : Prop :=
  1 ≤ (fld x 0 10).toNat ∧ (fld x 0 10).toNat ≤ 1000 ∧ 10 ≤ (fld x 16 5).toNat ∧ (fld x 16 5).toNat ≤ 20

/-- The generator with the intervals that a write gives it. -/
def State.rngSet (s : State) (x : DWord) : State := s.modRng (fun g => { g with intervalMs := fld x 0 10, reqLog2 := fld x 16 5 })

theorem rngFits_congr {y : DWord} (h0 : fld x 0 10 = fld y 0 10) (h16 : fld x 16 5 = fld y 16 5) : rngFits y = rngFits x := by
  unfold rngFits
  rw [h0, h16]

theorem State.rngSet_congr {y : DWord} (h0 : fld x 0 10 = fld y 0 10) (h16 : fld x 16 5 = fld y 16 5) :
    s.rngSet x = s.rngSet y := by
  unfold State.rngSet
  rw [h0, h16]

theorem State.rngCtrl_outside (h : ¬rngFits x) : s.rngCtrl x = s := if_pos (by unfold rngFits at h; omega)

/-- What a write in range does: the intervals, then RAW_MODE where it changes, then RESEED, then RESTART. -/
theorem State.rngCtrl_inside (h : rngFits x) :
    s.rngCtrl x =
      let v := if bit x 28 = s.pk.rng.rawMode then s.rngSet x else (s.rngSet x).rawMode (bit x 28)
      let w := if bit x 24 then v.reseedAsk else v
      if bit x 25 then w.rngRestart else w :=
  if_neg (by unfold rngFits at h; omega)

theorem State.rngCtrl_congr {y : DWord} (same : ∀ l n, l + n ≤ 32 → fld x l n = fld y l n) : s.rngCtrl x = s.rngCtrl y := by
  have bits (i : Nat) (h : i < 32) : bit x i = bit y i := bit_of_fld (same i 1 (by omega))
  unfold State.rngCtrl
  rw [same 0 10 (by decide), same 16 5 (by decide), bits 28 (by decide), bits 24 (by decide), bits 25 (by decide)]

end

theorem regWrite_rngCtrl {s : State} {r : WReq} (lo : r.lo = true) : regWrite s 0x80200 r = s.rngCtrl r.x := by
  show (if 0x200 = 0x200 ∧ r.lo = true then s.rngCtrl r.x else s) = _
  rw [if_pos ⟨rfl, lo⟩]

/-- A write of PK_RNG_CTRL. -/
theorem PortDoes.of_rngCtrl {s u : State} {i : Instr} {q : PortReq} (hi : exec i s = .next (s.portWrite 0x80200 q.lower))
    (does : s.rngCtrl q.wdata = u) (up : u.latches = s.latches) : PortDoes s i 0x80200 q.lower u :=
  .of_lower hi (by decide) (fun low _ => by
    rw [regWrite_rngCtrl low.lo, State.rngCtrl_congr low.fld, PortReq.lower_wdata, does]) up

/-- A command of PK_RNG_CTRL: its other bits are the request's. -/
theorem PortDoes.of_rngCommand {s u : State} {i : Instr} {q : PortReq} {b : Nat} (hi : exec i s = .next (s.command 0x80200 b 1 1 q))
    (hb : b < 32) (does : ∀ x, bit x b = true → (∀ l n, l + n ≤ b ∨ b < l → fld x l n = fld q.wdata l n) → s.rngCtrl x = u)
    (up : u.latches = s.latches) : PortDoes s i 0x80200 (q.lower.force b 1 1) u := by
  refine .of_forced hi (by decide) (fun low _ => ?_) up
  rw [regWrite_rngCtrl low.lo, State.rngCtrl_congr low.fld]
  exact does _ (bit_force _ (by omega) (by decide)) (fun l n h => (fld_force_apart _ (by decide) (by omega)).trans
    (by rw [PortReq.lower_wdata]))

/-! The generator's own events -/

/-- The generator after a failed health test, `times` the last failures (R218). -/
def State.testFailed (s : State) (adaptive : Bool) (times : List DWord) (stuck : Bool) : State :=
  (s.modRng (fun g => { g.zeroise with
    state := .error, lastFail := adaptive, healthFails := satAdd g.healthFails 1, failTimes := times, stuck := stuck })).raise
      0x00B 0x25 0

/-- A failed health test of a generator at work; D9 restarts unless it is the third within a second. -/
theorem State.healthTest_ready {s : State} {adaptive stuck : Bool} {times : List DWord} (ready : s.pk.rng.state = .ready)
    (plain : s.pk.rng.rawMode = false) (last : (s.po.tm :: s.pk.rng.failTimes).take 3 = times)
    (third : (decide (times.length = 3) && decide (s.po.tm.toNat < (times.getD 2 s.po.tm).toNat + 1000000000)) = stuck) :
    s.healthTest adaptive =
      if stuck then s.testFailed adaptive times stuck else (s.testFailed adaptive times stuck).domWants 9 .restart := by
  have enter : s.pk.rng.zeroise.enter .error = { s.pk.rng.zeroise with state := .error } := if_neg (by
    show ¬s.pk.rng.rawMode = true
    rw [plain]
    exact Bool.false_ne_true)
  have fails : s.healthFail adaptive = s.testFailed adaptive times stuck := by
    unfold State.healthFail State.testFailed State.modRng
    simp only [enter, last, third]
  unfold State.healthTest
  split
  case h_1 h => rw [ready] at h; cases h
  case h_2 h => rw [ready] at h; cases h
  case h_3 h => rw [ready] at h; cases h
  case h_4 => rw [fails]; rfl

theorem State.impression_marks {s u : State} {unit t : Nat} {d : LinkData} {l : Link} {plan : State → Link → Plan}
    {sup : Link → List Byte} (busy : (s.unit unit).busy = some t) (found : s.link? t d (fun o => (planOf o).isSome) = some l)
    (meaning : planOf l.op = some (plan, sup)) (own : l.unit = unit) (low : 0x140 ≤ unit) (high : unit ≤ 0x147)
    (marked : s.markLink l (plan s l) (sup l) 0 = (true, u)) :
    s.impression unit d = (u.drawAhead l (plan s l)).holdImpression (unitKind unit) t := by
  unfold State.impression
  simp only [busy, found, meaning, own, low, high, and_self, if_true, marked]

end Sys2Proof.Machine

namespace Sys2Proof
open Machine

/-- Settles O36: PK_RNG_CTRL by the bits that it sets, the generator's events by its state. -/
theorem randomGenerator : Obligations.RandomGenerator := by
  unfold Obligations.RandomGenerator
  intro s q unit adaptive d g ms lg set times fine
  refine ⟨fun out => .of_rngCtrl rfl (State.rngCtrl_outside out) rfl, fun fits same => ⟨fun no24 no25 => ?plain,
      fun no25 => ?reseed, fun no24 error served => ?restart⟩, fun fits life no24 no25 => ⟨fun off on => ?raw, fun on off notReady notStartup => ?back⟩,
    fun whole raw => ?read, fun ready => exec_next rfl (if_pos ready), fun ready due pool => exec_next rfl ?done,
    fun ready plain => ?failed, fun t l plan sup u busy found meaning own low high marked =>
      exec_next rfl (State.impression_marks busy found meaning own low high marked)⟩
  case plain =>
    refine .of_rngCtrl rfl ?_ rfl
    rw [State.rngCtrl_inside fits]
    simp only [show bit q.wdata 28 = s.pk.rng.rawMode from same, no24, no25, if_true, Bool.false_eq_true, if_false]
    rfl
  case reseed =>
    refine .of_rngCommand rfl (by decide) (fun x set24 apart => ?_) rfl
    have same' := (bit_of_fld (apart 28 1 (by decide))).trans same
    have no25' := (bit_of_fld (apart 25 1 (by decide))).trans no25
    rw [State.rngCtrl_inside (rngFits_congr (apart 0 10 (by decide)) (apart 16 5 (by decide)) ▸ fits),
      State.rngSet_congr (apart 0 10 (by decide)) (apart 16 5 (by decide))]
    simp only [show bit x 28 = s.pk.rng.rawMode from same', set24, no25', if_true, Bool.false_eq_true, if_false]
    rfl
  case restart =>
    refine .of_rngCommand rfl (by decide) (fun x set25 apart => ?_) (State.latches_domWants _ _ _)
    have same' := (bit_of_fld (apart 28 1 (by decide))).trans same
    have no24' := (bit_of_fld (apart 24 1 (by decide))).trans no24
    rw [State.rngCtrl_inside (rngFits_congr (apart 0 10 (by decide)) (apart 16 5 (by decide)) ▸ fits),
      State.rngSet_congr (apart 0 10 (by decide)) (apart 16 5 (by decide))]
    simp only [show bit x 28 = s.pk.rng.rawMode from same', no24', set25, if_true, Bool.false_eq_true, if_false]
    exact if_pos ⟨error, served⟩
  case raw =>
    refine .of_rngCtrl rfl ?_ rfl
    have changes : ¬true = s.pk.rng.rawMode := by rw [show s.pk.rng.rawMode = false from off]; decide
    rw [State.rngCtrl_inside fits]
    simp only [on, no24, no25, if_neg changes, Bool.false_eq_true, if_false]
    have life' : (s.rngSet q.wdata).testLife = true := life
    unfold State.rawMode
    rw [if_neg (by rw [life']; decide), if_pos rfl]
    rfl
  case back =>
    refine .of_rngCtrl rfl ?_ rfl
    have changes : ¬false = s.pk.rng.rawMode := by rw [show s.pk.rng.rawMode = true from on]; decide
    rw [State.rngCtrl_inside fits]
    simp only [off, no24, no25, if_neg changes, Bool.false_eq_true, if_false]
    have life' : (s.rngSet q.wdata).testLife = true := life
    unfold State.rawMode
    rw [if_neg (by rw [life']; decide), if_neg Bool.false_ne_true]
    exact if_neg (not_or.mpr ⟨notReady, notStartup⟩)
  case read =>
    have both : beLo q.be = true ∧ beHi q.be = true := by rw [whole]; decide
    refine .of_word rfl (by decide) (if_pos raw) ?_
    rw [both.1, both.2]
    exact if_pos ⟨rfl, rfl, rfl, raw⟩
  case done =>
    have may : (s.pk.rng.reseeding && decide (s.pk.rng.state = .ready) && decide (512 ≤ s.pk.rng.pool)) = true := by
      rw [show s.pk.rng.reseeding = true from due, decide_eq_true ready, decide_eq_true pool]
      rfl
    exact if_pos may
  case failed =>
    refine ⟨fun few => exec_next rfl ?few, fun first third within => exec_next rfl ?third⟩
    case few =>
      have spare : (decide (times.length = 3) && decide (s.po.tm.toNat < (times.getD 2 s.po.tm).toNat + 1000000000)) = false := by
        rw [decide_eq_false (Nat.ne_of_lt few), Bool.false_and]
      exact (State.healthTest_ready ready plain rfl spare).trans (if_neg Bool.false_ne_true)
    case third =>
      obtain ⟨three, -⟩ := List.getElem?_eq_some_iff.mp third
      have all : times.length = 3 := Nat.le_antisymm (List.length_take_le 3 _) three
      have stuck : (decide (times.length = 3) && decide (s.po.tm.toNat < (times.getD 2 s.po.tm).toNat + 1000000000)) = true := by
        rw [decide_eq_true all, List.getD_eq_getElem?_getD, third, Option.getD_some, decide_eq_true within]
        rfl
      exact (State.healthTest_ready ready plain rfl stuck).trans (if_pos rfl)

end Sys2Proof
end

section
/-! SUPPORT. Resets and main power (15_power_startup.md R385–R395): the register command, the pins, and the loss of main power. -/

namespace Sys2Proof.Machine

/-- PW_RESET resets the block, by the port but not by the debug master (R355, R391). -/
theorem regWrite_blockReset {s : State} {r : WReq} (lo : r.lo = true) (set : bit r.x 0 = true) (init : r.init ≠ debugId) :
    regWrite s 0x100018 r = s.blockReset := by
  show (if r.init = debugId ∧ 0x18 = 0x18 then s else pwWrite s 0x18 r) = _
  rw [if_neg (fun h => init h.1)]
  unfold pwWrite
  rw [if_neg (by simp [lo]), if_pos rfl, if_pos set]

section
variable {s : State} (main : s.d0.onCell = false)
include main

theorem State.blkInput_turns {level : Bool} (turns : s.pw.blkAsserted ≠ level) :
    s.blkInput level = ((s.modPw (fun p => { p with blkAsserted := level })).afterReset).stepOne :=
  if_neg (by simp [main, turns])

theorem State.porAssert_main : s.porAssert = (s.modPw (fun p => { p with porAsserted := true })).afterReset :=
  if_neg (by simp [main])

/-- The block as `rst_por_i` leaves it: reset, with the identity as it now stands (R385, R419). -/
def State.porState (s : State) (ids : Identity) : State :=
  let t := (s.modPw (fun p => { p with porAsserted := false, refOk := true, holdover := false })).afterReset
  { t with po := { t.po with ident := ids } }

theorem State.porDeassert_main (ids : Identity) : s.porDeassert ids = (s.porState ids).stepOne := if_neg (by simp [main])

/-- The block without main power: D0 runs on (R394). -/
def State.unpowered (s : State) : State :=
  let r := s.afterReset
  { r with
    d0 := { s.d0 with onCell := true, lossTime := s.po.tm }, fc := {}, fx := {}, ts := { cell := s.ts.cell },
    pw := { porAsserted := true }, po := { r.po with ident := ({} : Ports).ident, tapIr := ({} : Ports).tapIr, tapDr := 0 } }

theorem State.powerLoss_main : s.powerLoss = if s.ts.cell = .critical then s.unpowered.preempt else s.unpowered :=
  if_neg (by simp [main])

end

/-- While D0 runs on its cell a preemptive burnish erases the tamper secret and leaves its record, in D0 alone (R369). -/
theorem State.preempt_onCell {s : State} (cell : s.d0.onCell = true) :
    ∃ d : D0, s.preempt = { s with d0 := d } ∧ d.tamperSecret = 0 ∧ d.burnished = true ∧ d.onCell = true ∧
      d.lossTime = s.d0.lossTime := by
  have burnt : s.respond 0 = s.modD0 (fun d => { d with tamperSecret := 0, burnished := true }) := by
    unfold State.respond
    rw [if_pos cell, if_pos rfl]
  unfold State.preempt
  rw [burnt]
  unfold State.tamperRecord
  dsimp only
  split
  · exact ⟨_, rfl, rfl, rfl, cell, rfl⟩
  · exact ⟨_, rfl, rfl, rfl, cell, rfl⟩

end Sys2Proof.Machine

namespace Sys2Proof
open Machine

/-- Settles O46: each reset as the state that it leaves, read field by field. -/
theorem resets : Obligations.Resets := by
  unfold Obligations.Resets
  intro s q ids level t
  refine ⟨fun acc => ?byRegister, fun main => ⟨fun turns => exec_next rfl (State.blkInput_turns main turns),
      exec_next rfl (State.porAssert_main main), ⟨s.porState ids, exec_next rfl (State.porDeassert_main main ids), rfl, rfl, rfl, rfl⟩,
      fun phase unknown valid released => exec_next rfl (if_pos ⟨phase, unknown, valid, main, released⟩), ?loss⟩,
    fun cell => exec_next rfl (if_pos cell), rfl, rfl, rfl, rfl, rfl, rfl, rfl, rfl, rfl, rfl, rfl, rfl, rfl, rfl, rfl, rfl⟩
  case byRegister =>
    have low : LowWord s 0x100018 (q.lower.force 0 1 1) := acc.forced
    have set := (low.bit 0 (by decide)).trans (bit_force _ (by decide) (by decide))
    exact exec_next rfl (State.portWrite_down acc (regWrite_blockReset low.lo set acc.notDebug) s.rpUp_blockReset)
  case loss =>
    by_cases critical : s.ts.cell = .critical
    · obtain ⟨d, preempts, secret, burnished, cell, time⟩ := State.preempt_onCell (s := s.unpowered) rfl
      refine ⟨_, exec_next rfl ((State.powerLoss_main main).trans ((if_pos critical).trans preempts)), rfl, rfl, rfl,
        fun other => absurd critical other, fun _ => ⟨secret, burnished, cell, time⟩⟩
    · exact ⟨_, exec_next rfl ((State.powerLoss_main main).trans (if_neg critical)), rfl, rfl, rfl, fun _ => rfl,
        fun other => absurd other critical⟩

end Sys2Proof
end

section
/-! SUPPORT. READY, the reference and the time (15_power_startup.md R383, R388; 16_ports.md R418; 08_public_key.md R217, R219). -/

namespace Sys2Proof.Machine

section
variable {s : State} {uk : BitVec 256} (atUnseal : s.pw.phase = .unseal)
include atUnseal

theorem State.startupReady_kept (cell : s.pw.backupLost = false) (whole : s.d0.burnished = false) :
    s.startupReady uk = (s.derived uk).ready := by
  unfold State.startupReady
  rw [if_neg (by simp [atUnseal]), if_neg (by simp [cell, whole])]

/-- After BACKUP_LOST or a burnish what becomes of the draw of a new tamper secret decides (log 143). -/
theorem State.startupReady_lost (lost : s.pw.backupLost = true ∨ s.d0.burnished = true) :
    (∀ b u, s.request 32 = (.got b, u) → s.startupReady uk = ((u.freshVault b).derived uk).ready) ∧
    (∀ u, s.request 32 = (.wait, u) ∨ s.request 32 = (.fail, u) → s.startupReady uk = s) := by
  unfold State.startupReady
  rw [if_neg (by simp [atUnseal]), if_pos (by simpa using lost)]
  refine ⟨fun b u got => ?_, fun u none => ?_⟩
  · rw [got]
  · rcases none with none | none <;> rw [none]

end

/-! The time -/

theorem State.traceOut_bu (s : State) (n : Nat) : (s.traceOut n).bu = s.bu := by
  simp [State.traceOut, apply_ite State.bu]

theorem State.timeTo_bu (s : State) (tm : DWord) : (s.timeTo tm).bu = s.bu := State.traceOut_bu _ _

theorem State.rolledBack_of {s : State} (h : s.bu.state ≠ .rollback) : s.rolledBack = s := if_neg (fun r => h r.1)

section
variable {v : State}

theorem State.rngReserve_short (short : v.pk.rng.state = .ready → v.pk.rng.pool < 768) : v.rngReserve = v :=
  if_neg (fun h => by have := short h.1; omega)

theorem State.rngStart_short (short : v.pk.rng.state = .startup → v.pk.rng.pool < 768) : v.rngStart = v :=
  if_neg (fun h => by have := short h.1; omega)

/-- A generator at work fills an empty reserve seed from its pool (R219). -/
theorem State.rngReserve_fills (ready : v.pk.rng.state = .ready) (empty : v.pk.rng.reserve = []) (idle : v.pk.rng.reseeding = false)
    (full : 768 ≤ v.pk.rng.pool) :
    v.rngReserve = { v with freeCount := v.freeCount + 96 }.modRng (fun g => { g with
      reserve := (List.range 96).map (fun i => Config.entropyByte (v.freeCount + i)), pool := g.pool - 768 }) :=
  if_pos ⟨ready, by rw [empty]; rfl, idle, full⟩

end

end Sys2Proof.Machine

namespace Sys2Proof
open Machine

/-- Settles O47: start-up by what is in D0, the time by what the generator's pool holds. -/
theorem readyAndTime : Obligations.ReadyAndTime := by
  unfold Obligations.ReadyAndTime
  intro s uk tm
  refine ⟨fun atUnseal cell whole => exec_next rfl (State.startupReady_kept atUnseal cell whole), fun atUnseal lost => ?lost,
    fun ok => exec_next rfl (if_pos ok), fun gone => exec_next rfl (if_neg (by simp [gone])), rfl, ?time⟩
  case lost =>
    obtain ⟨got, none⟩ := State.startupReady_lost (uk := uk) atUnseal lost
    exact ⟨fun b u h => exec_next rfl (got b u h), fun u h => exec_next rfl (none u h)⟩
  case time =>
    intro v run
    have bu : v.bu.state ≠ .rollback := by rw [show v.bu = s.bu from s.timeTo_bu tm]; exact run
    have update : exec (.timeUpdate tm) s = .next v.rngStart.rngReserve.rolledBack := rfl
    refine ⟨fun short => exec_next update ?short, fun startup full => exec_next update ?instantiates,
      fun ready empty idle full => exec_next update ?reserve⟩
    case short => rw [State.rngStart_short (fun h => short (Or.inl h)), State.rngReserve_short (fun h => short (Or.inr h)),
      State.rolledBack_of bu]
    case instantiates => rw [show v.rngStart = _ from if_pos ⟨startup, full⟩]
    case reserve =>
      rw [State.rngStart_short (fun h => by rw [ready] at h; cases h), State.rngReserve_fills ready empty idle full]
      exact State.rolledBack_of bu

end Sys2Proof
end

section
/-! SUPPORT. Tamper responses (14_protection.md R361–R371): the TS_ registers, the monitor test, and what an erase leaves. -/

namespace Sys2Proof.Machine

/-! The TS_ registers -/

section
variable {s : State} {r : WReq} (init : r.init ≠ debugId)
include init

/-- TS_CTRL with one of its erases asked for (R371). -/
theorem tsWrite_burnish (lo : r.lo = true) (one : bit r.x 0 = true) (other : bit r.x 1 = false) :
    tsWrite s 0 r = s.softErase 0 0x11 := by
  unfold tsWrite
  rw [if_neg init, if_pos rfl, lo, one, other]
  rfl

theorem tsWrite_session (lo : r.lo = true) (one : bit r.x 0 = false) (other : bit r.x 1 = true) :
    tsWrite s 0 r = s.softErase 1 0x12 := by
  unfold tsWrite
  rw [if_neg init, if_pos rfl, lo, one, other]
  rfl

theorem tsWrite_test (lo : r.lo = true) (go : bit r.x 14 = true) :
    tsWrite s 0x10 r =
      ({ s with ts := { s.ts with testLine := fld r.x 0 4, testWindow := fld r.x 4 10 } } : State).testGo
        (fld r.x 0 4).toNat (fld r.x 4 10).toNat := by
  unfold tsWrite State.tsTest
  rw [if_neg init, if_neg (by decide), if_pos rfl, if_pos lo, lo, go]
  rfl

theorem tsWrite_clear (lo : r.lo = true) (clear : bit r.x 16 = true) :
    tsWrite s 0x200 r = { s with d0 := { s.d0 with records := [], recLost := 0 } } := by
  unfold tsWrite
  rw [if_neg init, if_neg (by decide), if_neg (by decide), if_neg (by decide), if_pos rfl, lo, clear]
  rfl

/-- A line's configuration stands in the half of its word that its number's parity tells (R362). -/
theorem tsWrite_lineEven {n : Nat} (hn : n < 16) (even : n % 2 = 0) (lo : r.lo = true) (hi : r.hi = false) :
    tsWrite s (0x100 + n / 2 * 8) r = s.lineWrite n (loHalf r.x) := by
  unfold tsWrite
  rw [if_neg init, if_neg (by omega), if_neg (by omega), if_pos (by omega)]
  dsimp only
  rw [if_pos lo, hi, if_neg Bool.false_ne_true, show (0x100 + n / 2 * 8 - 0x100) / 4 = n by omega]

theorem tsWrite_lineOdd {n : Nat} (hn : n < 16) (odd : n % 2 ≠ 0) (lo : r.lo = false) (hi : r.hi = true) :
    tsWrite s (0x100 + n / 2 * 8) r = s.lineWrite n (hiHalf r.x) := by
  unfold tsWrite
  rw [if_neg init, if_neg (by omega), if_neg (by omega), if_pos (by omega)]
  dsimp only
  rw [lo, if_neg Bool.false_ne_true, if_pos hi, show (0x100 + n / 2 * 8 - 0x100) / 4 + 1 = n by omega]

end

theorem regWrite_line {s : State} {n : Nat} {r : WReq} (hn : n < 16) :
    regWrite s (0xF8100 + n / 2 * 8) r = tsWrite s (0x100 + n / 2 * 8) r := by
  rcases (by omega : n / 2 = 0 ∨ n / 2 = 1 ∨ n / 2 = 2 ∨ n / 2 = 3 ∨ n / 2 = 4 ∨ n / 2 = 5 ∨ n / 2 = 6 ∨ n / 2 = 7) with
    h | h | h | h | h | h | h | h <;> rw [h] <;> rfl

/-- The page writes a line's half of a request for it. -/
theorem State.Accepts.line {s : State} {n : Nat} {q : PortReq} (hn : n < 16) (h : s.Accepts (0xF8100 + n / 2 * 8) (q.half n)) :
    regWrite s (0xF8100 + n / 2 * 8) (s.wreq (0xF8100 + n / 2 * 8) (q.half n)) =
      s.lineWrite n (if n % 2 = 0 then loHalf q.wdata else hiHalf q.wdata) := by
  rw [regWrite_line hn]
  by_cases even : n % 2 = 0
  · rw [show q.half n = q.lower from if_pos even] at h ⊢
    have low := h.lower
    rw [tsWrite_lineEven h.notDebug hn even low.lo low.hi, show loHalf _ = loHalf q.lower.wdata from low.fld 0 32 (by decide),
      PortReq.lower_wdata, if_pos even]
  · rw [show q.half n = q.upper from if_neg even] at h ⊢
    obtain ⟨lo, hi, word⟩ := State.wreq_upper (s := s) (off := 0xF8100 + n / 2 * 8) (q := q.upper) (PortReq.upper_be h.covers)
    rw [tsWrite_lineOdd h.notDebug hn even lo hi, word, PortReq.upper_wdata, if_neg even]

/-! Monitor tests -/

/-- The line's last test began less than 100 ms ago (R366). -/
def State.testRecent (s : State) (line : Nat) : Bool :=
  match s.ts.lastTest.get none line with
  | some t => decide (s.po.tm.toNat < t.toNat + 100000000)
  | none => false

section
variable {s : State} {line window : Nat}

theorem State.testGo_refused (h : (s.ts.testBusy || s.testRecent line || decide (window = 0) || s.d0.onCell) = true) :
    s.testGo line window = { s with ts := { s.ts with testResult := 3 } } := if_pos h

theorem State.testGo_runs (h : (s.ts.testBusy || s.testRecent line || decide (window = 0) || s.d0.onCell) = false) :
    s.testGo line window = { s with ts := { s.ts with
      testBusy := true, testResult := 0, stim := 1#16 <<< line, supp := 1#16 <<< line,
      lastTest := s.ts.lastTest.set none line (some s.po.tm) } } := if_neg (fun t => Bool.noConfusion (h.symm.trans t))

end

/-- The line under test is the one whose alarms are suppressed. -/
theorem find_suppressed (line : BitVec 4) :
    (List.range 16).find? (fun i => (1#16 <<< line.toNat).getLsbD i) = some line.toNat := by
  revert line
  decide

section
variable {s : State} {line : BitVec 4} (busy : s.ts.testBusy = true) (supp : s.ts.supp = 1#16 <<< line.toNat)
include busy supp

theorem State.testEnd_seen :
    s.testEnd true false = { s with ts := { s.ts with
      testBusy := false, testResult := 1, stim := 0, supp := 0, levels := s.ts.levels &&& ~~~(1#16 <<< line.toNat) } } := by
  unfold State.testEnd
  rw [if_pos busy, supp, find_suppressed]
  rfl

theorem State.testEnd_unseen :
    s.testEnd false false = ({ s with ts := { s.ts with
      testBusy := false, testResult := 2, stim := 0, supp := 0, levels := s.ts.levels &&& ~~~(1#16 <<< line.toNat) } } :
      State).raise 0x001 0x38 (BitVec.ofNat 44 (line.toNat + 48)) := by
  unfold State.testEnd
  rw [if_pos busy, supp, find_suppressed]
  rfl

end

end Sys2Proof.Machine

namespace Sys2Proof
open Machine

/-- Settles O48: the alarms by the list of armed rises, each register by what its half of the request says. -/
theorem tamperResponses : Obligations.TamperResponses := by
  unfold Obligations.TamperResponses
  refine ⟨?alarms, ?lines⟩
  case alarms =>
    intro s levels q cell rises armed u
    refine ⟨fun none => exec_next rfl (if_pos (List.isEmpty_iff.mpr none)),
      fun some => exec_next rfl (if_neg (fun e => some (List.isEmpty_iff.mp e))),
      fun on other => exec_next rfl (if_pos (by simp [on, other])), fun other => exec_next rfl (if_neg (fun h => other h.1)),
      fun on => exec_next rfl (if_pos on), fun off => ?burnish, fun off => ?session, ?clear, rfl, rfl, rfl, rfl, rfl⟩
    case burnish =>
      refine .of_forced rfl (by decide) (fun low init => ?_) (by simp)
      exact tsWrite_burnish init low.lo ((low.bit 0 (by decide)).trans (bit_force _ (by decide) (by decide)))
        ((low.bit 1 (by decide)).trans ((bit_force_apart _ (by decide) (by decide)).trans (by rw [PortReq.lower_wdata, off])))
    case session =>
      refine .of_forced rfl (by decide) (fun low init => ?_) (by simp)
      exact tsWrite_session init low.lo
        ((low.bit 0 (by decide)).trans ((bit_force_apart _ (by decide) (by decide)).trans (by rw [PortReq.lower_wdata, off])))
        ((low.bit 1 (by decide)).trans (bit_force _ (by decide) (by decide)))
    case clear =>
      refine .of_forced rfl (by decide) (fun low init => ?_) rfl
      exact tsWrite_clear init low.lo ((low.bit 16 (by decide)).trans (bit_force _ (by decide) (by decide)))
  case lines =>
    intro s line q n v off go l u busy
    have line_does : ∀ w, s.lineWrite n v = w → PortDoes s (.lineCfgWrite line q) off (q.half n) w := by
      rintro w rfl
      exact .of_page rfl (by have := line.isLt; omega) (fun acc => acc.line line.isLt)
        (fun acc => (State.up_of_latches (s.latches_lineWrite n v)).trans acc.up)
    have test_does : ∀ w : State, w.latches = s.latches → u.testGo l (fld q.wdata 4 10).toNat = w →
        PortDoes s (.monitorTest q) 0xF8010 go w := by
      rintro w same rfl
      refine .of_forced rfl (by decide) (fun low init => ?_) same
      have f0 := (low.fld 0 4 (by decide)).trans (fld_force_apart _ (by decide) (by decide))
      have f4 := (low.fld 4 10 (by decide)).trans (fld_force_apart _ (by decide) (by decide))
      rw [PortReq.lower_wdata] at f0 f4
      have does := tsWrite_test (s := s) init low.lo ((low.bit 14 (by decide)).trans (bit_force _ (by decide) (by decide)))
      rw [f0, f4] at does
      exact does
    have busy_eq : (u.ts.testBusy || u.testRecent l || decide ((fld q.wdata 4 10).toNat = 0) || u.d0.onCell) = busy := by
      rw [show decide ((fld q.wdata 4 10).toNat = 0) = decide (fld q.wdata 4 10 = 0) from
        decide_eq_decide.mpr (by simp [← BitVec.toNat_inj])]
      rfl
    refine ⟨fun locked => line_does _ (if_pos (.inl locked)),
      fun open_ good => line_does _ (if_neg (fun h => h.elim (fun l => by rw [open_] at l; cases l) good)),
      fun idle => test_does _ rfl (State.testGo_runs (busy_eq.trans idle)),
      fun at_work => test_does _ rfl (State.testGo_refused (busy_eq.trans at_work)),
      fun at_work supp => exec_next rfl (State.testEnd_seen at_work supp),
      fun at_work supp => exec_next rfl (State.testEnd_unseen at_work supp)⟩

end Sys2Proof
end

section
/-! SUPPORT. Proofing cycles and power domains (13_faults_repair.md R337, R338, R346; 15_power_startup.md R377–R384). -/

namespace Sys2Proof.Machine

/-! Proofing -/

section
variable {s : State} {u : Nat} (pool : (poolOf u).isSome = true)
include pool

/-- A unit at work that has not passed its 50 cycles since it took over a link (R346). -/
theorem State.proofCycle_bulk (role : (s.unit u).role = .working) (need : (s.unit u).need = 50) (runs : s.fc.halted = false)
    (clean : Bool) : s.proofCycle u clean = s.drainCycle u clean := by
  have fifty : s.unproofed u = true := by simp [State.unproofed, role, need, Role.inService]
  unfold State.proofCycle
  rw [if_neg (by simp [Option.isNone_iff_eq_none, ← Option.isSome_iff_ne_none, pool]), if_neg (by simp [role]), if_pos (by simp [fifty, runs])]

section
variable (role : (s.unit u).role = .proofing) (runs : s.fc.halted = false) (routines : (s.unit u).need = 1000 → s.bu.state = .run)
include role runs routines

/-- A cycle of a unit in proofing that does not fail (R337). -/
theorem State.proofCycle_clean :
    s.proofCycle u true =
      if (s.unit u).clean + 1 < (s.unit u).need then s.setUnit u { s.unit u with clean := (s.unit u).clean + 1 }
      else if s.pw.phase ≠ .ready then s.startJoin u
      else if (s.unit u).gatedSpare && decide ((s.unit u).need = 10 ∧ s.pf.current = 2) then
        (unitDomain u).elim (s.setUnit u { s.unit u with role := .gated, clean := 0 })
          (fun d => (s.setUnit u { s.unit u with role := .gated, clean := 0 }).domOff d .gated .gate)
      else (s.joinUnit u (decide ((s.unit u).need = 1000))).settleHeld := by
  have new : s.unproofed u = false := by simp [State.unproofed, role, Role.inService]
  unfold State.proofCycle
  rw [if_neg (by simp [Option.isNone_iff_eq_none, ← Option.isSome_iff_ne_none, pool]), if_neg (by simp [role]), if_neg (by simp [new]),
    if_neg (by simp only [role, runs]; simpa using fun _ => routines), if_neg (by decide)]
  simp only [decide_eq_true_eq]
  cases unitDomain u <;> rfl

/-- A cycle that fails, once the block is READY (R337, R338). -/
theorem State.proofCycle_fails (ready : s.pw.phase = .ready) :
    s.proofCycle u false =
      if (s.unit u).gatedSpare then (s.setUnit u { s.unit u with role := .spare, gatedSpare := false }).spareFails u
      else (s.retireUnit u).settleHeld := by
  have new : s.unproofed u = false := by simp [State.unproofed, role, Role.inService]
  unfold State.proofCycle
  rw [if_neg (by simp [Option.isNone_iff_eq_none, ← Option.isSome_iff_ne_none, pool]), if_neg (by simp [role]), if_neg (by simp [new]),
    if_neg (by simp only [role, runs]; simpa using fun _ => routines), if_pos (by decide), if_neg (by simp [ready])]
  rfl

end
end

theorem State.drainCycle_counts {s : State} {u : Nat} (more : (s.unit u).clean + 1 < 50) :
    s.drainCycle u true = s.setUnit u { s.unit u with clean := (s.unit u).clean + 1 } := congrArg (s.setUnit u) (if_pos more)

theorem State.drainCycle_last {s : State} {u : Nat} (last : 50 ≤ (s.unit u).clean + 1) :
    s.drainCycle u true = s.setUnit u { s.unit u with clean := 0, need := 1000 } :=
  congrArg (s.setUnit u) (if_neg (Nat.not_lt.mpr last))

/-! Domains -/

section
variable {s : State} {d : Nat}

/-- The acknowledgement of a ramp's request (R377). -/
theorem State.pwrAck_ramp (low : 2 ≤ d) (high : d < 52) (ack : (s.dom d).ack = false) (req : (s.dom d).req = true)
    (ramp : (s.dom d).state = .ramp) :
    s.pwrAck d true = ((s.setDom d { s.dom d with
      ack := true, ret := (s.dom d).ret || retains d, state := .restore, late := false }).pump).settleHeld := by
  unfold State.pwrAck
  rw [if_neg (by simp [ack, req]; omega)]
  simp [ramp]

/-- A domain that comes back without an order to do anything more (R378). -/
theorem State.domainDone_none (restore : (s.dom d).state = .restore) (why : (s.dom d).why = .none) :
    s.domainDone d true = ((s.setDom d { s.dom d with state := .on }).pump).settleHeld := by
  unfold State.domainDone
  rw [if_neg (fun h => h restore)]
  simp [why]

/-- A domain that a restart brings back (R378, R379). -/
theorem State.domainDone_restart (restore : (s.dom d).state = .restore) (why : (s.dom d).why = .restart)
    (pool : singleUnit d = none) :
    s.domainDone d true = (((s.setDom d { s.dom d with
      state := .on, why := .none, restarts := satAdd (s.dom d).restarts 1 }).laneUp d .restart).pump).settleHeld := by
  unfold State.domainDone
  rw [if_neg (fun h => h restore)]
  simp [why, pool]

/-- A domain of a pool unit that is given up after 1 ms without its acknowledgement (R380). -/
theorem State.fail1ms_pool {u : Nat} (waits : (s.dom d).req ≠ (s.dom d).ack) (failed : (s.dom d).state = .failed)
    (in_use : (s.dom d).why ≠ .retired) (up : (s.dom d).why ≠ .startup) (unit : domainUnit d = some u) (pool : isSingle u = false)
    (halts : haltsWhenLost u = false) :
    s.fail1ms d = ((s.retireUnit u).setDom d { s.dom d with why := .retired }).settleHeld := by
  unfold State.fail1ms
  rw [if_neg (by simp [waits, failed, in_use])]
  simp [unit, pool, halts, up]

/-! The order to hold a domain off (R382) -/

theorem State.domCtrl_refused {hold : Bool} (known : s.pw.domSel.toNat < 52) (may : s.mayHold s.pw.domSel.toNat = false) :
    s.domCtrl hold = s.modPw (fun p => { p with domErr := true }) := by
  unfold State.domCtrl
  rw [if_neg (Nat.not_le.mpr known), if_pos (by simp [may])]

theorem State.domCtrl_hold (known : s.pw.domSel.toNat < 52) (may : s.mayHold s.pw.domSel.toNat = true)
    (free : (s.dom s.pw.domSel.toNat).holdOff = false) :
    s.domCtrl true = (s.modPw (fun p => { p with domErr := false })).holdDomain s.pw.domSel.toNat := by
  unfold State.domCtrl
  rw [if_neg (Nat.not_le.mpr known), if_neg (by simp [may])]
  exact (if_neg (fun h : true = (s.dom s.pw.domSel.toNat).holdOff => by rw [free] at h; cases h)).trans (if_pos rfl)

theorem State.domCtrl_release (known : s.pw.domSel.toNat < 52) (may : s.mayHold s.pw.domSel.toNat = true)
    (held : (s.dom s.pw.domSel.toNat).holdOff = true) (in_use : (s.dom s.pw.domSel.toNat).why ≠ .retired) :
    s.domCtrl false = ((s.modPw (fun p => { p with domErr := false })).setDom s.pw.domSel.toNat
      { s.dom s.pw.domSel.toNat with holdOff := false }).domWants s.pw.domSel.toNat .release := by
  unfold State.domCtrl
  rw [if_neg (Nat.not_le.mpr known), if_neg (by simp [may])]
  exact (if_neg (fun h : false = (s.dom s.pw.domSel.toNat).holdOff => by rw [held] at h; cases h)).trans
    ((if_neg Bool.false_ne_true).trans (if_neg in_use))

end

/-- PW_DOM_CTRL orders what its bit 0 says of the selected domain. -/
theorem PortDoes.of_domCtrl {s v : State} {q : PortReq} (does : s.domCtrl (bit q.wdata 0) = v) :
    PortDoes s (.holdOff q) 0x100028 q.lower v := by
  subst does
  refine .of_lower rfl (by decide) (fun low init => ?_) (s.latches_domCtrl _)
  show (if (s.wreq 0x100028 q.lower).init = debugId ∧ 0x28 = 0x18 then s else pwWrite s 0x28 (s.wreq 0x100028 q.lower)) = _
  rw [if_neg (fun h => init h.1)]
  unfold pwWrite
  rw [if_neg (by simp [low.lo]), if_neg (by decide), if_neg (by decide), if_pos rfl, low.bit 0 (by decide), PortReq.lower_wdata]

end Sys2Proof.Machine

namespace Sys2Proof
open Machine

/-- Settles O45: each cycle by the equation of its unit's role, each answer of a domain by its state. -/
theorem domainsAndProofing : Obligations.DomainsAndProofing := by
  unfold Obligations.DomainsAndProofing
  refine ⟨?proofing, ?bulk, ?domains⟩
  case proofing =>
    intro s unit u x pool role runs routines
    have clean := State.proofCycle_clean pool role runs routines
    have fails := State.proofCycle_fails pool role runs routines
    refine ⟨fun more => exec_next rfl (clean.trans (if_pos more)), fun ready enough kept => exec_next rfl ?joins,
      fun d ready ten enough spare lean dom => exec_next rfl ?gates,
      fun ready kept => exec_next rfl ((fails ready).trans (if_neg (by simp [show (s.unit u).gatedSpare = false from kept]))),
      fun ready spare => exec_next rfl ((fails ready).trans (if_pos spare))⟩
    case joins =>
      rw [clean, if_neg (Nat.not_lt.mpr enough), if_neg (fun h => h ready), if_neg (fun h => by simp [show (s.unit u).gatedSpare = false from kept] at h)]
    case gates =>
      have need : (s.unit u).need = 10 := ten
      have last : 10 ≤ (s.unit u).clean + 1 := enough
      have gated : (s.unit u).gatedSpare = true := spare
      rw [clean, if_neg (by omega), if_neg (fun h => h ready), if_pos (by simp [need, gated, lean])]
      exact congrArg (Option.elim · _ _) dom
  case bulk =>
    intro s unit u x pool role need runs
    have cycle := State.proofCycle_bulk pool role need runs
    exact ⟨fun more => exec_next rfl ((cycle _).trans (State.drainCycle_counts more)),
      fun last => exec_next rfl ((cycle _).trans (State.drainCycle_last last)), exec_next rfl (cycle _)⟩
  case domains =>
    intro s dom q d x sel
    exact ⟨fun low high ack req ramp => exec_next rfl (State.pwrAck_ramp low high ack req ramp),
      fun restore why => exec_next rfl (State.domainDone_none restore why),
      fun restore why pool => exec_next rfl (State.domainDone_restart restore why pool),
      fun waits early => exec_next rfl (if_neg (fun h => h.elim waits (fun l => Bool.noConfusion (early.symm.trans l)))),
      fun u waits failed in_use up unit pool halts => exec_next rfl (State.fail1ms_pool waits failed in_use up unit pool halts),
      fun known may => .of_domCtrl (State.domCtrl_refused known may),
      fun known may free set => .of_domCtrl ((congrArg s.domCtrl set).trans (State.domCtrl_hold known may free)),
      fun known may held clear in_use => .of_domCtrl ((congrArg s.domCtrl clear).trans (State.domCtrl_release known may held in_use))⟩

end Sys2Proof
end

section
/-! SUPPORT. The vault outside its opcodes (10_plate_vault.md R245, R254–R256, R269, R270): reads, batches, the sweep, PV_REGION
and PV_BLOB. -/

namespace Sys2Proof.Machine

/-! The sweep (R269, R270) -/

/-- What is read of the counter tree does not depend on what the fabric still owes. -/
theorem State.nodeVal_answered (s : State) (p : Who → Bool) (fuel level idx : Nat) :
    (s.answered p).nodeVal fuel level idx = s.nodeVal fuel level idx := by
  induction fuel generalizing level idx with
  | zero => simp only [State.nodeVal, State.answered_vt]
  | succ fuel ih => simp only [State.nodeVal, State.answered_vt, State.answered_d0, ih]

theorem State.zeroPlace_answered (s : State) (p : Who → Bool) (pos : Nat) : (s.answered p).zeroPlace pos = s.zeroPlace pos := by
  unfold State.zeroPlace
  simp only [State.nodeVal_answered, State.answered_d0]

/-- The sweep's work with a read path: it goes by what the path's check says. -/
def State.sweepPath (s : State) (read : VaultRead) : State :=
  match State.verifyPath s.vt.sweepAt read.nodes false 6 5 (s.touchPath s.vt.sweepAt) with
  | .error place => s.sweepFails s.vt.sweepAt place
  | .ok v =>
    match v.zeroPlace s.vt.sweepAt with
    | some place => v.sweepSkip s.vt.sweepAt place
    | none => v.sweepJoin s.vt.sweepAt read

section
variable {s v : State} {read : VaultRead}

/-- A path that verifies: the record that stands at the position is written anew. -/
theorem State.sweepPath_joins {e : SlotEnt}
    (path : State.verifyPath s.vt.sweepAt read.nodes false 6 5 (s.touchPath s.vt.sweepAt) = .ok v)
    (filled : v.zeroPlace s.vt.sweepAt = none) (held : v.current s.vt.sweepAt = some e) :
    s.sweepPath read = (v.joinBatch s.vt.sweepAt e none).sweepTo (s.vt.sweepAt + 1) := by
  unfold State.sweepPath
  rw [path]
  dsimp only
  rw [filled]
  dsimp only
  unfold State.sweepJoin
  rw [held]

/-- An item that fails authentication stops the sweep while CLEAR is 0. -/
theorem State.sweepPath_stops {n : Nat}
    (path : State.verifyPath s.vt.sweepAt read.nodes false 6 5 (s.touchPath s.vt.sweepAt) = .error n)
    (keeps : s.vt.sweepClear = false) :
    s.sweepPath read = ((s.modVt (fun v => { v with
      fails := satAdd v.fails 1, lastSlot := BitVec.ofNat 19 s.vt.sweepAt, lastLevel := BitVec.ofNat 3 n })).raise 0x004 0x26
        (formS s.vt.sweepAt n)).modVt (fun v => { v with stopped := true }) := by
  unfold State.sweepPath
  rw [path]
  dsimp only
  unfold State.sweepFails
  simp [State.modVt, keeps]

end

section
variable {s : State} (runs : s.fc.halted = false) (open_ : s.stopped 0x004 = false)
include runs open_

/-- The answer of a slot's read, when no batch waits in D0 for recovery. -/
theorem State.missReadReturn_slot {slot : Nat} {read : VaultRead} (asked : s.vt.reading.contains slot = true)
    (live : s.po.txns.any (fun q => decide (q.who = .vaultRead slot)) = true) (other : slot ≠ 0) (none : s.d0.batch = none) :
    s.missReadReturn slot read = (s.answered (fun w => decide (w = .vaultRead slot))).missReturn slot read := by
  unfold State.missReadReturn
  rw [if_pos (by simp only [asked, runs, open_]; decide), if_pos live]
  dsimp only
  rw [if_neg other, State.answered_d0, none]

section
variable {b : Batch} {r : List Batch} (batches : s.vt.batches = b :: r) (issued : b.issued = true)
include batches

omit runs in
/-- The batch that is formed closes. -/
theorem State.batchClose_first (formed : b.closed = false) :
    s.batchClose = (s.modVt (fun v => { v with batches := { b with closed := true } :: r })).pumpBatches := by
  have closes : closeFirst (b :: r) = { b with closed := true } :: r := by
    unfold closeFirst
    rw [if_neg (by simp [formed])]
  unfold State.batchClose
  rw [if_neg (by simp [open_])]
  exact congrArg (fun l => (s.modVt (fun v => { v with batches := l })).pumpBatches) ((congrArg closeFirst batches).trans closes)

include issued

/-- The responses of an issued batch commit it (R255). -/
theorem State.batchCommit_first :
    s.batchCommit = ((s.answered (fun w => decide (w = .vaultWrite ∨ w = .blobWrite))).commitBatch b r).tryOpen := by
  unfold State.batchCommit
  rw [batches]
  exact if_pos (by simp only [issued, runs, open_]; decide)

/-- An issued batch that fails ends its links, and those of the batches that build on it, and recovery starts (R256). -/
theorem State.batchFail_first :
    s.batchFail =
      ((((b :: (buildOn (b.slots.map (·.1)) b.regs.isSome r).1).map (·.waits)).flatten.foldl (fun s t => s.finish t .busError 0 0)
        ((s.answered (fun w => decide (w = .sweep) || decide (w = .vaultWrite ∨ w = .blobWrite))).modVt (fun v => { v with
          batches := (buildOn (b.slots.map (·.1)) b.regs.isSome r).2.map (fun x => { x with sweptTo := none }),
          sweepAt := s.d0.sweepPos.toNat }))).startRecovery).closeStep := by
  unfold State.batchFail
  rw [batches]
  dsimp only
  rw [if_pos (by simp only [issued, runs, open_]; decide)]
  unfold State.failFirst
  rw [issued]
  rfl

end

section
variable (active : s.d0.sweepActive = true) (here : s.vt.state = .vopen) (stays : s.vt.closing = false) (goes : s.vt.stopped = false)
  (clear : s.vt.recoverDue = false) {read : VaultRead}
include active here stays goes clear

theorem State.sweepStep_end (last : 2 ^ 19 ≤ s.vt.sweepAt) (done : s.vt.batches = []) :
    s.sweepStep read =
      (s.answered (fun w => decide (w = .sweep))).modD0 (fun d => { d with sweepActive := false, sweepPos := 0 }) := by
  unfold State.sweepStep
  rw [if_pos (by simp only [active, here, stays, goes, clear, runs, open_]; decide)]
  dsimp only
  rw [if_pos last]
  exact if_pos (List.isEmpty_iff.mpr done)

variable (more : s.vt.sweepAt < 2 ^ 19) (place : s.zeroPlace s.vt.sweepAt = none)
include more place

/-- A failed read is made again (log 91). -/
theorem State.sweepStep_again (failed : read.failed = true) :
    s.sweepStep read = (s.answered (fun w => decide (w = .sweep))).sweepRead := by
  unfold State.sweepStep
  rw [if_pos (by simp only [active, here, stays, goes, clear, runs, open_]; decide)]
  dsimp only
  rw [if_neg (Nat.not_le.mpr more), State.zeroPlace_answered, place]
  exact if_pos (by rw [failed]; rfl)

variable (whole : read.failed = false) (asked : s.sweepReads = true) (room : s.vt.nodeRoom = true)
include whole asked room

theorem State.sweepStep_path : s.sweepStep read = (s.answered (fun w => decide (w = .sweep))).sweepPath read := by
  unfold State.sweepStep
  rw [if_pos (by simp only [active, here, stays, goes, clear, runs, open_]; decide)]
  dsimp only
  rw [if_neg (Nat.not_le.mpr more), State.zeroPlace_answered, place]
  exact if_neg (by rw [whole, asked, show (s.answered _).vt.nodeRoom = true from room]; decide)

end
end

/-! PV_REGION and PV_BLOB -/

section
variable {s : State} {r : WReq} (hi : r.hi = true) (init : r.init ≠ debugId)
include hi init

theorem State.writeRegion_first (lock : s.vt.lock = false) (invalid : s.vt.valid = false) :
    s.writeRegion r =
      if bit r.x 0 then
        (s.modVt (fun v => { v with valid := bit r.x 0, addr := fld r.x 21 36, lock := bit r.x 63 })).tryOpen
      else s.modVt (fun v => { v with valid := bit r.x 0, addr := fld r.x 21 36, lock := bit r.x 63 }) := by
  unfold State.writeRegion
  simp only [WReq.lockHi_of_not_debug hi init]
  rw [if_neg (by simp [lock, invalid]), invalid]
  simp

theorem State.writeBlobReg_first (lock : s.vt.blobLock = false) (invalid : s.vt.blobValid = false) :
    s.writeBlobReg r = s.modVt (fun v => { v with
      blobValid := bit r.x 0, blobAddr := fld r.x 21 36, blobLock := bit r.x 63,
      slots := if bit r.x 0 then v.slots else v.slots.map (fun p => (p.1, { p.2 with body := [] })) }) := by
  unfold State.writeBlobReg
  simp only [WReq.lockHi_of_not_debug hi init]
  exact if_neg (by simp [lock, invalid])

end

theorem State.writeRegion_locked {s : State} {r : WReq} (lock : s.vt.lock = true) : s.writeRegion r = s :=
  if_pos (by rw [lock]; rfl)

/-- A write of a whole register of a page, by what the page makes of the request's word. -/
theorem PortDoes.of_whole {s u : State} {i : Instr} {off : Nat} {q : PortReq} (hi : exec i s = .next (s.portWrite off q))
    (ho : off < 0x400000) (whole : q.be = 0xFF)
    (does : ∀ r : WReq, r.x = q.wdata → r.lo = true → r.hi = true → r.init ≠ debugId → regWrite s off r = u)
    (up : u.latches = s.latches) : PortDoes s i off q u := by
  refine .of_page hi ho (fun acc => ?_) (fun acc => (State.up_of_latches up).trans acc.up)
  rw [State.wreq_whole whole]
  exact does _ rfl rfl rfl acc.notDebug

end Sys2Proof.Machine

namespace Sys2Proof
open Machine

/-- Settles O37: each answer by the equation of the part of the vault that waits for it. -/
theorem vaultEvents : Obligations.VaultEvents := by
  unfold Obligations.VaultEvents
  intro s q slot read runs open_
  refine ⟨fun asked live other none => ?misses, fun b r batches => ⟨fun formed => ?closes, fun issued => ?answers⟩,
    fun active here stays goes clear => ?sweep, fun whole lock invalid => ?region, fun whole lock => ?locked,
    fun whole lock invalid => ?blob⟩
  case misses =>
    exact exec_next rfl (congrArg State.kmResume (State.missReadReturn_slot runs open_ asked live other none))
  case closes => exact exec_next rfl (State.batchClose_first open_ batches formed)
  case answers =>
    intro u g v
    exact ⟨exec_next rfl (congrArg State.kmResume (State.batchCommit_first runs open_ batches issued)),
      exec_next rfl (State.batchFail_first runs open_ batches issued)⟩
  case sweep =>
    intro u at'
    refine ⟨fun last done => exec_next rfl (State.sweepStep_end runs open_ active here stays goes clear last done),
      fun more place failed => exec_next rfl (State.sweepStep_again runs open_ active here stays goes clear more place failed),
      fun more place kept asked room => ?path⟩
    have reads := State.sweepStep_path runs open_ active here stays goes clear more place kept asked room
    exact ⟨fun v e path filled held => exec_next rfl (reads.trans (State.sweepPath_joins path filled held)),
      fun n path keeps => exec_next rfl (reads.trans (State.sweepPath_stops path keeps))⟩
  case region =>
    intro v
    refine .of_whole rfl (by decide) whole (fun r word _ hi init => ?_) ?_
    · show s.writeRegion r = _
      rw [State.writeRegion_first hi init lock invalid, word]
    · split
      · exact v.latches_tryOpen
      · rfl
  case locked => exact .of_whole rfl (by decide) whole (fun r _ _ _ _ => State.writeRegion_locked lock) rfl
  case blob =>
    refine .of_whole rfl (by decide) whole (fun r word _ hi init => ?_) rfl
    show s.writeBlobReg r = _
    rw [State.writeBlobReg_first hi init lock invalid, word]

end Sys2Proof
end

section
/-! SUPPORT. Etching and the boot (11_burin.md R288, R295, R297–R300): the registers of the BU_ page, the image's checks, and the
budget of a routine. -/

namespace Sys2Proof.Machine

/-! BU_ETCH_CTRL -/

section
variable {s : State} {r : WReq} (lo : r.lo = true)
include lo

section
variable (unlocked : bit r.x 2 = false)
include unlocked

/-- A write of BU_ETCH_CTRL that does not lock does what CLEAR and OPEN say. -/
theorem State.etchCtrl_unlocked :
    s.etchCtrl r = if bit r.x 1 then
        if bit r.x 0 then (if s.bu.etch.isOpen ∨ s.bu.etch.waits then s.etchCtrlClear else s.etchCtrlClear.etchOpen)
        else (if s.bu.etch.isOpen then s.etchClose else s).etchCtrlClear
      else if bit r.x 0 then s.etchOpen else s.etchClose := by
  unfold State.etchCtrl
  rw [if_neg (by simp [lo])]
  dsimp only
  rw [show r.lockLo 2 = false by simp [WReq.lockLo, unlocked]]
  cases bit r.x 1 <;> cases bit r.x 0 <;> rfl

theorem State.etchCtrl_open (clear : bit r.x 1 = false) (set : bit r.x 0 = true) : s.etchCtrl r = s.etchOpen := by
  rw [State.etchCtrl_unlocked lo unlocked, clear, set]
  rfl

theorem State.etchCtrl_close (clear : bit r.x 1 = false) (set : bit r.x 0 = false) : s.etchCtrl r = s.etchClose := by
  rw [State.etchCtrl_unlocked lo unlocked, clear, set]
  rfl

/-- CLEAR acts before OPEN (log 102). -/
theorem State.etchCtrl_clear (clear : bit r.x 1 = true) (shut : s.bu.etch.isOpen = false) (idle : s.bu.etch.waits = false) :
    s.etchCtrl r = if bit r.x 0 then s.etchCtrlClear.etchOpen else s.etchCtrlClear := by
  have ready : ¬ (s.bu.etch.isOpen = true ∨ s.bu.etch.waits = true) := by simp [shut, idle]
  have closed : ¬ s.bu.etch.isOpen = true := by simp [shut]
  rw [State.etchCtrl_unlocked lo unlocked, if_pos clear, if_neg ready, if_neg closed]

end

/-- LOCK takes hold after the close that goes with it. -/
theorem State.etchCtrl_lock (init : r.init ≠ debugId) (lock : bit r.x 2 = true) (clear : bit r.x 1 = false)
    (set : bit r.x 0 = false) : s.etchCtrl r = s.etchClose.modEtch (fun e => { e with lock := true }) := by
  unfold State.etchCtrl
  rw [if_neg (by simp [lo])]
  dsimp only
  rw [show r.lockLo 2 = true by simp [WReq.lockLo, lo, lock, init], clear, set]
  rfl

end

section
variable {s : State}

section
variable (life : s.ts.lcs = 1)
include life

theorem State.etchOpen_locked (lock : s.bu.etch.lock = true) : s.etchOpen = s.etchErr 2 :=
  (if_neg (fun h => h life)).trans (if_pos lock)

theorem State.etchOpen_opens (lock : s.bu.etch.lock = false) (shut : s.bu.etch.isOpen = false) (idle : s.bu.etch.waits = false) :
    s.etchOpen = if s.etchedRuns then s.modEtch (fun e => { e with waits := true, err := 0 })
      else s.modEtch (fun e => { e with isOpen := true, err := 0 }) := by
  unfold State.etchOpen
  rw [if_neg (fun h => h life), if_neg (by simp [lock]), if_neg (by simp [shut, idle])]

end

theorem State.etchClose_open (idle : s.bu.etch.waits = false) (shown : s.bu.etch.isOpen = true) :
    s.etchClose = (s.modBu (fun b => if s.bu.etch.valid then b.measured else b.etchClear)).modEtch
      (fun e => { e with isOpen := false, err := if s.bu.etch.valid then 0 else 3 }) := by
  unfold State.etchClose
  rw [if_neg (by simp [idle]), if_neg (by simp [shown])]

theorem State.etchClose_shut (idle : s.bu.etch.waits = false) (shut : s.bu.etch.isOpen = false) : s.etchClose = s.etchErr 0 := by
  unfold State.etchClose
  rw [if_neg (by simp [idle]), if_pos (by simp [shut])]

theorem State.etchCtrlClear_shut (lock : s.bu.etch.lock = false) (shut : s.bu.etch.isOpen = false)
    (idle : s.bu.etch.waits = false) : s.etchCtrlClear = (s.modBu Burin.etchClear).etchErr 0 := by
  unfold State.etchCtrlClear
  rw [if_neg (by simp [lock]), if_neg (by simp [shut, idle])]

theorem State.etchData_open {x : DWord} (shown : s.bu.etch.isOpen = true) (lock : s.bu.etch.lock = false) :
    s.etchData x = (s.modBu (fun b => b.etchPut x)).etchStep :=
  congrArg State.etchStep (if_pos (by rw [shown, lock]; rfl))

theorem State.etchData_shut {x : DWord} (h : s.bu.etch.isOpen = false ∨ s.bu.etch.lock = true) : s.etchData x = s.etchStep :=
  congrArg State.etchStep (if_neg (by rcases h with h | h <;> simp [h]))

end

/-- A command of BU_ETCH_CTRL: the bits that it does not name are the request's. -/
theorem PortDoes.of_etchCtrl {s v : State} {i : Instr} {q : PortReq} {b n : Nat} (hi : exec i s = .next (s.command 0xB0100 b 1 n q))
    (hb : b < 32) (hn : n < 2)
    (does : ∀ r : WReq, r.lo = true → r.init ≠ debugId → bit r.x b = decide (n = 1) →
      (∀ j, j < 32 → j ≠ b → bit r.x j = bit q.wdata j) → s.etchCtrl r = v)
    (up : v.latches = s.latches) : PortDoes s i 0xB0100 (q.lower.force b 1 n) v := by
  refine .of_forced hi (by decide) (fun low init => ?_) up
  refine does _ low.lo init ((low.bit b hb).trans (bit_force _ (by omega) hn)) (fun j hj other => ?_)
  rw [low.bit j hj, bit_force_apart _ (by omega) (by omega), PortReq.lower_wdata]

/-! The boot -/

section
variable {s : State}

theorem State.bootPtr_locked {r : WReq} (lock : s.bu.ptrLock = true) : s.bootPtr r = s := if_pos lock

theorem State.bootPtrPhase_run (run : s.bu.state = .run) : s.bootPtrPhase = s := by
  simp [State.bootPtrPhase, run]

/-- A write of BU_BOOT_PTR with VALID after BOOT_FAIL starts the boot (R288). -/
theorem State.bootPtr_starts {r : WReq} (lo : r.lo = true) (hi : r.hi = true) (init : r.init ≠ debugId)
    (valid : bit r.x 0 = true) (free : s.bu.ptrLock = false) (failed : s.bu.state = .bootFail) (runs : s.fc.halted = false) :
    s.bootPtr r = (s.modBu (fun b => { b with
      ptrValid := true, unsignedOk := bit r.x 1, ptrAddr := fld r.x 12 45, ptrLock := bit r.x 63 })).bootBegin := by
  unfold State.bootPtr
  simp only [WReq.lockHi_of_not_debug hi init]
  rw [if_neg (by simp [free]), if_pos (by simp [lo, valid, failed, runs]), valid]

/-- The image as it is checked: as long as its header says. -/
def imageFull (image : List Byte) : List Byte :=
  image ++ zeros (imageSigned (fit 64 image) + 4 + imageSig image - image.length)

/-- The image's signature is the firmware key's (R288). -/
def imageVerifies (image : List Byte) : Bool :=
  hssVerify firmwareKeyBytes ((imageFull image).take (imageSigned (fit 64 image)))
    (((imageFull image).drop (imageSigned (fit 64 image) + 4)).take (imageSig (imageFull image)))

/-- The read of the image behind its header (log 103). -/
def State.bootRest (s : State) (image : List Byte) : Bool × State :=
  (s.answered (· == .bootImage)).fabRead .bootImage 0 (s.bu.ptrAddr.toNat * 4096 + 64)
    (imageSigned (fit 64 image) + 4 + imageSig image - 64) false

theorem State.bootRest_core (s : State) (image : List Byte) : (s.bootRest image).2.core = s.core :=
  State.core_fabRead _ _ _ _ _ _

theorem State.unsignedMay_of_core {s t : State} (h : t.core = s.core) :
    (t.testLife && t.bu.unsignedOk) = (s.testLife && s.bu.unsignedOk) := by
  have same := congrArg (fun x : State => x.testLife && x.bu.unsignedOk) h
  exact same

theorem State.bootVerify_header {image : List Byte} (bad : imageHeaderOk (fit 64 image) = false) :
    s.bootVerify image false = (s.answered (· == .bootImage)).bootFails 1 := by
  unfold State.bootVerify
  rw [if_neg Bool.false_ne_true]
  exact if_pos (by rw [bad]; rfl)

/-- An image whose header and version are good, and that is signed or may be unsigned, starts Burin. -/
theorem State.bootVerify_starts {image : List Byte} (header : imageHeaderOk (fit 64 image) = true)
    (reads : (s.bootRest image).1 = true) (version : fieldAt (fit 64 image) 8 4 ≤ idVersion)
    (may : imageVerifies image = true ∨ (s.testLife && s.bu.unsignedOk) = true) :
    s.bootVerify image false =
      ((s.bootRest image).2.answered (· == .bootImage)).bootStart (imageFull image) (!imageVerifies image) := by
  obtain ⟨t, rest⟩ : ∃ t, s.bootRest image = (true, t) := ⟨_, Prod.ext reads rfl⟩
  have core : t.core = s.core := by rw [← s.bootRest_core image, rest]
  have allowed : ((t.answered (· == .bootImage)).testLife && (t.answered (· == .bootImage)).bu.unsignedOk) =
      (s.testLife && s.bu.unsignedOk) := State.unsignedMay_of_core core
  rw [rest]
  unfold State.bootRest at rest
  unfold State.bootVerify
  rw [if_neg Bool.false_ne_true]
  simp only [header, State.answered_bu, rest]
  rw [if_neg (by decide), if_neg (by decide), if_neg (Nat.not_lt.mpr version)]
  change (if imageVerifies image = true then _ else _) = _
  cases signed : imageVerifies image with
  | true => rfl
  | false =>
    rw [signed] at may
    exact (if_neg Bool.false_ne_true).trans (if_pos (allowed.trans (may.resolve_left Bool.false_ne_true)))

section
variable (boots : s.bu.state = .boot) (reading : s.po.txns.any (fun t => decide (t.who = .bootImage)) = true)
  (runs : s.fc.halted = false) {image : List Byte}
include boots reading runs

/-- The image's answer, without a bus error. -/
theorem State.bootAnswer_read :
    s.bootAnswer image false =
      if (s.bootVerify image false).bu.state = .run then
        if (s.bootVerify image false).burinUp.pw.phase = .firmware then
          (s.bootVerify image false).burinUp.stepFiveBegin.progress
        else (s.bootVerify image false).burinUp
      else if (s.bootVerify image false).pw.phase = .firmware then (s.bootVerify image false).stopStartup 4
      else s.bootVerify image false := by
  have quiet : s.bootAnswer image false = s.bootEnd image false :=
    congrArg (State.bootEnd · image false) (if_neg (fun h => Bool.false_ne_true h.1))
  exact quiet.trans (if_pos ⟨boots, reading, runs⟩)

theorem State.bootAnswer_fails {u : State} (verified : s.bootVerify image false = u) (failed : u.bu.state = .bootFail) :
    s.bootAnswer image false = if u.pw.phase = .firmware then u.stopStartup 4 else u := by
  rw [State.bootAnswer_read boots reading runs, verified]
  exact if_neg (by rw [failed]; nofun)

theorem State.bootAnswer_starts {u : State} (verified : s.bootVerify image false = u) (run : u.bu.state = .run) :
    s.bootAnswer image false =
      if u.burinUp.pw.phase = .firmware then u.burinUp.stepFiveBegin.progress else u.burinUp := by
  rw [State.bootAnswer_read boots reading runs, verified]
  exact if_pos run

end

/-! Routines -/

/-- A routine over its budget traps where it stands, and its link ends with OVERLOAD (R295, log 25). -/
theorem State.routineBudget_over {t : Nat} {e : TagEnt} (tag : s.tag? t = some e) (phase : e.phase = .running 0x003)
    (etched : isEtched e.desc.opcode.toNat = true) (run : s.bu.state = .run) (runs : s.fc.halted = false) :
    s.routineBudget t = (s.draw.2.routineTraps (Config.routinePc s.draw.1) 10).finish t .overload 0 0 := by
  unfold State.routineBudget
  rw [tag]
  exact if_pos ⟨phase, etched, run, runs⟩

end

end Sys2Proof.Machine

namespace Sys2Proof
open Machine

/-- Settles O38: each command of the BU_ page by its register's bits, the boot by the order of its checks. -/
theorem etchingAndBoot : Obligations.EtchingAndBoot := by
  unfold Obligations.EtchingAndBoot
  refine ⟨?etching, ?boot⟩
  case etching =>
    intro s q e openQ closeQ bit1 bit2
    have opens : ∀ v, s.etchOpen = v → PortDoes s (.etchOpen q) 0xB0100 openQ v := by
      rintro v rfl
      exact .of_etchCtrl rfl (by decide) (by decide) (fun r lo _ set other =>
        State.etchCtrl_open lo ((other 2 (by decide) (by decide)).trans bit2) ((other 1 (by decide) (by decide)).trans bit1) set)
        s.latches_etchOpen
    have closes : ∀ v, s.etchClose = v → PortDoes s (.etchClose q) 0xB0100 closeQ v := by
      rintro v rfl
      exact .of_etchCtrl rfl (by decide) (by decide) (fun r lo _ set other =>
        State.etchCtrl_close lo ((other 2 (by decide) (by decide)).trans bit2) ((other 1 (by decide) (by decide)).trans bit1) set)
        s.latches_etchClose
    refine ⟨fun life => opens _ (if_pos life), fun life => ⟨fun lock => opens _ (State.etchOpen_locked life lock),
        fun lock shut idle => ⟨fun busy => opens _ ((State.etchOpen_opens life lock shut idle).trans (if_pos busy)),
          fun free => opens _ ((State.etchOpen_opens life lock shut idle).trans (if_neg (by simp [free])))⟩⟩,
      fun waits free => exec_next rfl (if_pos (by simp [show s.bu.etch.waits = true from waits, free])),
      fun idle shown => ⟨fun valid => closes _ ?measures, fun invalid => closes _ ?empties⟩,
      fun lock shut idle => ?clears, fun idle shut bit0 => ?locks⟩
    case measures =>
      rw [State.etchClose_open idle shown, show s.bu.etch.valid = true from valid]
      rfl
    case empties =>
      rw [State.etchClose_open idle shown, show s.bu.etch.valid = false from invalid]
      rfl
    case clears =>
      intro u
      refine .of_etchCtrl rfl (by decide) (by decide) (fun r lo _ set other => ?_) (by split <;> simp [u])
      rw [State.etchCtrl_clear lo ((other 2 (by decide) (by decide)).trans bit2) set shut idle, other 0 (by decide) (by decide),
        State.etchCtrlClear_shut lock shut idle]
    case locks =>
      refine .of_etchCtrl rfl (by decide) (by decide) (fun r lo init set other => ?_) rfl
      rw [State.etchCtrl_lock lo init set ((other 1 (by decide) (by decide)).trans bit1)
        ((other 0 (by decide) (by decide)).trans bit0), State.etchClose_shut idle shut]
  case boot =>
    intro s q image tag e h u total full rest signed
    refine ⟨fun whole => ⟨fun shown lock => ?puts, fun shut => ?drops, ?reads⟩, fun lock run => ?kept,
      fun free failed whole => ?starts, fun boots reading runs => ⟨fun bad => ?header, fun header ok version may => ?good⟩,
      fun e tag phase etched run runs => exec_next rfl (State.routineBudget_over tag phase etched run runs)⟩
    case puts =>
      refine .of_whole rfl (by decide) whole (fun r word _ _ _ => ?_) rfl
      exact (State.etchData_open shown lock).trans (by rw [word])
    case drops => exact .of_whole rfl (by decide) whole (fun r _ _ _ _ => State.etchData_shut shut) rfl
    case reads => exact .of_word rfl (by decide) rfl rfl
    case kept =>
      refine .of_page rfl (by decide) (fun acc => ?_) (fun acc => acc.up)
      exact (congrArg State.bootPtrPhase (State.bootPtr_locked lock)).trans (State.bootPtrPhase_run run)
    case starts =>
      refine .of_page rfl (by decide) (fun acc => ?_) (fun acc => (State.up_of_latches (by simp)).trans acc.up)
      have word := State.wreq_whole (s := s) (off := 0xB0008) (q := q.force 0 1 1) whole
      refine congrArg State.bootPtrPhase ((State.bootPtr_starts ?_ ?_ acc.notDebug ?_ free failed (acc.notHalted (by decide))).trans ?_)
        <;> rw [word]
      · exact bit_force _ (by decide) (by decide)
      · dsimp only
        rw [bit_force_apart _ (by decide) (by decide), bit_force_apart _ (by decide) (by decide),
          fld_force_apart _ (by decide) (by decide)]
    case header =>
      exact exec_next rfl (State.bootAnswer_fails boots reading runs (State.bootVerify_header bad) rfl)
    case good =>
      intro v
      have verified : s.bootVerify image false = (rest.2.answered (· == .bootImage)).bootStart full (!signed) :=
        State.bootVerify_starts header ok version may
      have run : ((rest.2.answered (· == .bootImage)).bootStart full (!signed)).bu.state = .run := rfl
      have answers := State.bootAnswer_starts boots reading runs verified run
      have same : v = ((rest.2.answered (· == .bootImage)).bootStart full (!signed)).burinUp := rfl
      clear_value v
      rw [same]
      exact exec_next rfl answers

end Sys2Proof
end
